-- ==== Sys2Proof/Word.lean ====
section
/-! DEFINITION. The word types of the panel and the key/value map that every sparse store of the state uses. -/

namespace Sys2Proof

/-- One byte of a scratchpad, a stack, a record or a packet (R14: little-endian throughout). -/
abbrev Byte := BitVec 8

/-- A 32-bit word. -/
abbrev W32 := BitVec 32

/-- A 64-bit word, the widest register (R18, R425). -/
abbrev W64 := BitVec 64

/-- A step record: 64 bytes, bit 0 the least significant bit of byte 0 (R114). -/
abbrev Record := BitVec 512

/-- A sparse store: key and value pairs, keys strictly rising. What an unlisted key reads as is said
where the store is declared. -/
abbrev NMap (α : Type) := List (Nat × α)

end Sys2Proof
end

