-- ==== Sys2Proof/Types.lean ====
section
/-! DEFINITION. The data that commands carry and the state holds alike: units, packets, descriptors, frames, records. -/

namespace Sys2Proof

/-- Kind of a unit in event records (R441) and, for 0 to 5, close to `DST_KIND` (R241). -/
inductive UnitKind where
  | array | pack | fieldDie | hostDie | linkPort | mgmtDie | routerSite | island | panel
  deriving DecidableEq, Repr, Inhabited

/-- A unit named by kind and number, the `UNIT` of R441. -/
structure UnitId where
  kind : UnitKind := .panel
  num : Nat := 0
  deriving DecidableEq, Repr, Inhabited

/-- Destination or source of a fabric packet, `DST_KIND` and unit of R241. -/
inductive Endpoint where
  | tile (a : Nat) | hub (p : Nat) | field (d : Nat) | host (h : Nat) | link (n : Nat) | mgmt (m : Nat)
  | group (g : Nat) | broadcast
  deriving DecidableEq, Repr, Inhabited

/-- A global address (R116): scratchpad offset, logical array, arrival counter and its enable. -/
structure GAddr where
  off : Nat := 0
  array : Nat := 0
  ctr : Nat := 0
  ctrEn : Bool := false
  deriving DecidableEq, Repr, Inhabited

/-- The leader messages of R158 and R498. -/
inductive StepMsg where
  | stepStart (id attempt entry serial : Nat) (ctrClear : Nat) (deadline : Nat)
  | report (id attempt status tag addr : Nat)
  | cancel (id : Nat)
  | notMember (id : Nat)
  | backupRequest (id attempt primary entry serial : Nat) (ctrClear : Nat) (deadline : Nat)
  | backupRefused (id : Nat)
  | commitNotice (id attempt rank : Nat)
  | backupFailed (id : Nat)
  deriving DecidableEq, Repr, Inhabited

/-- The type-specific part of a packet (R243, R286 to R288, R407, R483). -/
inductive PktBody where
  | write
  | readReq (len : Nat)
  | readData
  | atomic (op : Nat)                        -- 1 FP32 add, 2 INT32 saturating add
  | ack (packets result epoch : Nat)         -- `CH_RESULT` and `EPOCH` of R287
  | nack
  | signal (value : Nat)
  | channelItem (dstEp mode srcEp epoch slot inFmt : Nat)
  | channelCredit (dstEp srcEp op epoch : Nat)
  | gatherReserve (gid walk packs : Nat)
  | gatherList (gid chunk : Nat)
  | bagPart (gid bag lo hi count : Nat)
  | reducePart (group op lo hi chunk count : Nat)
  | redCredit (group credits : Nat)
  | redDone (group counted : Nat) (short mismatch : Bool)
  | stepMsg (m : StepMsg)
  | setpoint (entry : Nat)
  | beacon (marker markTime : Nat)
  | fenceNotice (array reason site : Nat)
  | deadMask (gen : Nat)
  | sit (all : Bool)
  | fabCtl (kind scope : Nat)                -- 0 hold, 1 drain query, 2 drain report, 3 table update, 4 release
  | gapNotice (unit delivered expected : Nat)
  | tokenClaim (slot serial id leader attempt : Nat)
  | tokenAnswer (granted : Bool)
  | service (kind : Nat)
  deriving DecidableEq, Repr, Inhabited

/-- How a packet travels, as its injecting router settled it (R249, R251, R275). -/
structure Route where
  site : Nat := 0                        -- router that injected it
  via : Option (Nat × Nat) := none       -- via point of a TC0 or pinned route
  gen : Nat := 0                         -- mask generation at injection
  zrc : Bool := false                    -- its payload travels compressed (R244)
  held : Bool := false                   -- not injected yet: its scope is under hold
  deriving DecidableEq, Repr, Inhabited

/-- A fabric packet: the header of R241 with its type-specific part, and the payload as delivered (R244 restores it). -/
structure Packet where
  body : PktBody := .write
  cls : Nat := 2
  reply : Bool := false
  pinned : Bool := false
  noack : Bool := false
  span : Bool := false
  dst : Endpoint := .broadcast
  src : Endpoint := .broadcast
  off : Nat := 0
  ctr : Nat := 0
  ctrEn : Bool := false
  status : Nat := 0
  rtag : Nat := 0
  bad : Bool := false
  payload : List Byte := []
  route : Route := {}
  deriving DecidableEq, Repr, Inhabited

/-- A flit (R239, R240): its sideband fields and the packet that it is flit `fidx` of. -/
structure Flit where
  vc : Nat := 0
  kind : Nat := 0
  bad : Bool := false
  down : Bool := false
  dstSite : Nat := 0
  srcSite : Nat := 0
  viaRow : Nat := 31
  viaCol : Nat := 31
  fidx : Nat := 0
  pkt : Packet := {}
  deriving DecidableEq, Repr, Inhabited

/-- A ring descriptor as fetched (R433, R434): the header fields and the body fields that its opcode uses. -/
structure Descr where
  opcode : Nat := 0
  wait : Bool := false
  quiet : Bool := false
  reservedZero : Bool := true
  userTag : Nat := 0
  hostAddr : Nat := 0
  len : Nat := 0
  unit : Nat := 0
  handle : Nat := 0
  offset : Nat := 0        -- `OFFSET`, `BLOCK`, `SEG_OFF` or the chunk index
  ctr : Nat := 0           -- `CTR` or `EP`
  ctrEn : Bool := false    -- `CTR_EN` or `MCAST`
  value : Nat := 0
  deriving DecidableEq, Repr, Inhabited

/-- The doorbell page a host returned, 4096 bytes (R428), and what the following descriptor reads found: for each submission ring with new
descriptors the 64 bytes of each, in slot order (R431, R433). -/
structure DoorbellPage where
  page : List Byte := []
  fetched : NMap (List (List Byte)) := []
  deriving DecidableEq, Repr, Inhabited

/-- An entry of a legacy capacity table (R310). -/
structure CapEntry where
  srcArray : Nat := 0
  srcEp : Nat := 0
  dstArray : Nat := 0
  dstEp : Nat := 0
  maxItems : Nat := 1
  maxBytes : Nat := 1
  deriving DecidableEq, Repr, Inhabited

/-- A firmware manifest (R506), as parsed from its bytes, with the bytes its signature covers. -/
structure Manifest where
  magicOk : Bool := true
  version : Nat := 1
  kind : Nat := 0
  imageLen : Nat := 0
  nChunks : Nat := 0
  fwVersion : Nat := 0
  serial : Nat := 0
  variants : Nat := 3
  reservedZero : Bool := true
  hashes : List (BitVec 512) := []
  signedBytes : List Byte := []
  signature : List Byte := []
  deriving DecidableEq, Repr, Inhabited

/-- A register default of a configuration record or overlay (R465): BAR0 offset, width in bytes, value. -/
structure RegDefault where
  offset : Nat := 0
  width : Nat := 8
  value : Nat := 0
  deriving DecidableEq, Repr, Inhabited

/-- A configuration record or overlay (R465, R468), as parsed, with the bytes its signature covers. -/
structure ConfigRecord where
  magicOk : Bool := true
  lengthOk : Bool := true
  version : Nat := 1
  recSeq : Nat := 0
  variant : Nat := 0x16
  stepping : Nat := 0
  serial : Nat := 0
  siteMap : Option (List Nat) := none          -- section 0x01
  repairLists : List (List Nat) := []          -- section 0x02
  spineDelays : Option (List Nat) := none      -- section 0x03, units of 1/16 ns
  defaults : List RegDefault := []             -- section 0x04
  vendorKey : Option (List Byte) := none       -- section 0x05
  certificate : Option (List Byte × List Byte) := none   -- section 0x06: key, signature
  operatorHash : Option (BitVec 512) := none   -- section 0x07
  signedBytes : List Byte := []
  signature : List Byte := []
  deriving DecidableEq, Repr, Inhabited

/-- One sampled-value ASDU (R337, R338, R340). -/
structure Asdu where
  smpCnt : Nat := 0
  smpSynch : Nat := 0
  confRev : Nat := 0
  seqData : List Byte := []
  deriving DecidableEq, Repr, Inhabited

/-- A clock as the best master clock algorithm compares it (R334): the data set of an announce message, its steps and its sender. -/
structure PtpClock where
  priority1 : Nat := 128
  clockClass : Nat := 248
  accuracy : Nat := 0xFE
  variance : Nat := 0xFFFF
  priority2 : Nat := 128
  identity : Nat := 0
  steps : Nat := 0
  sender : Nat := 0
  deriving DecidableEq, Repr, Inhabited

/-- What a PTP engine hears (R334, R414, R419). -/
inductive PtpMsg where
  | announce (clock : PtpClock) (utcOffset nextOffset leapTime : Nat)
  | offset (ps : Int)                                -- a completed delay exchange: measured offset in ps
  | firstTime (ns : Nat)                             -- the source first gives a time
  | delayReq                                         -- a delay request of another clock
  | pdelayReq                                        -- a peer-delay request
  | management
  | other
  deriving DecidableEq, Repr, Inhabited

/-- The content of a received frame, one constructor for each row of R335. -/
inductive FrameBody where
  | ptp (domain : Nat) (m : PtpMsg)
  | arp (senderMac senderIp targetIp : Nat)
  | icmpEcho (srcIp dstIp : Nat) (data : List Byte)
  | sv (appid : Nat) (asdus : List Asdu)
  | c37data (fragmented toPort : Bool) (srcUdp udpPort : Nat) (sizeOk chkOk : Bool) (idcode soc fracsec stat srcIp : Nat) (bytes : List Byte)
  | c37config (toPort : Bool) (udpPort idcode timeBase : Nat) (bytes : List Byte)
  | datagram (toPort : Bool) (udpPort : Nat) (bytes : List Byte)   -- any other UDP datagram, whole
  | pause
  | other
  deriving DecidableEq, Repr, Inhabited

/-- A frame as a field port receives it (R331 to R333). -/
structure Frame where
  fcsOk : Bool := true
  tagOk : Bool := true
  length : Nat := 64
  rxTime : Nat := 0
  vlan : Nat := 0
  srcMac : Nat := 0
  body : FrameBody := .other
  raw : List Byte := []
  deriving DecidableEq, Repr, Inhabited

/-- A span header (R367) with its data. -/
structure SpanPkt where
  lvc : Nat := 0
  kind : Nat := 0
  hops : Nat := 63
  dstPanel : Nat := 0
  srcPanel : Nat := 0
  dstUnit : Nat := 0        -- `DST_ARRAY` or `DST_ENTRY`
  dstOffset : Nat := 0
  ctr : Nat := 0
  ctrEn : Bool := false
  xid : Nat := 0
  chunk : Nat := 0
  status : Nat := 0
  sent : Nat := 0
  reservedZero : Bool := true
  data : List Byte := []
  deriving DecidableEq, Repr, Inhabited

/-- A head word as it arrives: its packet, and the codewords that the FEC has corrected since the last one (R367, R371). -/
structure SpanWord where
  pkt : SpanPkt := {}
  corrected : Nat := 0
  deriving DecidableEq, Repr, Inhabited

/-- An identity word (R368, subtype 4). -/
structure Identity where
  panelId : Nat := 4095
  port : Nat := 0
  dateline : Bool := false
  spanId : Nat := 0
  serial : Nat := 0
  deriving DecidableEq, Repr, Inhabited

/-- The result of a lane test (R364): bit l set when lane l failed. -/
abbrev LaneMap := BitVec 52

/-- What the test of every wire of a seam link finds (R31, R235). A direction is 0 from north to south, 1 from south to north. Wires 0 to 2047
carry payload, 2048 to 2055 are the spares; each of the 320 parity and sideband wires is a pair. -/
structure SeamTest where
  failed : List (Fin 2 × Fin 2056) := []
  pairs : List (Fin 2 × Fin 320 × Fin 2) := []     -- a failed wire of a pair
  deriving DecidableEq, Repr, Inhabited

/-- Who raised sit (R537, `MON_SIT_STAT.SOURCE`). -/
inductive SitSource where
  | pin | h0 | h1 | monitor | tap | span
  deriving DecidableEq, Repr, Inhabited

/-- A sit word (R544). -/
structure SitWord where
  op : Nat := 0
  all : Bool := false
  origin : Nat := 0
  sitId : Nat := 0
  tOrigin : Nat := 0
  deriving DecidableEq, Repr, Inhabited

/-- A reset request's source, kept for `IDN_CAUSE` (R481). -/
inductive ResetCause where
  | powerUp | resetN | panelRstH0 | panelRstH1 | monitor | firmware
  deriving DecidableEq, Repr, Inhabited

/-- What the service chain says of one tile (R494). -/
structure ChainTile where
  railUp : Bool := true
  islandRunning : Bool := true
  inReset : Bool := false
  raw : List Int := []          -- the four hot-spot readings, in 0.1 °C
  routerRailUp : Bool := true
  deriving DecidableEq, Repr, Inhabited

/-- A pack's service-chain report (R494), with the coolant, hub and edge readings MN takes with it (R523). -/
structure ChainReport where
  silent : Bool := false
  tiles : List ChainTile := []
  hubTemp : Option Int := none
  coolIn : Option Int := none
  coolOut : Option Int := none
  deriving DecidableEq, Repr, Inhabited

end Sys2Proof
end

