-- ==== Sys2Proof/Syntax.lean ====
section
/-! DEFINITION. The commands of the panel: one constructor for each row of the table of operations and events. -/

namespace Sys2Proof

/-- A command. Operands are what arrives from outside the state: the register value written, the packet that reaches its
unit, the measurement a sensor takes. A step record names its array only: the sequencer fetches the record itself (R110).
A descriptor names its port, submission ring and descriptor number; `data` is what the host read answered. -/
inductive Instr where
  /-- INPUT_POWER_UP (R448). The 50 V input rises above 41.0 V, so the power panel starts conversion and power-up begins at management stage 0. -/
  | inputPowerUp
  /-- INPUT_LOSS (R448). The input falls below 39.0 V for 100 µs or rises above 59.0 V for 10 µs, so all conversion stops without any quiesce. -/
  | inputLoss
  /-- INPUT_RESTART (R448). After the input has stayed between 41.0 V and 58.0 V for 100 ms, conversion starts again from the beginning. -/
  | inputRestart
  /-- RESET_N_LOW (R472). RESET_N is held low for at least 1 µs, which requests a whole-panel reset, or at power-up holds MN and MS in reset. -/
  | resetNLow
  /-- RESET_N_RELEASE (R452). RESET_N rises, and bring-up continues from management stage 0. -/
  | resetNRelease
  /-- STAGE_COMPLETE (R457). A staged unit (MN, MS, a host die or a seam link) finishes or fails a stage. -/
  | stageComplete (u : Fin 28) (failed : Bool) (code : Nat) (seam : SeamTest)
  /-- PACK_RAIL_RAISE (R450). Every 2 ms during power-up, the rail group of the next fitted pack is raised, in ascending pack number. -/
  | packRailRaise
  /-- BRINGUP_PHASE_END (R453). A bring-up phase ends, and the next phase begins. -/
  | bringupPhaseEnd (deadSites : List (Fin 576)) (deadLinks : List (Fin 1104)) (failedTests : List (Fin 576 × Fin 576))
  /-- KNOWN_ANSWER_DONE (R462). An array's known-answer run completes, so the array goes into service or is fenced and substituted or set vacant. -/
  | knownAnswerDone (site : Fin 576) (pass : Bool)
  /-- ARRAY_RESET (R474). PRT_ARR_RST.GO requests an array reset, which drains, absorbs and then clears the array state. -/
  | arrayReset (port : Fin 2) (a : Fin 512)
  /-- PACK_RESET (R474). PRT_PACK_RST.GO requests a pack reset of the pack's arrays and hub. -/
  | packReset (port : Fin 2) (p : Fin 64)
  /-- PARTITION_RESET (R473). PRT_CMD.RESET requests a reset of every pack assigned to the partition. -/
  | partitionReset (port : Fin 2) (n : Fin 16)
  /-- PANEL_RESET (R476). A write of 0xA5 to PRT_PANEL_RST requests a whole-panel reset: links quiesce, the islands are reset, and bring-up reruns. -/
  | panelReset (port : Fin 2) (key : BitVec 8)
  /-- RESET_DRAIN_DONE (R473). The outward drain of a pending array, pack or partition reset ends, and the units in scope are reset under R474. -/
  | resetDrainDone
  /-- HALF_STOP (R479). PRT_HALF.STOP stops the south half-panel: regions led there end, the half enters the mask as dead, stacks go to self refresh, and the islands stop. -/
  | halfStop (port : Fin 2)
  /-- HALF_START (R478). PRT_HALF.START restarts the stopped south half through a partition reset of all its packs. -/
  | halfStart (port : Fin 2)
  /-- HOST_PORT_RESET (R444). PERST low or link-down on a host port resets that port's HIF_ and per-port RNG_ registers only. -/
  | hostPortReset (port : Fin 2)
  /-- FUNCTION_LEVEL_RESET (R444). A Function Level Reset resets the port's registers, discards the host writes of descriptors already fetched, and loses unstarted descriptors. -/
  | functionLevelReset (port : Fin 2)
  /-- DOORBELL_POLL (R429). Every INTERVAL, the device issues a 4096-byte read of the port's doorbell page. -/
  | doorbellPoll (port : Fin 2)
  /-- DOORBELL_PAGE_RETURN (R430). The doorbell page read completes, and the device updates producer and head counts and begins fetching newly covered descriptors. -/
  | doorbellPageReturn (port : Fin 2) (page : DoorbellPage)
  /-- NOP (R434). A NOP descriptor completes at once, or, with WAIT set, after every earlier descriptor of its ring. -/
  | nop (port : Fin 2) (sq : Fin 256) (k : Nat)
  /-- SCRATCH_WRITE (R434). The device writes host data into an array's scratchpad as global-write packets. -/
  | scratchWrite (port : Fin 2) (sq : Fin 256) (k : Nat) (data : List Byte)
  /-- SCRATCH_READ (R434). The device reads an array's scratchpad into host memory. -/
  | scratchRead (port : Fin 2) (sq : Fin 256) (k : Nat)
  /-- HOST_SIGNAL (R434). A SIGNAL descriptor adds VALUE to an array's counter, or to that counter at each member of a multicast group. -/
  | hostSignal (port : Fin 2) (sq : Fin 256) (k : Nat)
  /-- HOST_CHANNEL_ITEM (R285). The host places an item in a receive endpoint, which is checked against HOST_OK and queued, spilled or refused. -/
  | hostChannelItem (port : Fin 2) (sq : Fin 256) (k : Nat) (item : List Byte)
  /-- REGION_START (R435). MN checks and accepts or refuses a region start and gives the region a serial. -/
  | regionStart (port : Fin 2) (sq : Fin 256) (k : Nat)
  /-- REGION_START_LEGACY (R311). MN checks the capacity table and then starts a legacy region, or refuses it with capacity-refused. -/
  | regionStartLegacy (port : Fin 2) (sq : Fin 256) (k : Nat) (table : List CapEntry)
  /-- REGION_STOP (R436). A REGION_STOP cancels the running step of the leader's region and ends the region. -/
  | regionStop (port : Fin 2) (sq : Fin 256) (k : Nat)
  /-- TABLE_WRITE (R226). The hub writes host data into a home segment and its mirror copy, as the state of the segment allows. -/
  | tableWrite (port : Fin 2) (sq : Fin 256) (k : Nat) (data : List Byte)
  /-- TABLE_READ (R434). The hub reads table data from the serving copy into host memory, repairing uncorrectable blocks from the mirror. -/
  | tableRead (port : Fin 2) (sq : Fin 256) (k : Nat)
  /-- FIELD_TX (R434). A host frame is queued for transmission on a field port. -/
  | fieldTx (port : Fin 2) (sq : Fin 256) (k : Nat) (frame : List Byte)
  /-- FW_MANIFEST (R506). MN checks a firmware manifest, starts a new image and abandons any image in progress. -/
  | fwManifest (port : Fin 2) (sq : Fin 256) (k : Nat) (m : Manifest)
  /-- FW_CHUNK (R507). MN checks a firmware chunk against its manifest hash and keeps it or refuses it. -/
  | fwChunk (port : Fin 2) (sq : Fin 256) (k : Nat) (data : List Byte)
  /-- FW_IMAGE_WRITTEN (R508). MN holds every chunk, writes the image to flash, checks it on readback, and for tile and hub images starts distribution. -/
  | fwImageWritten (readbackOk : Bool)
  /-- FW_ROUND_END (R509). A firmware distribution round ends when its bitmaps are in or ROUND_100MS has expired, and a pull round starts or units are fenced. -/
  | fwRoundEnd (missing : NMap Nat)
  /-- COMPLETION_ENTRY_WRITE (R438). The device writes a held completion entry once its completion ring has room. -/
  | completionEntryWrite (port : Fin 2) (cq : Fin 128)
  /-- MSIX_TIMEOUT (R443). The oldest unsignalled entry of a ring has waited INT_US microseconds, so the ring signals its vector. -/
  | msixTimeout (port : Fin 2) (cq : Option (Fin 128))
  /-- HOST_READ_TIMEOUT (R422). A device read of host memory fails or is not completed within 50 ms, so the descriptor that issued it fails with host-fault. -/
  | hostReadTimeout (port : Fin 2) (sq : Fin 256) (k : Nat)
  /-- EVENT_RECORD_WRITE (R442). MN writes held bark and telemetry records into the event ring once it can. -/
  | eventRecordWrite
  /-- TELEMETRY_TICK (R441). Every TEL_MS milliseconds, MN issues one panel telemetry record and one record for each fitted pack. -/
  | telemetryTick
  /-- DOE_ATTESTATION (R471). The DOE mailbox answers an attestation request with a signed report. -/
  | doeAttestation (port : Fin 2) (nonce : BitVec 256)
  /-- DOE_CERTIFICATE (R471). The DOE mailbox answers a certificate request with section 0x06 of the record in use. -/
  | doeCertificate (port : Fin 2)
  /-- REGISTER_WRITE (R18). A BAR0 write to a register that has no row of its own takes effect under the access rules, reserved-encoding checks and bad-access checks. -/
  | registerWrite (port : Fin 2) (offset : BitVec 26) (width : Nat) (value : BitVec 64)
  /-- ARR_FLAGS_WRITE (R109). A host write clears W1C bits of ARR_FLAGS, and a write of 1 to SATURATED restarts SAT_COUNT. -/
  | arrFlagsWrite (port : Fin 2) (a : Fin 512) (value : BitVec 32) (satNow : Bool)
  /-- TM_RGN_WRITE (R174). A write to a region descriptor is refused, or is applied and starts initialisation of the range. -/
  | tmRgnWrite (port : Fin 2) (a : Fin 512) (n : Fin 16) (value : BitVec 64)
  /-- REGION_INIT_DONE (R175). Zeroing of a region through the maintenance port finishes, and INIT_BUSY clears. -/
  | regionInitDone (a : Fin 512) (n : Fin 16)
  /-- CH_EP_WRITE (R314). A write to CH_EP_n is accepted or refused. -/
  | chEpWrite (port : Fin 2) (a : Fin 512) (n : Fin 64) (value : BitVec 64)
  /-- CH_EP_OPEN (R295). An endpoint opens, its epoch increases, and an open notice or an epoch query is sent to its peer. -/
  | chEpOpen (port : Fin 2) (a : Fin 512) (n : Fin 64)
  /-- CH_EP_CLOSE (R296). An endpoint closes: held items are discarded, a close notice is sent, and a waiting RECV ends with endpoint-closed. -/
  | chEpClose (port : Fin 2) (a : Fin 512) (n : Fin 64)
  /-- ADM_SRC_WRITE (R322). A write to a source's TC0 budget is accepted against the panel totals or refused. -/
  | admSrcWrite (port : Fin 2) (n : Fin 524) (value : BitVec 32)
  /-- PRT_MAP_WRITE (R447). A partition map write is applied, or refused when it would move a pack that holds a member of a running region. -/
  | prtMapWrite (port : Fin 2) (w : Fin 4) (value : BitVec 64)
  /-- RNG_SQ_CFG_WRITE (R447). A submission ring configuration write enables the ring with CONS at 0, stops fetching, or is refused. -/
  | rngSqCfgWrite (port : Fin 2) (sq : Fin 256) (value : BitVec 64)
  /-- RNG_CQ_CFG_WRITE (R447). A completion ring configuration write enables the ring or is refused. -/
  | rngCqCfgWrite (port : Fin 2) (cq : Fin 128) (value : BitVec 64)
  /-- PWR_PACK_WRITE (R522). A pack policy write is applied, or refused when a floor exceeds its ceiling or a value lies out of range. -/
  | pwrPackWrite (port : Fin 2) (p : Fin 64) (value : BitVec 64)
  /-- CLK_MARGIN_CFG_WRITE (R420). A margin threshold write is applied, or refused unless CRIT_PS lies below WARN_PS. -/
  | clkMarginCfgWrite (port : Fin 2) (value : BitVec 32)
  /-- LNK_PORT_WRITE (R374). A link port configuration write is applied, and a port in MISMATCH checks its identity again. -/
  | lnkPortWrite (port : Fin 2) (n : Fin 8) (value : BitVec 64)
  /-- LNK_BIND_WRITE (R380). A link binding write is accepted, or refused when the endpoint is already bound to a field die. -/
  | lnkBindWrite (port : Fin 2) (j : Fin 256) (value : BitVec 64)
  /-- FLD_FIFO_WRITE (R347). An ingest FIFO write enables the FIFO with SEQ 0, discards its items on disable, or is refused. -/
  | fldFifoWrite (port : Fin 2) (d : Fin 2) (f : Fin 32) (value : BitVec 64)
  /-- CLK_SET_CMD (R420). CLK_CMD.SET schedules a step of panel time to CLK_SET at the next marker plus 1 µs, unless the time source forbids it. -/
  | clkSetCmd (port : Fin 2)
  /-- TABLE_INSTALL (R210). PCK_TBL_CMD OP 0 checks a table descriptor and installs it at every hub concerned. -/
  | tableInstall (port : Fin 2)
  /-- TABLE_REMOVE (R210). PCK_TBL_CMD OP 1 removes a table handle. -/
  | tableRemove (port : Fin 2)
  /-- TABLE_PROMOTE (R228). PCK_TBL_CMD OP 2 promotes the mirror segments of a pack whose stack has been declared failed. -/
  | tablePromote (port : Fin 2) (p : Fin 64)
  /-- TABLE_RESYNC (R230). PCK_TBL_CMD OP 3 starts a resync into a pack at the background share. -/
  | tableResync (port : Fin 2) (p : Fin 64)
  /-- TABLE_DEMOTE (R230). PCK_TBL_CMD OP 4 returns resynced segments to state normal. -/
  | tableDemote (port : Fin 2) (p : Fin 64)
  /-- STACK_DECLARE_FAILED (R229). PCK_TBL_CMD OP 5 declares a pack's stack failed while the pack keeps power. -/
  | stackDeclareFailed (port : Fin 2) (p : Fin 64)
  /-- STACK_RETURN (R229). PCK_TBL_CMD OP 6 promotes the remaining segments and retrains and zeroes a failed stack. -/
  | stackReturn (port : Fin 2) (p : Fin 64)
  /-- TABLE_CHANGE_EFFECT (R210). Once the gathers in progress have finished, a pending table change takes effect at every hub, and GO clears. -/
  | tableChangeEffect
  /-- RESYNC_COMPLETE (R230). A resync finishes copying, so the segments become promoted with equal copies and rebuilt mirrors are mirrored again. -/
  | resyncComplete
  /-- STACK_READY (R199). A hub finishes training, repairing and zeroing its stack, loads the saved descriptors, and reports the stack ready. -/
  | stackReady (p : Fin 64)
  /-- MCAST_GROUP_WRITE (R276). FAB_GRP_CMD OP 0 writes a multicast group through drain-then-change. -/
  | mcastGroupWrite (port : Fin 2) (g : Fin 4096)
  /-- REDUCTION_GROUP_WRITE (R276). FAB_GRP_CMD OP 1 writes a reduction group, or refuses the write when the group is in use or full. -/
  | reductionGroupWrite (port : Fin 2) (g : Fin 4096)
  /-- MCAST_GROUP_CLEAR (R276). FAB_GRP_CMD OP 2 clears a multicast group. -/
  | mcastGroupClear (port : Fin 2) (g : Fin 4096)
  /-- REDUCTION_GROUP_CLEAR (R276). FAB_GRP_CMD OP 3 clears a reduction group. -/
  | reductionGroupClear (port : Fin 2) (g : Fin 4096)
  /-- KEY_COMMIT (R358). FLD_KEY_CMD.COMMIT loads the staged key and NEW_ID into a slot in one die cycle. -/
  | keyCommit (port : Fin 2) (d : Fin 2) (slot : Fin 64) (newId : BitVec 16)
  /-- KEY_ERASE (R361). FLD_KEY_CMD.ERASE empties a key slot. -/
  | keyErase (port : Fin 2) (d : Fin 2) (slot : Fin 64)
  /-- LNK_RETRAIN_REQUEST (R375). LNK_PORT_n.RETRAIN sends a port in UP into RETRAIN. -/
  | lnkRetrainRequest (port : Fin 2) (n : Fin 8)
  /-- HOST_FENCE (R483). FLT_FENCE OP 0 fences an array with reason 0x05. -/
  | hostFence (port : Fin 2) (a : Fin 512)
  /-- FENCE_RETURN (R487). FLT_FENCE OP 1 returns a host-fenced array to service after a known-answer run passes. -/
  | fenceReturn (port : Fin 2) (a : Fin 512) (knownAnswer : Bool)
  /-- PROACTIVE_SWAP (R493). FLT_SWAP.GO moves an array to its pack's reserve between steps. -/
  | proactiveSwap (port : Fin 2) (a : Fin 512) (copy : Bool)
  /-- PACK_RETRY (R497). FLT_PACK_CMD.RETRY re-raises a latched pack and returns it to service, or the pack latches again. -/
  | packRetry (port : Fin 2) (p : Fin 64) (shortPersists : Bool) (deadLinks : List (Fin 1104))
  /-- FW_ACTIVATE (R511). FLT_FW_CMD.ACTIVATE resets the units concerned so that they start from the new image. -/
  | fwActivate (port : Fin 2)
  /-- FW_ABANDON (R512). FLT_FW_CMD.ABANDON discards the image in progress. -/
  | fwAbandon (port : Fin 2)
  /-- UNDEFINED_OPCODE (R115). A record with an undefined opcode does not execute, and the step fails with opcode-illegal. -/
  | undefinedOpcode (a : Fin 512)
  /-- FETCH_LIMIT_EXCEEDED (R112). A step has fetched 65,536 records without reaching END and fails with field-illegal. -/
  | fetchLimitExceeded (a : Fin 512)
  /-- LOAD_WEIGHT (R122). A LOAD of kind WEIGHT reads a weight tile into the shadow registers, waiting for an unswapped tile where needed. -/
  | loadWeight (a : Fin 512)
  /-- SHADOW_LOAD_DONE (R58). A weight tile finishes loading into the shadow registers, which releases a MATMUL that was stalled on it. -/
  | shadowLoadDone (a : Fin 512)
  /-- LOAD_ACC (R123). A LOAD of kind ACC converts scratchpad rows exactly into an accumulator half. -/
  | loadAcc (a : Fin 512)
  /-- LOAD_COPY (R123). A LOAD of kind COPY reads a global source into the local scratchpad. -/
  | loadCopy (a : Fin 512)
  /-- STORE_ACC (R125). A STORE of kind ACC converts accumulator rows once and writes them to a global destination. -/
  | storeAcc (a : Fin 512)
  /-- STORE_COPY (R124). A STORE of kind COPY sends local data to a global destination. -/
  | storeCopy (a : Fin 512)
  /-- STORE_FLAGS (R125). A STORE of kind FLAGS writes ARR_FLAGS to the scratchpad and optionally clears the bits it read as 1. -/
  | storeFlags (a : Fin 512)
  /-- MATMUL (R127). A MATMUL streams activation vectors through the active weight tile into an accumulator half, after a swap if one is requested. -/
  | matmul (a : Fin 512)
  /-- VECOP_CONVERT (R79). VECOP function 0x00 converts A to DST_FMT. -/
  | vecopConvert (a : Fin 512)
  /-- VECOP_ADD (R99). VECOP function 0x01 computes A + B. -/
  | vecopAdd (a : Fin 512)
  /-- VECOP_SUB (R99). VECOP function 0x02 computes A − B. -/
  | vecopSub (a : Fin 512)
  /-- VECOP_MUL (R99). VECOP function 0x03 computes A × B. -/
  | vecopMul (a : Fin 512)
  /-- VECOP_FMA (R99). VECOP function 0x04 computes A × B + C with one rounding. -/
  | vecopFma (a : Fin 512)
  /-- VECOP_DIV (R99). VECOP function 0x05 computes A / B, correctly rounded. -/
  | vecopDiv (a : Fin 512)
  /-- VECOP_SQRT (R99). VECOP function 0x06 computes sqrt A. -/
  | vecopSqrt (a : Fin 512)
  /-- VECOP_MIN (R99). VECOP function 0x07 computes the IEEE minimum. -/
  | vecopMin (a : Fin 512)
  /-- VECOP_MAX (R99). VECOP function 0x08 computes the IEEE maximum. -/
  | vecopMax (a : Fin 512)
  /-- VECOP_ABS (R99). VECOP function 0x09 computes abs A. -/
  | vecopAbs (a : Fin 512)
  /-- VECOP_NEG (R99). VECOP function 0x0A computes neg A. -/
  | vecopNeg (a : Fin 512)
  /-- VECOP_COPYSIGN (R99). VECOP function 0x0B computes copysign(A, B). -/
  | vecopCopysign (a : Fin 512)
  /-- VECOP_COMPARE_EQ (R99). VECOP function 0x0C writes a lane mask of A = B. -/
  | vecopCompareEq (a : Fin 512)
  /-- VECOP_COMPARE_LT (R99). VECOP function 0x0D writes a lane mask of A < B. -/
  | vecopCompareLt (a : Fin 512)
  /-- VECOP_COMPARE_LE (R99). VECOP function 0x0E writes a lane mask of A ≤ B. -/
  | vecopCompareLe (a : Fin 512)
  /-- VECOP_COMPARE_UNORDERED (R99). VECOP function 0x0F writes a lane mask of unordered pairs. -/
  | vecopCompareUnordered (a : Fin 512)
  /-- VECOP_SELECT (R99). VECOP function 0x10 selects A where C's mask bit is set, and B elsewhere. -/
  | vecopSelect (a : Fin 512)
  /-- VECOP_RECIP (R99). VECOP function 0x11 computes recip A. -/
  | vecopRecip (a : Fin 512)
  /-- VECOP_RSQRT (R99). VECOP function 0x12 computes rsqrt A. -/
  | vecopRsqrt (a : Fin 512)
  /-- VECOP_EXP2 (R99). VECOP function 0x13 computes exp2 A. -/
  | vecopExp2 (a : Fin 512)
  /-- VECOP_LOG2 (R99). VECOP function 0x14 computes log2 A. -/
  | vecopLog2 (a : Fin 512)
  /-- VECOP_EXP (R99). VECOP function 0x15 computes exp A. -/
  | vecopExp (a : Fin 512)
  /-- VECOP_LOG (R99). VECOP function 0x16 computes log A. -/
  | vecopLog (a : Fin 512)
  /-- VECOP_TANH (R99). VECOP function 0x17 computes tanh A. -/
  | vecopTanh (a : Fin 512)
  /-- VECOP_SIGMOID (R99). VECOP function 0x18 computes sigmoid A. -/
  | vecopSigmoid (a : Fin 512)
  /-- VECOP_SILU (R99). VECOP function 0x19 computes silu A. -/
  | vecopSilu (a : Fin 512)
  /-- VECOP_GELU (R99). VECOP function 0x1A computes gelu A in tanh form. -/
  | vecopGelu (a : Fin 512)
  /-- VECOP_AND (R100). VECOP function 0x20 computes the INT32 bitwise and. -/
  | vecopAnd (a : Fin 512)
  /-- VECOP_OR (R100). VECOP function 0x21 computes the INT32 bitwise or. -/
  | vecopOr (a : Fin 512)
  /-- VECOP_XOR (R100). VECOP function 0x22 computes the INT32 bitwise xor. -/
  | vecopXor (a : Fin 512)
  /-- VECOP_SHIFT_LEFT (R100). VECOP function 0x23 shifts A left by B modulo 32. -/
  | vecopShiftLeft (a : Fin 512)
  /-- VECOP_SHIFT_RIGHT_ARITH (R100). VECOP function 0x24 shifts A arithmetically right by B. -/
  | vecopShiftRightArith (a : Fin 512)
  /-- VECOP_SHIFT_RIGHT_LOGICAL (R100). VECOP function 0x25 shifts A logically right by B. -/
  | vecopShiftRightLogical (a : Fin 512)
  /-- VECOP_SATURATING_ADD (R100). VECOP function 0x26 computes the saturating INT32 sum A + B. -/
  | vecopSaturatingAdd (a : Fin 512)
  /-- VECOP_SUM_REDUCE (R101). VECOP function 0x30 sum-reduces all rows and lanes in the fixed tree order. -/
  | vecopSumReduce (a : Fin 512)
  /-- VECOP_MAX_REDUCE (R101). VECOP function 0x31 max-reduces all rows and lanes. -/
  | vecopMaxReduce (a : Fin 512)
  /-- VECOP_QUANTISE (R81). VECOP function 0x38 quantises A to an MX format and writes elements and scale bytes. -/
  | vecopQuantise (a : Fin 512)
  /-- VECOP_RESERVED_FUNC (R129). A VECOP with a reserved or unoffered FUNC fails the step with field-illegal. -/
  | vecopReservedFunc (a : Fin 512)
  /-- GATE (R103). A GATE selects the top-k experts per token, applies capacity and fallback, and writes the routing list and count block. -/
  | gate (a : Fin 512)
  /-- GATHER (R132). A GATHER reserves hub storage along the serving hubs, then sends the list to every hub in PACKS. -/
  | gather (a : Fin 512)
  /-- SCATTER_WRITE (R134). A SCATTER with OP 0 writes indexed rows to a global base. -/
  | scatterWrite (a : Fin 512)
  /-- SCATTER_ADD_FP32 (R134). A SCATTER with OP 1 adds indexed rows atomically in FP32. -/
  | scatterAddFp32 (a : Fin 512)
  /-- SCATTER_ADD_INT32 (R134). A SCATTER with OP 2 adds indexed rows atomically with INT32 saturation. -/
  | scatterAddInt32 (a : Fin 512)
  /-- REDUCE_SUM_FP32 (R268). A REDUCE with OP 0 contributes to an in-network FP32 sum. -/
  | reduceSumFp32 (a : Fin 512)
  /-- REDUCE_SUM_INT32 (R268). A REDUCE with OP 1 contributes to an INT32 saturating sum. -/
  | reduceSumInt32 (a : Fin 512)
  /-- REDUCE_MAX_FP32 (R268). A REDUCE with OP 2 contributes to an FP32 maximum. -/
  | reduceMaxFp32 (a : Fin 512)
  /-- SEND (R282). A SEND sends one item on a channel endpoint, or on a bound field or link endpoint as a setpoint, export or control message. -/
  | send (a : Fin 512)
  /-- RECV (R284). A RECV waits on a receive or combining endpoint. -/
  | recv (a : Fin 512)
  /-- RECV_DELIVER (R284). A waiting RECV finds an item, copies the oldest to DST, frees its entries and writes its status word. -/
  | recvDeliver (a : Fin 512) (ep : Fin 64)
  /-- DISPATCH_SEND (R141). DISPATCH mode SEND registers expected counts and sends token rows and tags to the expert arrays, followed by count words. -/
  | dispatchSend (a : Fin 512)
  /-- DISPATCH_RETURN (R142). DISPATCH mode RETURN scales the expert outputs and sends them as contributions to the origin endpoints. -/
  | dispatchReturn (a : Fin 512)
  /-- WAIT_COUNT (R144). A WAIT_COUNT waits for an arrival counter to reach TARGET. -/
  | waitCount (a : Fin 512)
  /-- WAIT_COUNT_MET (R187). A counter reaches the TARGET of an active WAIT_COUNT, which completes and, under CONSUME, subtracts TARGET. -/
  | waitCountMet (a : Fin 512)
  /-- WAIT_TIMEOUT (R144). The TIMEOUT of a WAIT_COUNT expires, and the step fails with wait-timeout. -/
  | waitTimeout (a : Fin 512)
  /-- SIGNAL (R145). A SIGNAL record adds VALUE to a counter at one array or at each multicast member. -/
  | signal (a : Fin 512)
  /-- FENCE (R145). A FENCE waits until the earlier records of its scope have completed. -/
  | fence (a : Fin 512)
  /-- COMMIT (R153). A COMMIT claims its first-wins token if required and then sends its staged pairs. -/
  | commit (a : Fin 512)
  /-- END (R147). END completes once every earlier record has completed, and the array sends its step report. -/
  | endStep (a : Fin 512)
  /-- RECORD_COMPLETE (R149). An in-flight record completes or fails, which releases hazards, increments DONE_CTR and stops issue on failure. -/
  | recordComplete (a : Fin 512) (n : Nat)
  /-- TOKEN_CLAIM (R153). A COMMIT's claim reaches its token home, which grants or denies it against the slot. -/
  | tokenClaim (pkt : Packet)
  /-- LEADER_TRIGGER (R159). The leader's trigger counter reaches TRIG_COUNT, and the leader consumes it and sends step-start for the next entry. -/
  | leaderTrigger (a : Fin 512)
  /-- STEP_START (R158). A member receives step-start: it clears counters, resets combining endpoints, auto-opens endpoints and runs from ENTRY. -/
  | stepStart (pkt : Packet)
  /-- STEP_REPORT (R159). The leader receives a member's step report and settles the outcome ok or failed. -/
  | stepReport (pkt : Packet)
  /-- STEP_DEADLINE (R159). The step's deadline passes with the outcome open, so the step fails with deadline-missed. -/
  | stepDeadline (a : Fin 512)
  /-- RERUN_START (R159). After survivors have reported and drained, and fences have settled, the leader starts the next attempt. -/
  | rerunStart (a : Fin 512)
  /-- CANCEL (R161). A member receives a cancel, stops issuing records, ends its WAIT_COUNTs, and reports cancelled or ok. -/
  | cancel (pkt : Packet)
  /-- BACKUP_TIMER (R499). At DEADLINE_NS × BACKUP_PCT with the outcome open, the leader sends a backup request to its standby leader. -/
  | backupTimer (a : Fin 512)
  /-- BACKUP_REQUEST (R500). A standby leader accepts a backup request and starts its members on the primary's step, or refuses it. -/
  | backupRequest (pkt : Packet)
  /-- BACKUP_REFUSED (R500). The primary leader receives a backup refused answer. -/
  | backupRefused (pkt : Packet)
  /-- COMMIT_NOTICE (R501). The primary leader counts a standby member's commit as its counterpart's commit. -/
  | commitNotice (pkt : Packet)
  /-- BACKUP_FAILED (R502). The primary leader learns that the backup failed and continues alone. -/
  | backupFailed (pkt : Packet)
  /-- ATTRIBUTED_FAILURE (R485). MN counts a failed attempt attributed to one member and fences that member when the count reaches STEP_FAIL_LIMIT. -/
  | attributedFailure (a : Fin 512)
  /-- WRITE_PACKET (R182). A WRITE packet reaches its home tile, is checked against the region descriptors, is written and acknowledged, and increments its counter. -/
  | writePacket (pkt : Packet)
  /-- READ_REQ (R183). A remote read request reaches its home tile, which checks it and returns READ_DATA. -/
  | readReq (pkt : Packet)
  /-- READ_DATA (R183). Read data returns to the requester. -/
  | readData (pkt : Packet)
  /-- ATOMIC (R185). An atomic packet adds its elements to a line at the home bank over two bank cycles. -/
  | atomic (pkt : Packet)
  /-- ACK (R259). An acknowledgement reaches the requester and retires the outstanding request. -/
  | ack (pkt : Packet)
  /-- NACK (R259). A NACK reaches the requester, whose record fails with the mapped status or whose delivery is retried. -/
  | nack (pkt : Packet)
  /-- SIGNAL_PACKET (R145). A SIGNAL packet adds VALUE to a counter at its destination tile. -/
  | signalPacket (pkt : Packet)
  /-- CHANNEL_ITEM (R283). A queue or legacy item reaches a receive endpoint and is queued, spilled or refused. -/
  | channelItem (pkt : Packet)
  /-- COMBINING_CONTRIBUTION (R303). A MODE 1 contribution is added atomically to a combining slot, or is counted and refused. -/
  | combiningContribution (pkt : Packet)
  /-- SPACE_NOTICE (R292). A refused sender receives a space notice and resends its blocked item. -/
  | spaceNotice (pkt : Packet)
  /-- OPEN_NOTICE (R295). A send endpoint receives its reader's open notice and takes the new epoch. -/
  | openNotice (pkt : Packet)
  /-- CLOSE_NOTICE (R296). An endpoint receives its peer's close notice. -/
  | closeNotice (pkt : Packet)
  /-- EPOCH_QUERY (R295). A receive endpoint answers a sender's epoch query with its open state and epoch. -/
  | epochQuery (pkt : Packet)
  /-- BLOCK_NOTICE (R293). A reader endpoint receives a block notice and sets SUSPECT. -/
  | blockNotice (pkt : Packet)
  /-- SPILL_REFILL (R291). A queue has room for its endpoint's oldest spilled item, which moves into the queue and frees its slot. -/
  | spillRefill (a : Fin 512) (ep : Fin 64)
  /-- CHANNEL_RESEND (R292). 10 µs after the last refusal, a blocked sender resends its item. -/
  | channelResend (a : Fin 512) (ep : Fin 64)
  /-- CHANNEL_SUSPECT (R293). A SEND has been blocked for SUSPECT_US, so both endpoints set SUSPECT and a bark record is raised. -/
  | channelSuspect (a : Fin 512) (ep : Fin 64)
  /-- CHANNEL_SEND_TIMEOUT (R294). A SEND blocked for TMO_10US completes with timeout, and its item is discarded and counted. -/
  | channelSendTimeout (a : Fin 512) (ep : Fin 64)
  /-- GATHER_RESERVE (R269). A hub receives a gather reserve, reserves combining storage or queues the reserve, and passes it on or acknowledges it. -/
  | gatherReserve (pkt : Packet)
  /-- GATHER_LIST (R216). A hub receives a gather list chunk, checks it, fetches and decodes its served rows, and pools the bags in list order. -/
  | gatherList (pkt : Packet)
  /-- BAG_PART (R217). A bag partial sum arrives at a node leader, is combined in canonical order, and the final bag is divided and converted at DST. -/
  | bagPart (pkt : Packet)
  /-- REDUCE_PART (R266). A reduction chunk arrives at a node leader and is combined in canonical order. -/
  | reducePart (pkt : Packet)
  /-- RED_CREDIT (R268). A child leader receives chunk credits and may send more chunks. -/
  | redCredit (pkt : Packet)
  /-- RED_DONE (R136). A contributor receives RED_DONE, writes its completion word, and completes its REDUCE. -/
  | redDone (pkt : Packet)
  /-- BEACON_BROADCAST (R407). About 50 ns after marker k, MN broadcasts beacon k. -/
  | beaconBroadcast
  /-- BEACON (R409). An island receives a beacon and corrects its anchor and rate estimate. -/
  | beacon (i : Fin 1230) (pkt : Packet)
  /-- BEACON_MISSED_LIMIT (R412). After 8 consecutive missed beacons, the island switches to spine mode. -/
  | beaconMissedLimit (i : Fin 1230)
  /-- FENCE_NOTICE (R483). Units receive a fence notice for an array: fenced, substituted, vacant or returned. -/
  | fenceNotice (pkt : Packet)
  /-- DEAD_MASK (R271). Every router applies a new dead-region mask generation in one cycle and holds escape entry until the table is installed. -/
  | deadMask (pkt : Packet)
  /-- SIT_PACKET (R539). An island receives the SIT broadcast and stops at its next safe edge. -/
  | sitPacket (i : Fin 1230) (pkt : Packet)
  /-- FAB_HOLD (R275). Units receive a hold that stops injection within the scope of a table change. -/
  | fabHold
  /-- FAB_DRAIN_QUERY (R275). Routers answer a drain query once no outstanding packet of the scope remains. -/
  | fabDrainQuery
  /-- FAB_DRAIN_REPORT (R275). MN collects the drain reports and broadcasts the table update once all have arrived. -/
  | fabDrainReport (site : Fin 576)
  /-- FAB_TABLE_UPDATE (R275). Routers apply a site, group or escape table update with a new generation and acknowledge it. -/
  | fabTableUpdate
  /-- FAB_RELEASE (R275). Units receive the release and resume injection within the scope. -/
  | fabRelease
  /-- GAP_NOTICE (R265). MN receives a gap notice for a pruned multicast member and turns it into a bark record. -/
  | gapNotice (pkt : Packet)
  /-- SERVICE_PACKET (R531). A TC3 service packet (scrub, telemetry, firmware chunk, bark record or resync copy) reaches its unit. -/
  | servicePacket (pkt : Packet)
  /-- FLIT_ARRIVAL (R261). A flit arrives at a router input, is checked for parity and sideband errors, and is routed. -/
  | flitArrival (site : Fin 576) (inPort : Fin 6) (vc : Fin 14) (payload : List (Fin 2048)) (parity : List (Fin 256)) (side : List (Fin 64))
  /-- LINK_IDLE_TIMEOUT (R272). A link's handshake has been idle with flits pending for 64 cycles, so the router declares the link dead and reports it. -/
  | linkIdleTimeout (site : Fin 576) (outPort : Fin 6)
  /-- DEAD_LINK_REPORT (R272). MN receives a dead link or dead router report and broadcasts a new mask generation. -/
  | deadLinkReport (links : List (Fin 1104)) (sites : List (Fin 576))
  /-- ESCAPE_TABLE_COMPUTED (R256). MN finishes computing the escape table for the current mask and installs it by drain-then-change. -/
  | escapeTableComputed
  /-- REQUEST_TIMEOUT (R260). A request outstanding after REQ_TMO receives a locally generated NACK with status 0x02. -/
  | requestTimeout (rtag : Nat)
  /-- EJECT_GUARD_EXPIRE (R318). A TC0 packet has waited at an ejection port for EJECT_GUARD, so it is absorbed and NACKed. -/
  | ejectGuardExpire (site : Fin 576) (pkt : Packet)
  /-- ADMISSION_TICK (R320). At each 62.5 ns tick, buckets refill and waiting TC0 messages whose charge is covered enter the injection queue. -/
  | admissionTick
  /-- FIELD_FRAME_RX (R335). A field port receives a frame, timestamps it, and classifies it by the stream table. -/
  | fieldFrameRx (n : Fin 8) (f : Frame)
  /-- FIELD_LINK_CHANGE (R332). A field port gains or loses its Ethernet link. -/
  | fieldLinkChange (n : Fin 8) (up : Bool) (speed fec : Nat)
  /-- INGEST_DELIVERY (R341). A complete item is read from an ingest FIFO and delivered as a TC1 write into its ring slot. -/
  | ingestDelivery (d : Fin 2) (f : Fin 32)
  /-- INGEST_IDLE (R344). After IDLE_US with nothing delivered and the FIFO empty, the die delivers an idle watermark item. -/
  | ingestIdle (d : Fin 2) (f : Fin 32)
  /-- CONC_SNAPSHOT_CLOSE (R349). At T + CONC_WAIT, a die closes its part of snapshot T, and the south die sends its part north. -/
  | concSnapshotClose (d : Fin 2) (t : Nat)
  /-- CONC_SOUTH_PART (R349). The south part arrives at the north die, which publishes the snapshot. -/
  | concSouthPart (t : Nat)
  /-- CONC_PUBLISH_TIMEOUT (R349). At T + CONC_WAIT + 2 ms without a south part, the north die publishes with the south streams marked missing. -/
  | concPublishTimeout (t : Nat)
  /-- CONC_RATE_LEARNT (R348). After one full second, a learnt sampled-value stream takes its RATE_BASE and joins snapshots. -/
  | concRateLearnt (d : Fin 2) (m : Fin 256)
  /-- SETPOINT_ACCEPT (R353). A field die checks a SETPOINT packet and ACKs it into the target port's deadline queue, or NACKs it. -/
  | setpointAccept (pkt : Packet)
  /-- PORT_FRAME_SELECT (R356). A port selects its next frame by priority, building a setpoint or discarding one that would be late. -/
  | portFrameSelect (n : Fin 8) (firstBit : Nat)
  /-- SETPOINT_DEADLINE_PASS (R357). A queued setpoint's DEADLINE passes, so it is discarded and counted. -/
  | setpointDeadlinePass (n : Fin 8)
  /-- FRAME_TX_DONE (R356). A frame finishes on the wire with its transmit timestamp, and a FIELD_TX descriptor completes. -/
  | frameTxDone (n : Fin 8) (txTime : Nat)
  /-- SETPOINT_DELIVER (R359). A SETPOINT packet from a field or link die lands in an inbound ring slot and increments the counter. -/
  | setpointDeliver (pkt : Packet)
  /-- LINK_LIGHT_DETECT (R373). A DARK port receives light on every fibre it needs and starts training. -/
  | linkLightDetect (n : Fin 8)
  /-- LINK_TRAIN_DONE (R364). Training ends, spares are assigned or half width is chosen, and the port moves to ALIGN or FAILED. -/
  | linkTrainDone (n : Fin 8) (failedLanes : LaneMap)
  /-- LINK_ALIGN_DONE (R365). Codeword lock and deskew complete, and the port moves to IDENTIFY. -/
  | linkAlignDone (n : Fin 8)
  /-- IDENTITY_WORD (R374). A port receives the peer's identity word and goes UP or enters MISMATCH. -/
  | identityWord (n : Fin 8) (w : Identity)
  /-- LINK_TRAIN_RETRY (R373). 1 s after a failed attempt to reach UP, the port starts again from DARK. -/
  | linkTrainRetry (n : Fin 8)
  /-- LINK_LOCK_LOSS (R375). A lane in use loses lock, and the port enters RETRAIN. -/
  | linkLockLoss (n : Fin 8)
  /-- UNCORR_LIMIT_EXCEEDED (R375). More than UNCORR_LIMIT codewords fail in one millisecond, and the port enters RETRAIN. -/
  | uncorrLimitExceeded (n : Fin 8)
  /-- RETRAIN_DONE (R375). Retraining ends, and the port returns to UP or enters FAILED. -/
  | retrainDone (n : Fin 8) (failedLanes : LaneMap)
  /-- LINK_LIGHT_LOST (R375). Light is lost on every fibre, so the port goes DARK and its queued packets are rerouted. -/
  | linkLightLost (n : Fin 8)
  /-- UNCORRECTABLE_CODEWORD (R371). The FEC cannot correct a codeword, whose link words are lost, so packets are discarded and export chunks are answered 0x03. -/
  | uncorrectableCodeword (n : Fin 8) (lost : Option SpanPkt)
  /-- SPAN_HEAD_WORD (R377). A link die receives a span packet, decrements HOPS, and delivers, forwards, holds or discards it by the route table. -/
  | spanHeadWord (n : Fin 8) (w : SpanWord)
  /-- EXPORT_CHUNK (R382). The destination link die writes an export chunk into the target tile and answers it. -/
  | exportChunk (d : Fin 8) (p : SpanPkt)
  /-- EXPORT_ANSWER (R383). The source link die receives a chunk answer, and the SEND completes once every chunk is answered. -/
  | exportAnswer (d : Fin 8) (p : SpanPkt)
  /-- SPAN_CONTROL_MESSAGE (R384). A control message reaches its panel and is delivered to an inbound entry with a delivery header. -/
  | spanControlMessage (d : Fin 8) (p : SpanPkt)
  /-- EXPORT_START (R382). A link die accepts an export descriptor, divides the export into chunks, and reads them from the issuing tile. -/
  | exportStart (d : Fin 8) (pkt : Packet)
  /-- LNK_CONTROL_ACCEPT (R380). A link die accepts a control message into a port queue, which completes the SEND. -/
  | lnkControlAccept (d : Fin 8) (pkt : Packet)
  /-- CREDIT_WORD (R370). A sender receives a credit word and regains credits, including credits lost with bad codewords. -/
  | creditWord (n : Fin 8) (freed : List Nat)
  /-- CREDIT_WORD_TIMER (R368). At least every 100 ns while freed words remain unreported, a port sends a credit word. -/
  | creditWordTimer (n : Fin 8)
  /-- CREDIT_RESYNC_TIMER (R370). After 1 µs without a head word on an LVC while credits are owed, the sender sends an idle resynchronisation head word. -/
  | creditResyncTimer (n : Fin 8) (lvc : Fin 16)
  /-- DELAY_PROBE (R368). A port receives a delay probe and updates its round-trip measurement. -/
  | delayProbe (n : Fin 8) (peerTime echoed : Nat)
  /-- DELAY_PROBE_TIMER (R368). Every 1 ms, each port sends a delay probe. -/
  | delayProbeTimer (n : Fin 8)
  /-- QUIESCE_WORD (R388). A port receives a quiesce word, stops routing to the link, finishes its packet, and sends a quiesce acknowledge. -/
  | quiesceWord (n : Fin 8) (panelId : Nat)
  /-- QUIESCE_ACKNOWLEDGE (R388). A quiescing port receives the neighbour's acknowledge. -/
  | quiesceAcknowledge (n : Fin 8) (panelId : Nat)
  /-- QUIESCE_TIMEOUT (R387). A port has sent all held packets, or QUIESCE_MS has passed, so it turns its lasers off. -/
  | quiesceTimeout (n : Fin 8)
  /-- FAILOVER_TIMEOUT (R377). FAILOVER_US has passed since a primary port entered RETRAIN, so held packets are re-examined and take the alternate. -/
  | failoverTimeout (n : Fin 8)
  /-- SPAN_TMO_EXPIRE (R383). An export chunk has gone unanswered for SPAN_TMO and counts as unreachable. -/
  | spanTmoExpire (d : Fin 8) (xid chunk : Nat)
  /-- SIT_WORD (R545). A link die's sit engine accepts a span sit or resume word, forwards it once, and acts on it where SPAN_IN_EN is set. -/
  | sitWord (n : Fin 8) (w : SitWord)
  /-- ISLAND_FREQ_CHANGE_DONE (R396). An island completes a glitch-free change of set frequency, and its rate estimate is rescaled. -/
  | islandFreqChangeDone (i : Fin 1230) (step : Nat)
  /-- DROOP_STRETCH (R399). A droop detector sees the supply fall, and the oscillator stretches the cycle by s/64. -/
  | droopStretch (i : Fin 1230) (st : Fin 20)
  /-- SUSTAINED_DROOP (R400). A stretch window lasts longer than 1 µs, so it is counted and the droop loop lowers the set frequency. -/
  | sustainedDroop (i : Fin 1230)
  /-- CLOCK_HOLD (R401). A droop deeper than a 19/64 stretch holds the clock with no edge until the margin returns. -/
  | clockHold (i : Fin 1230)
  /-- MARGIN_WINDOW (R403). Every 10 ms, an island records its smallest margin and warns or steps its frequency down. -/
  | marginWindow (i : Fin 1230) (minPs : BitVec 10) (sensor : Fin 8)
  /-- SPINE_MARKER (R406). Every 250th spine tick, MN and every island latch marker k and its count E, and any pending time step takes effect. -/
  | spineMarker (latched : NMap Nat)
  /-- REF10M_INVALID (R404). REF10M_IN stops being valid, and the spine root moves phase-continuously to MN's oscillator. -/
  | ref10mInvalid
  /-- REF10M_RESTORE (R404). REF10M_IN has been valid for 10 s, and the root returns to it. -/
  | ref10mRestore
  /-- SPINE_TICK_LOSS (R413). An island sees no spine tick for 16 ns, marks HOLDOVER, and runs in counted mode. -/
  | spineTickLoss (i : Fin 1230)
  /-- PPS_IN_EDGE (R417). A rising edge on PPS_IN is timestamped and, in mode 2, marks a whole second. -/
  | ppsInEdge (ts : Nat)
  /-- PPS_IN_MISSING (R417). PPS_IN has been missing for 2 s, so PPS_IN_OK clears and a locked panel enters holdover. -/
  | ppsInMissing
  /-- PPS_OUT_PULSE (R418). At each whole second of panel time, PPS_OUT rises for PPS_OUT_WIDTH ms when enabled. -/
  | ppsOutPulse
  /-- HEARTBEAT_TIMEOUT (R484). A router receives no heartbeat from its array for HB_10US × 10 µs and reports the array to MN. -/
  | heartbeatTimeout (site : Fin 576)
  /-- ARRAY_FENCE (R486). MN fences an array, absorbs its waiting packets, resets its island, and starts substitution. -/
  | arrayFence (a : Fin 512) (reason : Nat)
  /-- SUBSTITUTION (R488). The reserve finishes its known-answer run and restore, and the number moves to the reserve's site or becomes vacant. -/
  | substitution (p : Fin 64) (knownAnswer : Bool)
  /-- FLASH_MAP_WRITE (R491). MN writes the new site map and failure record to the configuration flash. -/
  | flashMapWrite (p : Fin 64)
  /-- SERVICE_CHAIN_REPORT (R494). Every 1 ms, each pack's service chain reports rail, island and temperature states to MN. -/
  | serviceChainReport (p : Fin 64) (r : ChainReport)
  /-- STATE_CONFLICT (R494). The service chain and the data path have disagreed for CONFLICT_MS, so MN acts by the table and starts a neighbour test. -/
  | stateConflict (u : Nat) (row : Fin 5)
  /-- NEIGHBOUR_TEST_DONE (R495). An in-service neighbour test ends, and the unit returns to service or is substituted or stays dead. -/
  | neighbourTestDone (u : Nat) (pass : Bool)
  /-- PACK_SHORT (R496). A pack rail short latches the pack off, fences its arrays, and asserts ALERT_N. -/
  | packShort (p : Fin 64)
  /-- CELL_FAIL (R34). A bus converter cell fails and disconnects itself, and the half's load may be limited. -/
  | cellFail (south : Bool) (c : Fin 16)
  /-- HEALTH_DECAY (R503). Once an hour, each unit's penalty is reduced by floor(P / 32). -/
  | healthDecay
  /-- SCRATCHPAD_SCRUB (R192). The maintenance port scrubs SECDED64 lines over each scrub period and logs uncorrectable words. -/
  | scratchpadScrub (site : Fin 576) (line : Nat)
  /-- CORRECTED_WRITEBACK (R191). A corrected scratchpad line is written back through the maintenance port within 64 cycles. -/
  | correctedWriteback (site : Fin 576) (line : Nat)
  /-- HUB_SCRUB (R231). Each hub reads every stack block once per SCRUB_HOURS and repairs blocks from the mirror copy where it can. -/
  | hubScrub (p : Fin 64) (block : Nat)
  /-- HUB_CORRECTED_WRITEBACK (R201). A block corrected by the hub code is written back to the stack within 1 µs, unless it has been written since. -/
  | hubCorrectedWriteback (p : Fin 64) (block : Nat)
  /-- STACK_TEMP_READ (R525). Every 1 ms, the hub reads its stack's temperature and adjusts the HBM4 command rate. -/
  | stackTempRead (p : Fin 64) (reading : Option Nat)
  /-- POWER_LOOP (R518). Every 1 ms, MN compares input power with LIMIT_EFF and lowers or raises pack power caps. -/
  | powerLoop (pIn vIn iIn : Nat) (packPower : NMap Nat)
  /-- CAP_RAISE (R519). Every 10 ms, a loop raises a cap it lowered by one step. -/
  | capRaise (i : Fin 1230) (loop : Fin 6)
  /-- BRAKE_ENGAGE (R516). The input current has exceeded 740 A for 20 µs, so every array island stretches every cycle by 19/64. -/
  | brakeEngage
  /-- BRAKE_RELEASE (R516). The input current has stayed below 720 A for 100 µs, and the brake ends. -/
  | brakeRelease
  /-- PACK_POWER_SAMPLE (R517). Every 10 µs, the hub measures pack power and brakes the pack's array islands above P_CEIL. -/
  | packPowerSample (p : Fin 64) (power : Nat)
  /-- VOLTAGE_LOOP (R521). Every 1 ms, each pack's array rail moves 5 mV by margin, within AV_FLOOR to AV_CEIL. -/
  | voltageLoop (p : Fin 64) (minPs : Nat)
  /-- TILE_TEMP_SAMPLE (R523). Every 100 µs, a tile samples its sensors, forms the reading in use, trips its thermal guard, and may latch the pack off at 120 °C. -/
  | tileTempSample (site : Fin 576) (raw : List Int) (hotFor1ms : Bool)
  /-- GUARD_CAP_RAISE (R524). After 10 ms below CRIT − 5 °C, the guard raises its cap by one step every 10 ms. -/
  | guardCapRaise (site : Fin 576)
  /-- SENSOR_DISAGREE (R524). A sensor pair has differed by more than 6 °C for 10 ms, which sets its fault bit. -/
  | sensorDisagree (site : Fin 576) (spot : Fin 2)
  /-- SENSOR_AGREE_CLEAR (R524). A faulty pair has agreed within 6 °C for 1 s, and its fault bit clears. -/
  | sensorAgreeClear (site : Fin 576) (spot : Fin 2)
  /-- THERMAL_PREDICT (R527). Every 1 ms, MN predicts temperatures 8 ms ahead and throttles the single worst unit. -/
  | thermalPredict (tilePower : NMap Nat) (hubPower : NMap Nat)
  /-- THERMAL_REFIT (R528). Once per second, MN refits r_s, r_n and tau for each tile. -/
  | thermalRefit (site : Fin 576)
  /-- SIT_PIN_LOW (R537). SIT_N goes low, which raises sit in the variant PIN_ALL selects. -/
  | sitPinLow
  /-- SIT_PIN_HIGH (R537). SIT_N rises, and sit ends if the latch is clear. -/
  | sitPinHigh
  /-- MON_SIT_RAISE (R537). MON_SIT_CMD.RAISE sets the sit latch, optionally freeze-all and span-wide. -/
  | monSitRaise (port : Fin 2) (all span : Bool)
  /-- MON_SIT_RESUME (R537). MON_SIT_CMD.RESUME clears the sit latch. -/
  | monSitResume (port : Fin 2) (span : Bool)
  /-- ISLAND_SAFE_STOP (R539). An island reaches its safe edge after completing granted accesses and stops. -/
  | islandSafeStop (i : Fin 1230)
  /-- SIT_RESUME (R542). The latch clears with SIT_N high, every island restarts in spine mode, and deferred work proceeds. -/
  | sitResume
  /-- READOUT_GO (R546). MON_RO_CMD.GO starts or continues the read-out stream in freeze-fabric, or is refused. -/
  | readoutGo (port : Fin 2)
  /-- READOUT_ABORT (R555). MON_RO_CMD.ABORT stops the stream after the current record. -/
  | readoutAbort (port : Fin 2)
  /-- READOUT_STREAM_END (R546). The read-out stream finishes, fills the buffer, or aborts. -/
  | readoutStreamEnd
  /-- TAP_IDCODE (R550). The IDCODE instruction returns the part identity. -/
  | tapIdcode
  /-- TAP_SIT_ALL (R550). SIT_ALL with 1 at Update-DR raises freeze-all. -/
  | tapSitAll (bit : Bool)
  /-- TAP_RESUME (R550). RESUME clears the latch and may send a span resume word. -/
  | tapResume (bits : BitVec 2)
  /-- TAP_RESET (R550). RESET with 0xA5 requests a whole-panel reset with IDN_CAUSE 4. -/
  | tapReset (key : BitVec 8)
  /-- TAP_RO_ADDR (R550). RO_ADDR sets the read-out unit, space and offset. -/
  | tapRoAddr (addr : BitVec 64)
  /-- TAP_RO_DATA (R550). Each Capture-DR of RO_DATA reads the word at RO_ADDR in sit and advances the offset by 8. -/
  | tapRoData
  /-- SWK_HELP (R553). The monitor lists the commands that its form offers. -/
  | swkHelp
  /-- SWK_ID (R553). The monitor reports the serial, variant, stepping, REC_SEQ, firmware version and state. -/
  | swkId
  /-- SWK_STAGE (R553). The monitor lists the stage registers. -/
  | swkStage
  /-- SWK_TIME (R553). The monitor reports panel time and TIME_STATE. -/
  | swkTime
  /-- SWK_LOG (R553). The monitor lists the last n bark records of the flash log. -/
  | swkLog (n : Option Nat)
  /-- SWK_RD (R553). The monitor performs a BAR0 read. -/
  | swkRd (offset : BitVec 26) (width : Nat)
  /-- SWK_WR (R553). The monitor performs a privileged BAR0 write. -/
  | swkWr (offset : BitVec 26) (value : BitVec 64) (width : Nat)
  /-- SWK_SIT (R553). The monitor sets the sit latch and returns the SIT_ID. -/
  | swkSit (all span : Bool)
  /-- SWK_RESUME (R553). The monitor clears the sit latch, optionally span-wide. -/
  | swkResume (span : Bool)
  /-- SWK_RO (R553). The monitor reads up to 4096 bytes of a read-out space in freeze-fabric. -/
  | swkRo (kind n space offset len : Nat)
  /-- SWK_RESET_ARRAY (R553). The monitor requests an array reset and replies with its STATUS. -/
  | swkResetArray (a : Nat)
  /-- SWK_RESET_PACK (R553). The monitor requests a pack reset and replies with its STATUS. -/
  | swkResetPack (p : Nat)
  /-- SWK_RESET_PANEL (R553). The monitor requests a whole-panel reset with IDN_CAUSE 4. -/
  | swkResetPanel
  /-- SWK_CLRFAIL (R553). The monitor clears a pack's failure record. -/
  | swkClrfail (p : Nat)
  /-- SWK_RECLOAD (R553). The monitor receives and checks a configuration record and writes it to the older area. -/
  | swkRecload (len : Nat) (rec : ConfigRecord)
  /-- SWK_BAUD (R553). The monitor accepts a new line rate and replies at the old rate. -/
  | swkBaud (rate : Nat)
  /-- SWK_BAUD_SWITCH (R553). 10 ms after a baud command, the line switches to the new rate. -/
  | swkBaudSwitch
  /-- SWK_BAUD_REVERT (R553). With no valid line within 60 s after a rate change, the line returns to 115200. -/
  | swkBaudRevert
  /-- SWK_CHAL (R552). The monitor issues a fresh 32-byte challenge. -/
  | swkChal
  /-- SWK_AUTH (R552). The monitor verifies a signature over the challenge and grants privilege or counts a failure. -/
  | swkAuth (r sg : List Byte) (q : Option (List Byte))
  /-- SWK_LOGOUT (R552). The monitor ends privilege. -/
  | swkLogout
  /-- SWK_PRIVILEGE_TIMEOUT (R552). After 15 minutes without a command, privilege ends. -/
  | swkPrivilegeTimeout
  /-- SWK_AUTH_UNBLOCK (R552). 60 s after three failed attempts, auth is allowed again. -/
  | swkAuthUnblock
  /-- SPINE_TICK_RETURN (R413). Spine ticks return at an island that had marked HOLDOVER, and the island rejoins under R412 as if it had started. -/
  | spineTickReturn (i : Fin 1230)
  /-- HOST_LINK_UP (R480). A host port's PCIe link trains and comes up after PERST0_N or PERST1_N is released or after a link-down. -/
  | hostLinkUp (port : Fin 2) (speed width : Nat) (flit : Bool)
  /-- BUS_MASTER_ENABLE_CHANGE (R444). The host sets or clears Bus Master Enable or moves the function between D0 and D3hot, which stops or resumes device-initiated traffic on the port. -/
  | busMasterEnableChange (port : Fin 2) (enable d3hot : Bool)
  /-- UNDEFINED_DESCRIPTOR_OPCODE (R434). A fetched descriptor with an undefined OPCODE completes with opcode-illegal. -/
  | undefinedDescriptorOpcode (port : Fin 2) (sq : Fin 256) (k : Nat)
  /-- SWK_UNKNOWN_COMMAND (R554). The Sweuk monitor receives a line that names no command and replies err 01. -/
  | swkUnknownCommand
  /-- TIME_SOURCE_LOST (R415). The PTP master is lost after lock, and TIME_STATE passes to holdover with panel time running on the last rate. -/
  | timeSourceLost
  deriving DecidableEq, Repr

end Sys2Proof
end

