-- ==== Sys2Proof/Decode.lean ====
section
/-! DEFINITION. The table gives none of its rows a bit layout (its `fields` are empty: commands are operations and events named
with operands), so no word spells a command. -/

namespace Sys2Proof

/-- The command that a word of the table spells: none, as no row gives bits. -/
def decodeTableWord (_nbits _w : Nat) : Option Instr := none

end Sys2Proof
end

