-- ==== Sys2Proof/Config.lean ====
section
/-! DEFINITION. What the part fixes (counts of the resource table, R1 to R13) and the free values: constants with no body, of
which nothing can be proved. -/

namespace Sys2Proof

namespace Config

/-! ### Counts of the package (resource table of the scope file, R2 to R13) -/

def nSites : Nat := 576
def nArrays : Nat := 512
def nPacks : Nat := 64
def nIslands : Nat := 1230
def nSources : Nat := 524
def scratchBytes : Nat := 0x4000000
def stackBytes : Nat := 0x1000000000

/-! ### Free values

Each is opaque: nothing in Lean can evaluate it. A name that begins `free` is applied to the counter `State.free`, which the
command advances, so that two draws are two values. -/

/-- A value that the spec leaves open, drawn afresh (log entry 3). -/
opaque freeNat : Nat → Nat

/-- Which of the answers within the accuracy of R99 an approximate function gives: its displacement, in units of the last place, from
the correctly rounded answer (log entry 4). The first argument is the function code of R129, or 0x100 and 0x101 for the
exponential and the sigmoid of the gate unit (R103); the second is the FP32 operand. -/
opaque approx : Nat → BitVec 32 → Int

/-- SHA-512 of a byte string (R461, R465, R506): named by the spec through FIPS, its bits not given there (log entry 5). -/
opaque sha512 : List Byte → BitVec 512

/-- HMAC-SHA-512 of a message under a key (R354). -/
opaque hmacSha512 : List Byte → List Byte → BitVec 512

/-- ECDSA P-521 verification: public key, signature, message (R466, R506, R552). -/
opaque ecdsaVerify : List Byte → List Byte → List Byte → Bool

/-- The device key's signature over a message (R470, R471): the private key never leaves the die. -/
opaque deviceSign : List Byte → List Byte

/-- The device public key that MN derives at management stage 1 (R470). -/
opaque devicePublicKey : List Byte

/-- The operator public key whose SHA-512 a record's section 0x07 names (R465, R506): a manifest or an overlay carries no key. -/
opaque operatorKey : BitVec 512 → List Byte

/-- The SHA-512 of the vendor key, held in MN's mask ROM (R466). -/
opaque vendorKeyHash : BitVec 512

/-- A fresh monitor challenge (R552). -/
opaque challenge : Nat → BitVec 256

/-- Palzin's manufacturer identity in the TAP's IDCODE (R550): not stated. -/
opaque manufacturerId : BitVec 11

/-- The mask-ROM version reported before a record verifies (R553): not stated. -/
opaque maskRomVersion : BitVec 32

/-- The panel's own data set in the best master clock comparison (R334): not stated. -/
opaque ptpOwn : PtpClock

/-- Nanoseconds between the messages that a PTP port sends of its own accord (R334): 0 Announce, 1 Sync, 2 Delay_Req, 3 Pdelay_Req; 0: none.
Not stated. -/
opaque ptpInterval : Nat → Nat

/-- Type-specific header bytes 20 to 31 of a packet type for which the spec names fields but not their places (R243). -/
opaque typeBits : PktBody → Nat

/-- Payload of the step messages whose bytes the spec does not give (R158). -/
opaque stepBytes : StepMsg → List Byte

/-- The `CHECK` byte of a sideband header (R240): a (64,56) SECDED code that the spec does not give. -/
opaque sidebandCheck : Nat → Nat

/-- Size, in 64-byte units less one, of a read-out space whose layout the spec does not give (R548), by unit kind, number and space. -/
opaque roUnits : Nat → Nat → Nat → Nat

end Config

end Sys2Proof
end

