-- ==== Sys2Proof/Regs.lean ====
section
/-! DEFINITION. The names of the BAR0 registers and the shape of a register field. -/

namespace Sys2Proof

/-- The access codes of R18. -/
inductive Access where
  | ro | rw | w1c | wo | rw1s
  deriving DecidableEq, Repr

/-- The Reset column of a register table (R19): a number; `cfg`, loaded from the configuration record; or the two index-dependent
forms of `TM_RGN_n` (R171). -/
inductive ResetVal where
  | const (n : Nat)
  | cfg
  | rgn (n0 n15 : Nat)
  | owner
  deriving DecidableEq, Repr

/-- A BAR0 register, by its name in the register tables. -/
inductive Reg where
  | arrFlags
  | tmRgn
  | tmCtr
  | tmCtrSat
  | tmErrCnt
  | tmErrLog
  | tmErrThresh
  | tmDeny
  | pckTblDesc
  | pckTblCmd
  | hubCfg
  | hubState
  | hubErrCnt
  | hubErrCnt2
  | hubErrLog
  | hubErrTime
  | hubHits
  | hubMisses
  | hubPfUsed
  | hubPfWasted
  | hubTemp
  | fabCfg
  | fabArb
  | fabState
  | fabMaskSite
  | fabMaskLink
  | fabSite
  | fabGrpStage
  | fabGrpCmd
  | fabPin
  | fabRtrCnt
  | chCfg
  | chEp
  | chEpState
  | chEpCnt
  | admCfg
  | admSrc
  | admTotal
  | admLimit
  | admRefused
  | admShape
  | fldCfg
  | fldConc
  | fldConcStat
  | fldSeqEpoch
  | fldPort
  | fldMac
  | fldPortStat
  | fldPortCnt
  | fldSptCnt
  | fldStrm
  | fldFifo
  | fldFifoStat
  | fldErr
  | fldTgt
  | fldTgt2
  | fldSptBind
  | fldKeyStage
  | fldKeyCmd
  | fldKeyId
  | fldIn
  | fldInSeq
  | fldInCnt
  | lnkCfg
  | lnkPort
  | lnkStat
  | lnkLane
  | lnkCnt
  | lnkCnt2
  | lnkRoute
  | lnkBind
  | lnkIn
  | clkCfg
  | clkStat
  | clkTime
  | clkTimeFrac
  | clkSet
  | clkCmd
  | clkUtc
  | clkLeap
  | clkPpsInTs
  | clkMarginCfg
  | clkIsl
  | clkMargin
  | hifCfg
  | hifStat
  | hifErr
  | rngDbBase
  | rngDbCfg
  | rngEvtBase
  | rngEvtCfg
  | rngEvtStat
  | rngFrxBase
  | rngFrxCfg
  | rngSqBase
  | rngSqCfg
  | rngSqStat
  | rngCqBase
  | rngCqCfg
  | rngCqStat
  | prtMap
  | prtCmd
  | prtStat
  | prtHalf
  | idnPart
  | idnSerial
  | idnVer
  | idnOvl
  | idnState
  | idnCause
  | idnStage
  | idnKeyFp
  | prtArrRst
  | prtPackRst
  | prtPanelRst
  | fltCfg
  | fltFence
  | fltSwap
  | fltPackCmd
  | fltPackDark
  | fltBackup
  | fltFwCmd
  | fltFwStat
  | fltReserve
  | fltRestore
  | fltRestoreMask
  | fltHealth
  | pwrCfg
  | pwrStat
  | pwrIn
  | pwrAlert
  | pwrAlertMask
  | pwrPack
  | pwrPackStat
  | thmCfg
  | thmCool
  | thmTile
  | thmRaw
  | thmHub
  | monSitCmd
  | monSitStat
  | monSitCfg
  | monRoBase
  | monRoLen
  | monRoSel
  | monRoCmd
  | monRoStat
  deriving DecidableEq, Repr

/-- A register field: the register that holds it, its lowest bit and width, its access code and reset, and the least and greatest
encoding that is not reserved (R20). `id` numbers the fields and keys the store that holds them. -/
structure Fld where
  id : Nat
  reg : Reg
  lo : Nat
  w : Nat
  acc : Access
  reset : ResetVal
  min : Nat := 0
  max : Nat := 0xFFFFFFFFFFFFFFFF
  deriving DecidableEq, Repr

end Sys2Proof
end

