-- ==== Sys2Proof/Machine/State.lean ====
section
/-! DEFINITION. The state of the panel as plain data, the reasons a command may stop, and the state after whole-panel reset.
Every register of BAR0 lives in `State.regs`, one entry for each field (Machine/RegTable.lean names the fields); everything
the spec gives the machine beside its registers has a field below. An unlisted key of a sparse store reads as the value that
the field's comment gives. -/

namespace Sys2Proof.Machine

/-! ### Arrays (chapters 2 and 3) -/

/-- Format tag of an accumulator half (R558). -/
inductive AccTag where | fp32 | int32 | fp64
  deriving DecidableEq, Repr

/-- One accumulator half (R52, R558): its tag and its rows of 256 entries by row number; an unlisted row is +0 throughout. -/
structure AccHalf where
  tag : AccTag := .fp32
  rows : NMap (List Nat) := []
  deriving DecidableEq, Repr

/-- Class of a weight tile (R56, R122). -/
inductive WClass where | c4 | c8 | c16 | c32 | c64
  deriving DecidableEq, Repr

/-- A weight tile in the active or the shadow registers (R52, R58, R90 to R96): for each dense K position the 256 stored values, an
absent value at the positions that sparse metadata does not name (R93), the scale bytes by 32-row block and column, and the
finiteness record of R96. -/
structure WTile where
  fmt : Nat := 0
  cls : WClass := .c8
  rows : List (List (Option Nat)) := []
  scale : List (List Nat) := []
  metaBad : Bool := false        -- metadata that breaks R92
  loading : Bool := false
  finite : List Bool := []
  deriving DecidableEq, Repr

/-- The gate unit's running counts (R104, R106): by expert, unlisted 0. -/
structure GateCounts where
  slots : NMap Nat := []
  overs : NMap Nat := []
  nonfinite : Nat := 0
  dropped : Nat := 0
  deriving DecidableEq, Repr

/-- The unit that executes a record (R110). -/
inductive RUnit where | matrix | vector | gate | mover | fabric | control
  deriving DecidableEq, Repr

/-- What a record in flight still waits for. -/
inductive Await where
  | start                                          -- in its unit's queue, not yet started
  | nothing                                        -- its work is done
  | replies                                        -- acknowledgements (R149)
  | shadowLoad                                     -- a WEIGHT load whose tile is on its way (R58)
  | counter (ctr target timeout : Nat) (consume : Bool)
  | fence
  | answer (ep : Nat)                              -- a SEND whose item is unanswered or blocked (R282, R292)
  | item (ep : Nat)                                -- a RECV (R284, R304)
  | token                                          -- a COMMIT's claim (R153)
  | gather (gid : Nat)
  | reduce (group : Nat)
  deriving DecidableEq, Repr

/-- An expert that a DISPATCH SEND writes to (R140, R141). -/
structure ExpertDest where
  array : Nat := 0
  ctr : Nat := 0
  addr : Nat := 0                -- of the count word
  rows : Nat := 0
  waiting : Nat := 0             -- row and tag packets not yet answered
  refused : Bool := false
  counted : Bool := false        -- its count word has been sent
  deriving DecidableEq, Repr

/-- A record in flight (R111, R148, R149). -/
structure Flight where
  n : Nat := 0
  addr : Nat := 0
  tag : Nat := 0
  record : Record := 0
  unit : RUnit := .control
  doneCtr : Option Nat := none
  fabric : Bool := false
  reads : List (Nat × Nat) := []
  writes : List (Nat × Nat) := []
  accR : List Nat := []
  accW : List Nat := []
  out : List Nat := []           -- request tags not yet answered
  await : Await := .nothing
  status : Nat := 0              -- step status of R160; 0 while nothing has failed
  drop : Nat := 0                -- slots a DISPATCH SEND did not send (R141)
  dropAt : Nat := 0              -- its `DROPS`, 0 once counted
  experts : List ExpertDest := []
  granted : Bool := false        -- a COMMIT whose token is granted or that needs none (R161)
  gaps : List Nat := []          -- pruned multicast members (R265)
  copies : Nat := 0              -- multicast copies asked for
  deriving DecidableEq, Repr

/-- A step that a member runs (R158). -/
structure StepRun where
  leader : Nat := 0
  serial : Nat := 0
  id : Nat := 0
  attempt : Nat := 0
  deadline : Nat := 0
  next : Nat := 0                -- address of the next record (R110)
  fetched : Nat := 0             -- records fetched (R112)
  issued : Nat := 0
  issuing : Bool := true
  cancelled : Bool := false
  granted : List Nat := []       -- addresses of COMMITs whose token was granted, or that needed none (R161)
  commitLast : Bool := false     -- cancelled during a COMMIT that END follows (R161)
  failed : Option (Nat × Nat × Nat) := none    -- status, TAG and record address of the first failure (R151)
  superseded : Bool := false
  deriving DecidableEq, Repr

/-- What one array holds outside its scratchpad (R52, R53, R110, R111). -/
structure ArrayState where
  accA : AccHalf := {}
  accB : AccHalf := {}
  active : Option WTile := none
  shadow : Option WTile := none
  shadowFresh : Bool := false    -- a loaded tile that no swap has made active (R122)
  gate : GateCounts := {}
  run : Option StepRun := none
  flights : List Flight := []    -- program order
  member : Option (Nat × Nat) := none    -- leader and serial of the running region it belongs to (R157)
  deriving DecidableEq, Repr

/-- A first-wins token slot that is not empty (R153). -/
structure Token where
  serial : Nat := 0
  id : Nat := 0
  leader : Nat := 0
  attempt : Nat := 0
  deriving DecidableEq, Repr

/-- An entry of a step table (R156). -/
structure StepEntry where
  entry : Nat := 0
  deadline : Nat := 0
  ctrClear : Nat := 0
  trigCtr : Nat := 0
  trigEn : Bool := false
  trigCount : Nat := 0
  backupPct : Nat := 0
  standby : Nat := 0
  standbyEn : Bool := false
  deriving DecidableEq, Repr

/-- Where a running region's leader stands (R159, R493, R500). -/
inductive RPhase where
  | trigger                      -- before an entry, waiting for its trigger
  | running                      -- the attempt's outcome is open
  | draining                     -- failed: collecting survivors' reports
  | held (rerun : Bool)          -- the next step-start is held: a re-run, or the next entry
  | standby                      -- running a primary's step
  deriving DecidableEq, Repr

/-- A settled outcome, as the report block gives it (R155). -/
structure StepResult where
  id : Nat := 0
  attempt : Nat := 0
  status : Nat := 0
  tag : Nat := 0
  addr : Nat := 0
  member : Nat := 0x1FF
  deriving DecidableEq, Repr

/-- A running region, kept under its leader's number (R153 to R159). -/
structure Region where
  serial : Nat := 0
  members : Nat := 0             -- bit a set: array a is a member
  table : List StepEntry := []   -- as MN read it at the start
  loop : Bool := false
  report : Nat := 0
  legacy : List CapEntry := []
  descr : Nat × Nat × Nat := (0, 0, 0)     -- port, ring, descriptor number of the start
  entry : Nat := 0
  stepId : Nat := 0
  attempt : Nat := 0
  deadline : Nat := 0
  phase : RPhase := .trigger
  reported : NMap Nat := []      -- member's report status
  committed : List Nat := []     -- ranks whose standby counterpart committed
  lost : List Nat := []          -- members fenced, in reset or unreachable in this attempt
  outcome : StepResult := {}     -- of the attempt that is draining
  last : StepResult := {}
  fencedOpen : List Nat := []    -- fenced members whose closing notice has not come (R490)
  resetting : List Nat := []     -- members whose reset has not completed (R475)
  unsafeSub : Bool := false      -- a member was substituted without a safe restore during the attempt (R490)
  vacant : Bool := false         -- a member is vacant
  backupAsked : Bool := false
  backupBusy : Bool := false     -- the standby leader has not ended the backup (R502)
  backupOf : Option (Nat × Nat × Nat × Nat) := none  -- primary leader, its serial, its step id and attempt
  backupBad : Bool := false      -- a standby member failed (R502)
  holds : List Nat := []         -- arrays whose swap or test holds the next step-start (R493, R495)
  stopBy : List (Nat × Nat × Nat) := []
  stepsOk : Nat := 0
  reruns : Nat := 0
  backups : Nat := 0
  deriving DecidableEq, Repr

/-! ### Channels (chapter 7) -/

/-- An item in a hardware queue (R281, R283). -/
structure Item where
  data : List Byte := []
  src : Nat := 0
  epoch : Nat := 0
  spilled : Bool := false
  host : Bool := false
  bad : Bool := false            -- refilled from an uncorrectable spilled word (R307)
  deriving DecidableEq, Repr

/-- An item sent and not yet answered, or refused and held (R282, R292). -/
structure OutItem where
  data : List Byte := []
  flight : Nat := 0
  rtag : Nat := 0
  since : Option Nat := none     -- panel time of the first refusal
  suspect : Bool := false
  deriving DecidableEq, Repr

/-- What an endpoint holds beside its registers. -/
structure Ep where
  queue : List Item := []
  order : Nat := 0               -- items spilled since the last open (R289)
  wasOpen : Bool := false        -- closed from the open state by a reset (R295)
  refused : List (Nat × Nat) := []     -- senders answered refused-full (R292)
  peerEpoch : Nat := 0           -- the reader's epoch as a sender knows it
  queried : Bool := false        -- an epoch query is unanswered (R295)
  outs : List OutItem := []
  expected : NMap Nat := []      -- combining: by token slot (R301)
  arrived : NMap Nat := []
  deriving DecidableEq, Repr

/-! ### Hubs and tables (chapter 5) -/

/-- A table descriptor (R204). -/
structure TableDesc where
  handle : Nat := 0
  fmt : Nat := 1
  mirror : Bool := false
  cclass : Nat := 0
  fetchDis : Bool := false
  elems : Nat := 8
  rowStride : Nat := 1
  mirrorDist : Nat := 0
  homeMask : Nat := 0
  rowsPerPack : Nat := 1
  totalRows : Nat := 0
  segBase : Nat := 0
  cbOff : Nat := 0
  segUnits : Nat := 0
  mirrorBase : Nat := 0
  reserved : Nat := 0
  deriving DecidableEq, Repr

/-- State of a mirrored segment (R226, R227, R230). -/
structure Seg where
  promoted : Bool := false
  unmirrored : Bool := false
  resyncing : Bool := false      -- home copy being rebuilt from the mirror
  rebuilding : Bool := false     -- mirror copy being rebuilt from the home
  resynced : Bool := false       -- a resync of its home pack has completed
  behind : Bool := false         -- a table write since then went to the mirror copy only
  was : Bool := false            -- promoted before the resync under way
  lost : Bool := false
  deriving DecidableEq, Repr

/-- A pending table command (R208, R210). -/
structure TblCmd where
  op : Nat := 0
  desc : TableDesc := {}
  pack : Nat := 0
  before : List Nat := []        -- gathers in progress that finish first
  effected : Bool := false       -- an `OP` 6 whose stack is training (R229)
  deriving DecidableEq, Repr

/-- A hub cache line (R203, R220, R221, R224). -/
structure CacheLine where
  granule : Nat := 0
  flips : NMap Nat := []         -- wrong bits of its 64-bit words with their check bits, by word; unlisted: none
  rrpv : Nat := 0
  prefetched : Bool := false
  hint : Bool := false
  codebook : Bool := false
  deriving DecidableEq, Repr

/-- A fetch unit in use (R223, R224). -/
structure FetchUnit where
  handle : Nat := 0
  row : Nat := 0
  stride : Int := 1
  dist : Nat := 4
  hint : Bool := false
  used : Nat := 0
  deriving DecidableEq, Repr

/-- A bag's partial sum as a hub sent it (R216, R217). -/
structure Part where
  tag : Nat := 0                 -- first tag of the node it covers
  own : Bool := false            -- a hub's own sum, for the tag alone
  bag : Nat := 0
  count : Nat := 0
  vals : List Nat := []
  deriving DecidableEq, Repr

/-- A gather in progress (R132, R217, R269). -/
structure Gather where
  array : Nat := 0
  flight : Nat := 0
  table : Nat := 0
  nbags : Nat := 0
  pool : Nat := 0
  ccw : Nat := 0
  seed : Nat := 0
  packs : Nat := 0
  dst : GAddr := {}
  dstStride : Nat := 0
  list : List (Nat × Nat × Nat) := []    -- row, bag, weight
  reserved : Nat := 0            -- bit p: hub p has reserved
  parts : List Part := []
  failed : List (Nat × Nat) := []        -- hub, status
  got : NMap Nat := []           -- list chunks received, by hub
  pooled : List Nat := []        -- hubs that have pooled their rows
  sent : NMap Nat := []          -- bags whose node value has been sent up, by tag
  credits : NMap Nat := []       -- bag credits that a tag's node holds; unlisted: the window of 4
  entered : Bool := false        -- its GATHER_RESERVE has reached the first hub (R210)
  bagsDone : Nat := 0            -- bags acknowledged at `DST`
  rtag : Nat := 0                -- of its GATHER_RESERVE
  deriving DecidableEq, Repr

/-- A round of a reduction group (R136, R266 to R270). -/
structure RedRound where
  op : Nat := 0
  contrib : NMap (List Nat) := []        -- member's contribution, 32-bit elements
  params : NMap (GAddr × Nat × Nat × Nat) := []   -- member: DST, OP, LEN, EXPECT
  flights : NMap Nat := []
  sent : NMap Nat := []                  -- chunks a member has sent toward its leader
  credits : NMap Nat := []
  lost : List Nat := []                  -- members whose contribution is lost (R270)
  gone : List Nat := []                  -- members fenced during the round
  parts : List (Nat × Nat × Nat × List Nat) := []   -- level range low, high, chunk, value
  serial : Nat := 0                      -- tells its packets from those of other rounds
  differs : Bool := false                -- a leader found a child's parameters to differ from its own (R136)
  deriving DecidableEq, Repr

/-! ### Fabric (chapter 6) -/

/-- A request without its reply (R260). -/
structure Req where
  src : Endpoint := .broadcast
  array : Nat := 0
  flight : Nat := 0
  pkt : Packet := {}
  loc : Nat := 0                 -- local or host address that read data goes to
  expert : Nat := 0              -- DISPATCH SEND: 1 + expert the row goes to
  descr : Option (Nat × Nat × Nat) := none
  fifo : Option (Nat × Nat) := none
  retried : Bool := false
  deriving DecidableEq, Repr

/-- One direction of a mesh link, or of the link from an attached unit, kept at its receiving port (R246, R261). -/
structure Wire where
  fly : List Flit := []          -- sent and not yet accepted, oldest first
  sent : List Flit := []         -- replay buffer: the last 16 sent, newest first
  fails : Nat := 0               -- failed replays of the oldest one on its way
  deriving DecidableEq, Repr

/-- The packet whose head has left an input VC: the output and output VC that its body follows (R247, R254). -/
structure Lock where
  out : Nat := 0
  vc : Nat := 0
  pkt : Packet := {}
  deriving DecidableEq, Repr

/-- Where an output port's arbitration stands (R247). -/
structure OutArb where
  tc0 : Nat := 1                 -- the TC0 VC granted last
  cls : Nat := 3                 -- class whose turn it is; TC1 follows it
  left : Nat := 0                -- flits that its deficit still covers
  reply : NMap Nat := []         -- by class: 1 when a reply VC was granted last
  escape : NMap Nat := []        -- by class × 2 + kind: 1 when the escape VC was granted last
  input : NMap Nat := []         -- by output VC: 1 + input granted last
  deriving DecidableEq, Repr

/-- Flits in the mesh (R246, R247, R261). A port is site × 6 + 0 N, 1 E, 2 S, 3 W, 4 T, 5 X. -/
structure Mesh where
  bufs : NMap (List Flit) := []  -- input buffers with their crossing FIFOs, key port × 14 + VC
  locks : NMap Lock := []        -- key as `bufs`
  wires : NMap Wire := []        -- by receiving port
  arbs : NMap OutArb := []       -- by output port
  eject : NMap (List Flit) := [] -- at their destination router's port to the unit, by site
  deaf : List (Nat × Packet) := [] -- routers that have absorbed their copy of a broadcast (R318)
  deriving DecidableEq, Repr

/-- A drain-then-change in progress (R275, R276). -/
structure FabChange where
  scope : Nat := 0               -- 0 to 63 a pack; 64 the escape VC; 100 + g a multicast group; 10000 + g a reduction group
  step : Nat := 1                -- next of Steps 1 to 6
  op : Nat := 0                  -- of a group change
  mask : Nat := 0
  array : Nat := 0               -- of a site change
  site : Nat := 0                -- its new site
  vacant : Bool := false
  resFailed : Bool := false      -- the reserve failed its run
  drained : List Nat := []       -- routers that have answered
  deriving DecidableEq, Repr

/-! ### Field ports (chapter 9) -/

/-- An ingest item: the header word of R340 without the fields computed on reading, and its data. -/
structure Ingest where
  rxTime : Nat := 0
  tagTime : Nat := 0
  kind : Nat := 0
  port : Nat := 0
  unsynced : Bool := false
  stream : Nat := 0
  dropped : Nat := 0
  ident : Nat := 0
  sub : Nat := 0
  aux : Nat := 0
  vlan : Nat := 0
  srcMac : Nat := 0
  srcIp : Nat := 0
  data : List Byte := []
  flips : NMap Nat := []         -- flipped bits of a 64-bit word with its 8 check bits, by word of the item; unlisted: none (R339, R346)
  deriving DecidableEq, Repr

/-- An ingest FIFO (R339, R345). -/
structure Fifo where
  items : List Ingest := []
  seq : Nat := 0                       -- `SEQ` of the next item read
  gap : Option (Nat × Nat) := none     -- drops and panel time of the first
  deriving DecidableEq, Repr

/-- A queued setpoint (R352, R356). -/
structure Spt where
  deadline : Nat := 0
  target : Nat := 0
  asset : Nat := 0
  payload : List Byte := []
  order : Nat := 0
  deriving DecidableEq, Repr

/-- A frame that a port sends (R356). -/
inductive TxFrame where
  | setpoint (bytes : List Byte)                     -- the whole frame of R354, FCS excluded
  | ptp (kind : Nat)             -- 0 Announce, 1 Sync, 2 Delay_Req, 3 Pdelay_Req, 4 Delay_Resp, 5 Pdelay_Resp
  | arpReply (toMac toIp fromIp : Nat)
  | echoReply (toMac toIp fromIp : Nat) (data : List Byte)
  | c37Command (toMac toIp toUdp idcode : Nat)       -- asks for configuration frame 2 (R348)
  | snapshot (bytes : List Byte)                     -- the whole frame of R350, FCS excluded
  | host (bytes : List Byte) (descr : Nat × Nat × Nat)
  deriving DecidableEq, Repr

/-- A field port's queues (R356, R357). -/
structure FPort where
  setpoints : List Spt := []
  ptp : List Nat := []
  replies : List TxFrame := []
  snaps : List (List Byte) := []
  hostTx : List (List Byte × (Nat × Nat × Nat)) := []
  hostNext : Bool := false       -- alternation of R356
  wire : Option TxFrame := none        -- on the wire
  ahead : Option TxFrame := none       -- selected, to leave when the wire is free
  accepted : Nat := 0
  lastTx : Option Nat := none    -- transmit timestamp of the last frame sent (R333)
  heard : Option PtpClock := none      -- best clock that an announce has brought to the port (R334)
  deriving DecidableEq, Repr

/-- A snapshot block of one stream (R349, R350). -/
structure ConcBlock where
  stream : Nat := 0
  die : Nat := 0
  kind : Nat := 0
  state : Nat := 0
  data : List Byte := []
  deriving DecidableEq, Repr

/-- A field die beside its registers. -/
structure FieldState where
  fifos : NMap Fifo := []
  ports : NMap FPort := []
  keys : NMap (List Byte) := []        -- key slots that hold a key, d × 64 + k
  stage : NMap Nat := []               -- staged key words, d × 8 + w
  tgtCount : NMap Nat := []            -- datagrams built, d × 1024 + t (R355)
  inCount : NMap Nat := []             -- deliveries, d × 64 + i (R359)
  conc : NMap (List ConcBlock) := []   -- items collected for snapshot T, T × 2 + die
  closed : NMap Nat := []              -- by die: last snapshot closed
  parts : NMap (List ConcBlock) := []  -- closed parts, T × 2 + die
  svMax : NMap Nat := []               -- largest smpCnt of a learnt stream, d × 256 + m
  learnt : List Nat := []              -- learnt streams without a RATE_BASE
  deriving DecidableEq, Repr

/-! ### Links (chapter 10) -/

/-- A link port beside its registers (R369, R370, R377, R387). -/
structure LinkPort where
  txq : List SpanPkt := []             -- packets waiting for the port
  held : List (SpanPkt × Bool) := []   -- held for a retraining primary (R377); true: its words are in the receive buffer
  arrived : List (SpanPkt × Bool) := []    -- delivered on this panel, not yet acted on
  turn : Nat := 1                      -- class whose turn it is (R366)
  deficit : NMap Nat := []
  quiescing : Bool := false            -- it has sent a quiesce word (R387)
  sent : NMap Nat := []                -- words sent by LVC
  rcvd : NMap Nat := []                -- words received by LVC
  freed : NMap Nat := []               -- words freed by LVC, received side
  credited : NMap Nat := []            -- peer's freed words by LVC
  unreported : Bool := false
  failover : Bool := false             -- FAILOVER_US has passed since the port entered RETRAIN
  peerQuiesced : Bool := false
  ackRcvd : Bool := false
  probe : Nat := 0                     -- time of the last probe received
  peer : Option Identity := none
  deriving DecidableEq, Repr

/-- An export in progress at its source link die (R381 to R383). -/
structure Export where
  die : Nat := 0
  item : Packet := {}                  -- the CHANNEL_ITEM that carries its descriptor, unanswered
  array : Nat := 0
  src : Nat := 0
  len : Nat := 0
  dstPanel : Nat := 0
  dstArray : Nat := 0
  dstOff : Nat := 0
  ctr : Nat := 0
  ctrEn : Bool := false
  open_ : List Nat := []               -- chunks not answered
  sent : List Nat := []                -- chunks that have left the die
  pieces : NMap (List Byte) := []      -- data read, by chunk × 4096 + position
  firstFail : Nat := 0
  deriving DecidableEq, Repr

structure LinkState where
  ports : NMap LinkPort := []
  exports : NMap Export := []          -- by XID
  nextXid : Nat := 0
  inCount : NMap Nat := []             -- deliveries, d × 64 + i (R384)
  sitKeys : NMap (List (Nat × Nat × Nat)) := []   -- by die: the last 16 of R545
  tc0Held : NMap (List (Nat × Nat)) := []   -- by die: LVC and words of each message that waits for tokens (R391)
  accepting : Bool := true             -- false from Step 1 of R387
  spanSits : Nat := 0                  -- sits originated (R544)
  chunkWait : NMap SpanPkt := []       -- by request tag of its local WRITE: the chunk to answer
  deriving DecidableEq, Repr

/-! ### Clocks and time (chapter 11) -/

/-- An island's time keeping and clock (R394, R399 to R413, R519). -/
structure Island where
  running : Bool := true
  cc : Nat := 0
  sc : Nat := 0
  latched : List (Nat × Nat) := []     -- marker and E, newest first, at most four (R408)
  anchorE : Int := 0
  anchorT : Rat := 0
  rate : Rat := 0                      -- g, ns per unit of E; 0 before the first estimate
  prev : Option (Rat × Int) := none    -- m_prev, e_prev (R409)
  absorb : Rat := 0                    -- backward difference to absorb at half rate
  absorbE : Int := 0                   -- E at which that began
  missedRun : Nat := 0
  goodRun : Nat := 0
  spineT : Rat := 0                    -- T_k + d_i of spine mode (R411)
  freq : Nat := 0                      -- set frequency in units of 25 MHz; 0: nominal of R394
  window : Nat := 0                    -- length of the present stretch window, in 1/64 of the set period (R400)
  longWin : Bool := false              -- that window is counted as a sustained droop
  slack : Rat := 0                     -- how far its time is ahead of the time of its mode, to absorb at half rate (R412)
  slackAt : Rat := 0                   -- time of its mode at which that began
  switches : Nat := 0                  -- switches in either direction (R412)
  lastBeacon : Nat := 0                -- 1 + marker of the last beacon received
  err : Nat := 0                       -- |e| of the last correction, in units of 0.25 ns
  spinePeriod : Nat := 0x40000000      -- last `SPINE_PERIOD` received
  deriving DecidableEq, Repr

structure TimeState where
  ns : Nat := 0                        -- panel time at MN (R406)
  frac : Nat := 0                      -- in units of 2^-28 ns
  period : Nat := 0x40000000           -- SPINE_PERIOD (R407)
  marker : Nat := 0
  stepAt : Option (Nat × Nat) := none  -- pending step to a time: its marker, the time (R416)
  stepBy : Option Int := none          -- pending step by a difference, at the next marker
  stepFlag : Bool := false             -- a step took effect at the last marker
  beaconSent : Nat := 0                -- 1 + marker of the last beacon broadcast
  everSet : Bool := false
  master : Bool := false               -- a PTP master is elected
  offsetOk : Bool := false             -- the last measured offset is at most 100 ns
  lockedFor : Nat := 0                 -- markers for which it has been so
  slews : List (Nat × Nat) := []       -- changes of `SPINE_PERIOD` in the last millisecond: marker, amount
  lastPps : Option Nat := none
  ppsUntil : Nat := 0                  -- panel time at which `PPS_OUT` falls
  refOk : Bool := true                 -- `REF10M_IN` is valid (R404)
  islands : NMap Island := []
  deriving DecidableEq, Repr

/-! ### Host ports (chapter 12) -/

/-- Progress of a fetched descriptor. -/
inductive DState where | fetched | running | done
  deriving DecidableEq, Repr

/-- A fetched descriptor that has not completed (R432, R440). -/
structure FDescr where
  port : Nat := 0
  sq : Nat := 0
  k : Nat := 0
  d : Descr := {}
  st : DState := .fetched
  rtags : List Nat := []
  moved : Nat := 0
  status : Nat := 0
  detail : Nat := 0
  discard : Bool := false              -- its host writes are discarded (R444)
  copies : Nat := 0                    -- multicast copies asked for
  pruned : List Nat := []              -- multicast members that were refused (R265)
  after : List (Nat × Nat × Nat) := [] -- stops that complete after this start (R436)
  deriving DecidableEq, Repr

/-- A completion entry (R438). -/
structure CEntry where
  userTag : Nat := 0
  sq : Nat := 0
  slot : Nat := 0
  status : Nat := 0
  detail : Nat := 0
  value0 : Nat := 0
  value1 : Nat := 0
  time : Nat := 0
  deriving DecidableEq, Repr

/-- An event record (R441). -/
structure EvRec where
  kind : Nat := 0
  code : Nat := 0
  seq : Nat := 0
  time : Nat := 0
  unit : UnitId := {}
  lost : Nat := 0
  count : Nat := 1
  detail : List (Nat × Nat) := []      -- byte offset in the record and value
  deriving DecidableEq, Repr

/-- A host port beside its registers. -/
structure HostPort where
  linkUp : Bool := false
  busMaster : Bool := false
  d3hot : Bool := false
  polling : Bool := false              -- a page read is in flight (R429)
  prod : NMap Nat := []                -- SQ_PROD_s last received
  cqHead : NMap Nat := []
  held : NMap (List (Nat × CEntry)) := []  -- completion entries not yet written, each with its descriptor's number
  unsignalled : NMap Nat := []
  lastServed : Nat := 0
  msix : NMap Nat := []                -- MSI-X table, vector × 4 + dword; unlisted: 0, and dword 3 has its mask bit set (R443)
  msixPend : List Nat := []            -- pending bits
  deriving DecidableEq, Repr

structure HostState where
  ports : NMap HostPort := []
  descrs : List FDescr := []
  evHeld : List EvRec := []
  evSeq : Nat := 0
  evHead : Nat := 0
  evLost : Nat := 0                    -- records lost since the last one written
  evUnsignalled : Nat := 0
  frxProd : Nat := 0
  frxHead : Nat := 0
  frxUnsignalled : Nat := 0
  teleBusy : NMap Nat := []            -- µs that arrays of a pack were busy since its last telemetry record (R442)
  teleWins : NMap Nat := []            -- stretch windows of a pack at that record
  teleBg : Nat := 0                    -- background flits over mesh links since the last panel record (R533)
  deriving DecidableEq, Repr

/-! ### Power-up, bring-up and reset (chapter 13) -/

/-- A reset request below whole panel (R472, R477): level 0 array, 1 pack, 2 partition, 3 half. -/
structure ResetReq where
  level : Nat := 0
  num : Nat := 0
  arrays : List Nat := []
  packs : List Nat := []
  merged : List (Nat × Nat) := []      -- level and number of requests that complete with it
  joined : List (Nat × Nat) := []      -- of the monitor's requests merged into it, which are answered with 3 (R477, R553)
  deriving DecidableEq, Repr

structure BootState where
  seams : NMap SeamTest := []          -- by column: what this bring-up found of the seam link's wires, which fixes its steering (R31, R235)
  seamOut : List Nat := []             -- columns whose seam link failed at this bring-up (R32)
  inputOk : Bool := true               -- the 50 V input is inside its limits
  converting : Bool := true
  busesUp : Bool := true
  resetNLow : Bool := false
  cfgFailed : Bool := false
  mnFailed : Bool := false
  packRails : List Nat := []           -- packs whose rails are up, when not all are
  railsDone : Bool := true
  recA : Option ConfigRecord := none
  recB : Option ConfigRecord := none
  overlay : Option ConfigRecord := none
  record : Option ConfigRecord := none -- in use
  floor : Nat := 0                     -- rollback floor (R467)
  floorOk : Bool := true
  seqEpoch : Nat := 0                  -- SEQ_EPOCH kept in flash (R355)
  seqEpochOk : Bool := true
  resets : List ResetReq := []         -- draining
  deferred : List ResetReq := []       -- requested during sit (R477)
  panelReset : Bool := false           -- a whole-panel reset awaits the link quiesce (R387)
  pendingCause : ResetCause := .powerUp
  halfStopped : List Nat := []         -- islands stopped for `PRT_HALF` (R479)
  halfLater : Option Bool := none      -- a stop (true) or start of the south half requested during sit (R479)
  knownDone : List Nat := []
  suspects : List Nat := []
  deriving DecidableEq, Repr

/-! ### Faults, spares, firmware (chapter 14) -/

/-- A substitution in progress or waiting (R488, R492, R493). -/
structure Subst where
  array : Nat := 0
  reason : Nat := 0
  swap : Bool := false
  copy : Bool := false
  deriving DecidableEq, Repr

structure FirmState where
  manifest : Option Manifest := none
  chunks : NMap (List Byte) := []
  missing : NMap Nat := []             -- unit: chunks it lacks
  highest : NMap Nat := []             -- by kind: highest version activated (R507)
  running : NMap Nat := []             -- by kind: version running
  images : NMap (List Byte) := []      -- by kind: image in MN's flash
  deriving DecidableEq, Repr

structure FaultState where
  fenced : NMap Nat := []              -- array: reason (R483)
  stepFails : NMap Nat := []           -- consecutive attributed attempts (R485)
  attributed : List Nat := []          -- attempts that leaders have reported and MN has not counted (R485)
  toFence : List (Nat × Nat) := []     -- array and reason: reported, or waiting for its region's hold
  substs : List Subst := []
  restoreFailed : List Nat := []       -- arrays substituted without a safe restore (R490)
  tests : List (Nat × Nat) := []       -- units under an in-service neighbour test, with the row of R494
  retries : NMap Nat := []             -- pack retries since whole-panel reset (R497)
  failedFlash : NMap Nat := []         -- pack: failed positions recorded in flash (R491)
  mapFlash : NMap Nat := []            -- pack: 1 + SUB_K recorded in flash
  firm : FirmState := {}
  hubFenced : List Nat := []           -- hubs fenced under R510
  lowRaised : List Nat := []           -- units below HEALTH_WARN already reported (R505)
  barkLog : List EvRec := []           -- flash log, newest first (R533)
  chain : NMap ChainReport := []       -- last service-chain report of a pack (R494)
  chainHeld : List Nat := []           -- packs held at their floors while their chain is silent (R494)
  penFine : NMap Nat := []             -- points below 1/256 that a unit has gathered, in units of 1/65536 (R504)
  awaitKat : List Nat := []            -- sites of returning packs whose known-answer run is not done (R497)
  deriving DecidableEq, Repr

/-! ### Power and heat (chapter 15) -/

/-- The thermal model of one tile (R528). -/
structure Thermal where
  rs : Rat := 45 / 100
  rn : Rat := 5 / 100
  tau : Rat := 20
  deriving DecidableEq, Repr

structure PowerState where
  caps : NMap Nat := []                -- island × 8 + loop of R536: cap in units of 25 MHz; unlisted: no cap
  brakeAt : Nat := 0                   -- 1 + panel time at which the brake began (R516)
  packBrake : List Nat := []           -- packs whose hubs brake their array islands (R517)
  raisedAt : NMap Nat := []            -- pack: 1 + panel time at which its power cap last rose
  therm : NMap Thermal := []           -- by site; unlisted: the start values of R528
  coolMs : NMap Nat := []              -- unit: milliseconds for which its cap may rise (R527)
  stackCool : NMap Nat := []           -- pack: readings below `STACK_TARGET` − 3 °C in a row (R525)
  stackHot : List Nat := []            -- packs whose last stack reading was 120 °C or more
  coolDtMs : Nat := 0                  -- milliseconds for which the outlet has been too hot (R530)
  deriving DecidableEq, Repr

/-! ### Freeze, read-out, monitor (chapter 16) -/

structure SitState where
  pinLow : Bool := false
  latch : Bool := false
  all : Bool := false                  -- freeze-all asked by an active source
  pinAll : Bool := false
  told : List Nat := []                -- islands that have received the SIT broadcast
  stopped : List Nat := []             -- islands stopped at their safe edge
  raisedAt : Nat := 0
  spanOrigin : Nat := 0
  spanId : Nat := 0
  bySpan : Bool := false
  pendingRecs : List EvRec := []       -- records that freeze-all delays (R556)
  deriving DecidableEq, Repr

/-- The read-out cursor (R546). -/
structure RoState where
  next : Nat := 0                      -- records written so far in the stream
  running : Bool := false
  port : Nat := 0                      -- host port of the stream, as `GO` found it
  deriving DecidableEq, Repr

structure MonState where
  tapAddr : W64 := 0
  tdo : Nat := 0
  baud : Nat := 115200
  newBaud : Option Nat := none
  baudTrial : Bool := false            -- no valid line since the rate changed (R553)
  privileged : Bool := false
  chal : Option (BitVec 256) := none
  chalCount : Nat := 0
  chalAt : Nat := 0                    -- marker at which the challenge was issued
  authFails : Nat := 0
  authBlocked : Bool := false
  ro : RoState := {}
  deriving DecidableEq, Repr

/-! ### What leaves the panel -/

/-- An output: what a host, a neighbour, a cable or a pin sees. -/
inductive OutEv where
  | hostWrite (port addr : Nat) (bytes : List Byte) (ro : Bool := false)     -- `ro`: with Relaxed Ordering (R439)
  | hostRead (port addr len : Nat)
  | msix (port vec : Nat)
  | frame (port : Nat) (f : TxFrame)
  | span (port : Nat) (p : SpanPkt)
  | control (port sub : Nat) (vals : List Nat)      -- a control word of R368
  | sitWord (port : Nat) (w : SitWord)
  | lasers (port : Nat) (on : Bool)
  | reply (lines : List (String × List Nat))        -- a monitor reply: text and values
  | doe (port : Nat) (bytes : List Byte)
  deriving DecidableEq, Repr

structure Pins where
  pwrOk : Bool := true                 -- released (high)
  alertN : Bool := true                -- released (high)
  ppsOut : Bool := false
  deriving DecidableEq, Repr

/-! ### Stops -/

/-- Why a command may stop the machine with a fault. No meaning of this model raises one: every command of the table has an
effect on every state, so the type has the one constructor below, for a reader of the interface. -/
inductive Fault where
  /-- Raised by no command. Safe: nothing can be proved from a fault that never happens. -/
  | unreachable
  deriving DecidableEq, Repr

/-- Why a command may be refused. -/
inductive Refusal where
  /-- A command whose meaning is not written, by its mnemonic; raised by a refused arm of `exec`. Safe: the run stops. -/
  | notModelled (mnemonic : String)
  deriving DecidableEq, Repr

/-! ### The state -/

/-- The panel. -/
structure State where
  /-- Every register field of BAR0: key index × 1024 + field id; an unlisted field reads as its reset value (R18, R19). -/
  regs : NMap Nat := []
  /-- Scratchpad bytes, key site × 2^26 + bank × 2^20 + line × 64 + byte; an unlisted byte reads 0 (R162, R163, R176). -/
  mem : List Host.Cell := []
  /-- Flipped bits of a stored 64-bit word with its 8 check bits, keyed as the word's first byte / 8; unlisted: none (R178, R191). -/
  flips : NMap Nat := []
  /-- Last access-denied record, key array × 65536 + requester: panel time + 1, and denials since (R182). -/
  denyAt : NMap (Nat × Nat) := []
  /-- Arrays, by logical number; an unlisted array is as after array reset. -/
  arrays : NMap ArrayState := []
  /-- Token slots in use, key site × 64 + slot (R153). -/
  tokens : NMap Token := []
  /-- Running regions, by leader. -/
  regions : NMap Region := []
  /-- The last region serial given (R153). -/
  serial : Nat := 0
  /-- Endpoints, key array × 64 + endpoint. -/
  eps : NMap Ep := []
  /-- Stack bytes, key pack × 2^36 + pseudo-channel × 2^30 + place in it; an unlisted byte reads 0 (R198, R199). -/
  stack : List Host.Cell := []
  /-- Wrong symbols of a stored block (degree 0 to 34 and error value), keyed as the block's first byte / 64 (R200, R201). -/
  stackErr : NMap (List (Nat × Nat)) := []
  /-- Corrections that a stack's on-die ECC makes on a read of a block, keyed likewise; unlisted: none (R196). -/
  odecc : NMap Nat := []
  /-- Table directories, key pack × 2^16 + handle (R193, R204). -/
  dir : NMap TableDesc := []
  /-- MN's copy of every installed descriptor, by handle (R199). -/
  tables : NMap TableDesc := []
  /-- Mirrored segments, key handle × 64 + home pack (R227); unlisted: normal. -/
  segs : NMap Seg := []
  tblCmd : Option TblCmd := none
  /-- A resync under way: its pack (R230). -/
  resync : Option Nat := none
  /-- Cache lines, key pack × 2^20 + set × 32 + way (R220). -/
  cache : NMap CacheLine := []
  /-- Fetch units in use, key pack × 32 + unit (R223). -/
  fetch : NMap FetchUnit := []
  /-- The last two demand-miss rows of a table at a hub, key pack × 2^16 + handle. -/
  missed : NMap (List Nat) := []
  gathers : NMap Gather := []
  nextGather : Nat := 0
  /-- Reserves waiting at a hub for combining storage (R269). -/
  hubWait : NMap (List Nat) := []
  /-- Bytes of combining storage in use at a hub. -/
  hubUsed : NMap Nat := []
  /-- Packets that a unit has injected and no unit has yet received. -/
  net : List Packet := []
  /-- Requests without a reply, by request tag (R260). -/
  reqs : NMap Req := []
  nextTag : Nat := 1
  /-- Multicast and reduction group masks, unlisted empty (R264, R276). -/
  mcast : NMap Nat := []
  redGroups : NMap Nat := []
  rounds : NMap RedRound := []
  mesh : Mesh := {}
  /-- Links that a router has itself declared dead: router × 2048 + link (R272). -/
  localDead : List Nat := []
  /-- Dead sites and links that the installed escape table was computed for; none: the escape VC routes XY (R256). -/
  escTable : Option (Nat × Nat) := none
  /-- Drain-then-changes, the one under way first (R275). -/
  changes : List FabChange := []
  /-- The mask that MN holds: dead sites and dead links as bit masks (R271). -/
  mnMask : Nat × Nat := (0, 0)
  /-- Its generation, and the masks on their way to the routers, by generation. -/
  mnGen : Nat := 0
  maskSent : NMap (Nat × Nat) := []
  /-- Records limited in rate, key code × 65536 + unit: panel time + 1 of the last one, and occurrences since. -/
  rateAt : NMap (Nat × Nat) := []
  /-- Scopes under hold (R275). -/
  holds : List Nat := []
  /-- Token buckets, in units of 1/4096 flit, by source; unlisted: full (R320). -/
  buckets : NMap Nat := []
  /-- TC0 messages waiting for tokens, by source, with the tick at which each was produced (R320). -/
  tc0Wait : NMap (List (Nat × Packet)) := []
  /-- Ticks of 62.5 ns that admission has seen. -/
  ticks : Nat := 0
  field : FieldState := {}
  links : LinkState := {}
  time : TimeState := {}
  host : HostState := {}
  boot : BootState := {}
  faults : FaultState := {}
  power : PowerState := {}
  sit : SitState := {}
  mon : MonState := {}
  pins : Pins := {}
  /-- What has left the panel, newest first (the model's own field). -/
  outs : List OutEv := []
  /-- Counter of free values drawn (the model's own field). -/
  free : Nat := 0
  /-- Commands that wait, first in, first out. -/
  pending : List Instr := []
  deriving DecidableEq, Repr

/-- The configuration record that the model's flash holds after reset (log entry 2): an NG7216-A with the default site map (R11),
the TC0 budgets of R324, straight-through forwarding with the default pairs (R379), concentrator mode (R348) and the limit of R514. -/
def defaultRecord : ConfigRecord where
  recSeq := 1
  siteMap := some (List.replicate 64 8)
  spineDelays := some (List.replicate 1230 0)
  vendorKey := some []
  certificate := some ([], [])
  defaults :=
    [⟨0x41800, 4, 0x300400⟩, ⟨0x41804, 4, 0x080100⟩] ++
    (List.range 8).map (fun i => ⟨0x41808 + 4 * i, 4, 0x100200⟩) ++
    [⟨0x41828, 4, 0x100200⟩, ⟨0x4182C, 4, 0x100200⟩, ⟨0x60000, 8, 0x3C001E012C⟩, ⟨0x90000, 8, 0x0000640200C81FFF⟩,
     ⟨0xA0000, 8, 0x12690001⟩] ++
    (List.range 8).map (fun i => ⟨0x90100 + 8 * i, 8, 0x0000001000020001 + ((i + 4) % 8) * 0x4000⟩) ++
    (List.range 64).map (fun p => ⟨0x61000 + 8 * p, 8, 0x0000461E3C0F300C⟩)

/-- The panel right after a whole-panel reset (R476): every register at its reset value, every scratchpad and stack zero, bring-up
at its first phase, rails up, no command waiting. -/
def State.reset : State := { boot := { recA := some defaultRecord } }

end Sys2Proof.Machine
end

