-- ==== Sys2Proof/Machine/Maps.lean ====
section
/-! DEFINITION. Reading and writing the sparse stores. A store lists keys in rising order; a store with a default never lists the
default, so that equal contents are equal lists. -/

namespace Sys2Proof.Machine

/-- The first value listed under a key. -/
def mfind {α : Type} : NMap α → Nat → Option α
  | [], _ => none
  | (a, v) :: t, k => if a = k then some v else mfind t k

/-- What a key reads as, unlisted keys reading `d`. -/
def mget {α : Type} (m : NMap α) (k : Nat) (d : α) : α := (mfind m k).getD d

/-- Drop a key. -/
def mdel {α : Type} (m : NMap α) (k : Nat) : NMap α := m.filter (fun p => p.1 != k)

/-- List a value under a key, at its place in the order. -/
def mset {α : Type} : NMap α → Nat → α → NMap α
  | [], k, v => [(k, v)]
  | (a, w) :: t, k, v =>
    if k < a then (k, v) :: (a, w) :: t
    else if k = a then (k, v) :: t
    else (a, w) :: mset t k v

/-- Write a value to a store whose unlisted keys read `d`. -/
def mput {α : Type} [DecidableEq α] (m : NMap α) (k : Nat) (d v : α) : NMap α :=
  if v = d then mdel m k else mset m k v

/-- Apply a function at a key. -/
def mupd {α : Type} [DecidableEq α] (m : NMap α) (k : Nat) (d : α) (f : α → α) : NMap α := mput m k d (f (mget m k d))

/-- Keys strictly rising. -/
def mrising {α : Type} : NMap α → Bool
  | [] => true
  | [_] => true
  | (a, _) :: (b, w) :: t => decide (a < b) && mrising ((b, w) :: t)

/-! ### Byte memories: scratchpads and stacks -/

/-- Canonical form of a byte memory whose unlisted bytes read 0 (R176, R199). -/
def Memory.wf (m : List Host.Cell) : Bool := mrising m && m.all (fun p => p.2 != 0)

/-- One byte. -/
def Memory.read (m : List Host.Cell) (a : Nat) : Byte := mget m a 0

/-- Write one byte. -/
def Memory.write (m : List Host.Cell) (a : Nat) (b : Byte) : List Host.Cell := mput m a 0 b

/-- Bytes `a`, `a + 1`, … of a store that keeps address `a` under `key a`. -/
def Memory.readBytes (m : List Host.Cell) (key : Nat → Nat) (a : Nat) : Nat → List Byte
  | 0 => []
  | n + 1 => Memory.read m (key a) :: Memory.readBytes m key (a + 1) n

/-- Write consecutive bytes of such a store. -/
def Memory.writeBytes (m : List Host.Cell) (key : Nat → Nat) (a : Nat) : List Byte → List Host.Cell
  | [] => m
  | b :: t => Memory.writeBytes (Memory.write m (key a) b) key (a + 1) t

/-- A little-endian number (R14). -/
def leNat : List Byte → Nat
  | [] => 0
  | b :: t => b.toNat + 256 * leNat t

/-- The `n` little-endian bytes of a number (R14). -/
def leBytes : Nat → Nat → List Byte
  | 0, _ => []
  | n + 1, v => BitVec.ofNat 8 v :: leBytes n (v / 256)

end Sys2Proof.Machine
end

