-- ==== Sys2Proof/Machine/RegTable.lean ====
section
/-! DEFINITION. The register tables of the spec (R109, R171, R188, R192, R208, R232, R277, R313, R325, R361, R393, R420, R446, R479,
R481, R482, R512, R534, R535, R555) and the offsets of R424 to R427. -/

namespace Sys2Proof.Machine

namespace F

def arrFlags_invalid : Fld := { id := 0, reg := .arrFlags, lo := 0, w := 1, acc := .w1c, reset := .const 0 }
def arrFlags_divzero : Fld := { id := 1, reg := .arrFlags, lo := 1, w := 1, acc := .w1c, reset := .const 0 }
def arrFlags_overflow : Fld := { id := 2, reg := .arrFlags, lo := 2, w := 1, acc := .w1c, reset := .const 0 }
def arrFlags_underflow : Fld := { id := 3, reg := .arrFlags, lo := 3, w := 1, acc := .w1c, reset := .const 0 }
def arrFlags_inexact : Fld := { id := 4, reg := .arrFlags, lo := 4, w := 1, acc := .w1c, reset := .const 0 }
def arrFlags_saturated : Fld := { id := 5, reg := .arrFlags, lo := 5, w := 1, acc := .w1c, reset := .const 0 }
def arrFlags_metaErr : Fld := { id := 6, reg := .arrFlags, lo := 6, w := 1, acc := .w1c, reset := .const 0 }
def arrFlags_gateNonfinite : Fld := { id := 7, reg := .arrFlags, lo := 7, w := 1, acc := .w1c, reset := .const 0 }
def arrFlags_gateOverflow : Fld := { id := 8, reg := .arrFlags, lo := 8, w := 1, acc := .w1c, reset := .const 0 }
def arrFlags_satCount : Fld := { id := 9, reg := .arrFlags, lo := 16, w := 16, acc := .ro, reset := .const 0 }
def tmRgn_valid : Fld := { id := 10, reg := .tmRgn, lo := 0, w := 1, acc := .rw, reset := .rgn 1 1 }
def tmRgn_prot : Fld := { id := 11, reg := .tmRgn, lo := 1, w := 1, acc := .rw, reset := .rgn 0 1 }
def tmRgn_wperm : Fld := { id := 12, reg := .tmRgn, lo := 2, w := 2, acc := .rw, reset := .const 0 }
def tmRgn_rperm : Fld := { id := 13, reg := .tmRgn, lo := 4, w := 2, acc := .rw, reset := .const 0 }
def tmRgn_fieldW : Fld := { id := 14, reg := .tmRgn, lo := 6, w := 1, acc := .rw, reset := .const 0 }
def tmRgn_spanW : Fld := { id := 15, reg := .tmRgn, lo := 7, w := 1, acc := .rw, reset := .const 0 }
def tmRgn_spill : Fld := { id := 16, reg := .tmRgn, lo := 8, w := 1, acc := .rw, reset := .rgn 0 1 }
def tmRgn_initBusy : Fld := { id := 17, reg := .tmRgn, lo := 9, w := 1, acc := .ro, reset := .const 0 }
def tmRgn_base : Fld := { id := 18, reg := .tmRgn, lo := 16, w := 10, acc := .rw, reset := .rgn 0 1008 }
def tmRgn_size : Fld := { id := 19, reg := .tmRgn, lo := 32, w := 11, acc := .rw, reset := .rgn 1008 16 }
def tmRgn_owner : Fld := { id := 20, reg := .tmRgn, lo := 48, w := 9, acc := .rw, reset := .owner }
def tmCtr_value : Fld := { id := 21, reg := .tmCtr, lo := 0, w := 32, acc := .ro, reset := .const 0 }
def tmCtrSat_sat : Fld := { id := 22, reg := .tmCtrSat, lo := 0, w := 64, acc := .w1c, reset := .const 0 }
def tmErrCnt_corrCnt : Fld := { id := 23, reg := .tmErrCnt, lo := 0, w := 32, acc := .ro, reset := .const 0 }
def tmErrCnt_uncorrCnt : Fld := { id := 24, reg := .tmErrCnt, lo := 32, w := 16, acc := .ro, reset := .const 0 }
def tmErrCnt_parCnt : Fld := { id := 25, reg := .tmErrCnt, lo := 48, w := 16, acc := .ro, reset := .const 0 }
def tmErrLog_valid : Fld := { id := 26, reg := .tmErrLog, lo := 0, w := 1, acc := .w1c, reset := .const 0 }
def tmErrLog_kind : Fld := { id := 27, reg := .tmErrLog, lo := 1, w := 2, acc := .ro, reset := .const 0 }
def tmErrLog_port : Fld := { id := 28, reg := .tmErrLog, lo := 3, w := 3, acc := .ro, reset := .const 0 }
def tmErrLog_line : Fld := { id := 29, reg := .tmErrLog, lo := 6, w := 20, acc := .ro, reset := .const 0 }
def tmErrLog_time : Fld := { id := 30, reg := .tmErrLog, lo := 32, w := 32, acc := .ro, reset := .const 0 }
def tmErrThresh_corrStep : Fld := { id := 31, reg := .tmErrThresh, lo := 0, w := 32, acc := .rw, reset := .const 1024 }
def tmDeny_denyCnt : Fld := { id := 32, reg := .tmDeny, lo := 0, w := 16, acc := .ro, reset := .const 0 }
def pckTblDesc_desc : Fld := { id := 33, reg := .pckTblDesc, lo := 0, w := 64, acc := .rw, reset := .const 0 }
def pckTblCmd_go : Fld := { id := 34, reg := .pckTblCmd, lo := 0, w := 1, acc := .rw1s, reset := .const 0 }
def pckTblCmd_op : Fld := { id := 35, reg := .pckTblCmd, lo := 1, w := 3, acc := .rw, reset := .const 0, min := 0, max := 6 }
def pckTblCmd_pack : Fld := { id := 36, reg := .pckTblCmd, lo := 4, w := 6, acc := .rw, reset := .const 0 }
def pckTblCmd_status : Fld := { id := 37, reg := .pckTblCmd, lo := 16, w := 4, acc := .ro, reset := .const 0 }
def hubCfg_fetchEn : Fld := { id := 38, reg := .hubCfg, lo := 0, w := 1, acc := .rw, reset := .const 1 }
def hubCfg_hintDis : Fld := { id := 39, reg := .hubCfg, lo := 1, w := 1, acc := .rw, reset := .const 0 }
def hubCfg_scrubEn : Fld := { id := 40, reg := .hubCfg, lo := 2, w := 1, acc := .rw, reset := .const 1 }
def hubCfg_scrubHours : Fld := { id := 41, reg := .hubCfg, lo := 3, w := 8, acc := .rw, reset := .const 24, min := 1, max := 255 }
def hubCfg_mirrorReadEn : Fld := { id := 42, reg := .hubCfg, lo := 11, w := 1, acc := .rw, reset := .const 1 }
def hubState_stackState : Fld := { id := 43, reg := .hubState, lo := 0, w := 3, acc := .ro, reset := .const 0 }
def hubState_promoted : Fld := { id := 44, reg := .hubState, lo := 8, w := 8, acc := .ro, reset := .const 0 }
def hubState_resyncBusy : Fld := { id := 45, reg := .hubState, lo := 16, w := 1, acc := .ro, reset := .const 0 }
def hubErrCnt_corrCnt : Fld := { id := 46, reg := .hubErrCnt, lo := 0, w := 32, acc := .ro, reset := .const 0 }
def hubErrCnt_uncorrCnt : Fld := { id := 47, reg := .hubErrCnt, lo := 32, w := 16, acc := .ro, reset := .const 0 }
def hubErrCnt_mirrorFix : Fld := { id := 48, reg := .hubErrCnt, lo := 48, w := 16, acc := .ro, reset := .const 0 }
def hubErrCnt2_odeccCnt : Fld := { id := 49, reg := .hubErrCnt2, lo := 0, w := 32, acc := .ro, reset := .const 0 }
def hubErrCnt2_cacheUncorr : Fld := { id := 50, reg := .hubErrCnt2, lo := 32, w := 16, acc := .ro, reset := .const 0 }
def hubErrCnt2_mirrorLost : Fld := { id := 51, reg := .hubErrCnt2, lo := 48, w := 16, acc := .ro, reset := .const 0 }
def hubErrLog_valid : Fld := { id := 52, reg := .hubErrLog, lo := 0, w := 1, acc := .w1c, reset := .const 0 }
def hubErrLog_kind : Fld := { id := 53, reg := .hubErrLog, lo := 1, w := 2, acc := .ro, reset := .const 0 }
def hubErrLog_block : Fld := { id := 54, reg := .hubErrLog, lo := 6, w := 30, acc := .ro, reset := .const 0 }
def hubErrTime_time : Fld := { id := 55, reg := .hubErrTime, lo := 0, w := 64, acc := .ro, reset := .const 0 }
def hubHits_hits : Fld := { id := 56, reg := .hubHits, lo := 0, w := 64, acc := .ro, reset := .const 0 }
def hubMisses_misses : Fld := { id := 57, reg := .hubMisses, lo := 0, w := 64, acc := .ro, reset := .const 0 }
def hubPfUsed_used : Fld := { id := 58, reg := .hubPfUsed, lo := 0, w := 64, acc := .ro, reset := .const 0 }
def hubPfWasted_wasted : Fld := { id := 59, reg := .hubPfWasted, lo := 0, w := 64, acc := .ro, reset := .const 0 }
def hubTemp_degC : Fld := { id := 60, reg := .hubTemp, lo := 0, w := 8, acc := .ro, reset := .const 0 }
def hubTemp_tvalid : Fld := { id := 61, reg := .hubTemp, lo := 8, w := 1, acc := .ro, reset := .const 0 }
def fabCfg_zrcEn : Fld := { id := 62, reg := .fabCfg, lo := 0, w := 1, acc := .rw, reset := .const 1 }
def fabCfg_pinEn : Fld := { id := 63, reg := .fabCfg, lo := 1, w := 1, acc := .rw, reset := .const 1 }
def fabCfg_reqTmo : Fld := { id := 64, reg := .fabCfg, lo := 16, w := 16, acc := .rw, reset := .const 100, min := 1, max := 65535 }
def fabArb_wTc1 : Fld := { id := 65, reg := .fabArb, lo := 0, w := 8, acc := .rw, reset := .const 40, min := 1, max := 255 }
def fabArb_wTc2 : Fld := { id := 66, reg := .fabArb, lo := 8, w := 8, acc := .rw, reset := .const 57 }
def fabArb_wTc3 : Fld := { id := 67, reg := .fabArb, lo := 16, w := 8, acc := .rw, reset := .const 3 }
def fabState_maskGen : Fld := { id := 68, reg := .fabState, lo := 0, w := 16, acc := .ro, reset := .const 0 }
def fabState_escMode : Fld := { id := 69, reg := .fabState, lo := 16, w := 2, acc := .ro, reset := .const 0 }
def fabState_drainBusy : Fld := { id := 70, reg := .fabState, lo := 18, w := 1, acc := .ro, reset := .const 0 }
def fabMaskSite_dead : Fld := { id := 71, reg := .fabMaskSite, lo := 0, w := 64, acc := .ro, reset := .const 0 }
def fabMaskLink_dead : Fld := { id := 72, reg := .fabMaskLink, lo := 0, w := 64, acc := .ro, reset := .const 0 }
def fabSite_site : Fld := { id := 73, reg := .fabSite, lo := 0, w := 10, acc := .ro, reset := .cfg }
def fabSite_state : Fld := { id := 74, reg := .fabSite, lo := 10, w := 2, acc := .ro, reset := .cfg }
def fabSite_fenced : Fld := { id := 75, reg := .fabSite, lo := 12, w := 1, acc := .ro, reset := .const 0 }
def fabGrpStage_mask : Fld := { id := 76, reg := .fabGrpStage, lo := 0, w := 64, acc := .rw, reset := .const 0 }
def fabGrpCmd_go : Fld := { id := 77, reg := .fabGrpCmd, lo := 0, w := 1, acc := .rw1s, reset := .const 0 }
def fabGrpCmd_op : Fld := { id := 78, reg := .fabGrpCmd, lo := 1, w := 2, acc := .rw, reset := .const 0 }
def fabGrpCmd_group : Fld := { id := 79, reg := .fabGrpCmd, lo := 3, w := 12, acc := .rw, reset := .const 0 }
def fabGrpCmd_status : Fld := { id := 80, reg := .fabGrpCmd, lo := 16, w := 4, acc := .ro, reset := .const 0 }
def fabPin_srcArray : Fld := { id := 81, reg := .fabPin, lo := 0, w := 9, acc := .rw, reset := .const 0 }
def fabPin_dstArray : Fld := { id := 82, reg := .fabPin, lo := 9, w := 9, acc := .rw, reset := .const 0 }
def fabPin_class : Fld := { id := 83, reg := .fabPin, lo := 18, w := 2, acc := .rw, reset := .const 0 }
def fabPin_valid : Fld := { id := 84, reg := .fabPin, lo := 20, w := 1, acc := .rw, reset := .const 0 }
def fabRtrCnt_parErr : Fld := { id := 85, reg := .fabRtrCnt, lo := 0, w := 16, acc := .ro, reset := .const 0 }
def fabRtrCnt_replays : Fld := { id := 86, reg := .fabRtrCnt, lo := 16, w := 16, acc := .ro, reset := .const 0 }
def fabRtrCnt_absorbed : Fld := { id := 87, reg := .fabRtrCnt, lo := 32, w := 16, acc := .ro, reset := .const 0 }
def fabRtrCnt_badFwd : Fld := { id := 88, reg := .fabRtrCnt, lo := 48, w := 16, acc := .ro, reset := .const 0 }
def chCfg_suspectUs : Fld := { id := 89, reg := .chCfg, lo := 0, w := 16, acc := .rw, reset := .const 100, min := 1, max := 65535 }
def chCfg_tmo10us : Fld := { id := 90, reg := .chCfg, lo := 16, w := 16, acc := .rw, reset := .const 100 }
def chEp_role : Fld := { id := 91, reg := .chEp, lo := 0, w := 3, acc := .rw, reset := .const 0, min := 0, max := 6 }
def chEp_autoOpen : Fld := { id := 92, reg := .chEp, lo := 3, w := 1, acc := .rw, reset := .const 1 }
def chEp_hostOk : Fld := { id := 93, reg := .chEp, lo := 4, w := 1, acc := .rw, reset := .const 0 }
def chEp_peerArray : Fld := { id := 94, reg := .chEp, lo := 8, w := 9, acc := .rw, reset := .const 0 }
def chEp_peerEp : Fld := { id := 95, reg := .chEp, lo := 17, w := 6, acc := .rw, reset := .const 0 }
def chEp_accLine : Fld := { id := 96, reg := .chEp, lo := 32, w := 20, acc := .rw, reset := .const 0 }
def chEp_elems16 : Fld := { id := 97, reg := .chEp, lo := 52, w := 8, acc := .rw, reset := .const 0 }
def chEp_inFmt : Fld := { id := 98, reg := .chEp, lo := 60, w := 4, acc := .rw, reset := .const 0 }
def chEpState_state : Fld := { id := 99, reg := .chEpState, lo := 0, w := 2, acc := .ro, reset := .const 0 }
def chEpState_suspect : Fld := { id := 100, reg := .chEpState, lo := 2, w := 1, acc := .w1c, reset := .const 0 }
def chEpState_blocked : Fld := { id := 101, reg := .chEpState, lo := 3, w := 1, acc := .ro, reset := .const 0 }
def chEpState_queued : Fld := { id := 102, reg := .chEpState, lo := 4, w := 6, acc := .ro, reset := .const 0 }
def chEpState_spilled : Fld := { id := 103, reg := .chEpState, lo := 10, w := 12, acc := .ro, reset := .const 0 }
def chEpState_batch : Fld := { id := 104, reg := .chEpState, lo := 22, w := 1, acc := .ro, reset := .const 0 }
def chEpState_epoch : Fld := { id := 105, reg := .chEpState, lo := 32, w := 16, acc := .ro, reset := .const 0 }
def chEpState_open : Fld := { id := 106, reg := .chEpState, lo := 48, w := 1, acc := .rw1s, reset := .const 0 }
def chEpState_close : Fld := { id := 107, reg := .chEpState, lo := 49, w := 1, acc := .rw1s, reset := .const 0 }
def chEpCnt_items : Fld := { id := 108, reg := .chEpCnt, lo := 0, w := 32, acc := .ro, reset := .const 0 }
def chEpCnt_discard : Fld := { id := 109, reg := .chEpCnt, lo := 32, w := 16, acc := .ro, reset := .const 0 }
def chEpCnt_tmo : Fld := { id := 110, reg := .chEpCnt, lo := 48, w := 16, acc := .ro, reset := .const 0 }
def admCfg_ejectGuard : Fld := { id := 111, reg := .admCfg, lo := 0, w := 16, acc := .rw, reset := .const 20, min := 1, max := 65535 }
def admSrc_rate : Fld := { id := 112, reg := .admSrc, lo := 0, w := 16, acc := .rw, reset := .cfg }
def admSrc_burst : Fld := { id := 113, reg := .admSrc, lo := 16, w := 8, acc := .rw, reset := .cfg }
def admTotal_rateSum : Fld := { id := 114, reg := .admTotal, lo := 0, w := 24, acc := .ro, reset := .cfg }
def admTotal_burstSum : Fld := { id := 115, reg := .admTotal, lo := 32, w := 16, acc := .ro, reset := .cfg }
def admLimit_rateLim : Fld := { id := 116, reg := .admLimit, lo := 0, w := 24, acc := .ro, reset := .const 9216 }
def admLimit_burstLim : Fld := { id := 117, reg := .admLimit, lo := 32, w := 16, acc := .ro, reset := .const 480 }
def admRefused_src : Fld := { id := 118, reg := .admRefused, lo := 0, w := 10, acc := .ro, reset := .const 0 }
def admRefused_count : Fld := { id := 119, reg := .admRefused, lo := 16, w := 16, acc := .ro, reset := .const 0 }
def admShape_waits : Fld := { id := 120, reg := .admShape, lo := 0, w := 32, acc := .ro, reset := .const 0 }
def admShape_maxWait : Fld := { id := 121, reg := .admShape, lo := 32, w := 16, acc := .ro, reset := .const 0 }
def admShape_denied : Fld := { id := 122, reg := .admShape, lo := 48, w := 16, acc := .ro, reset := .const 0 }
def fldCfg_concEn : Fld := { id := 123, reg := .fldCfg, lo := 0, w := 1, acc := .rw, reset := .cfg }
def fldCfg_hostRxEn : Fld := { id := 124, reg := .fldCfg, lo := 1, w := 1, acc := .rw, reset := .const 0 }
def fldCfg_ptpDomain : Fld := { id := 125, reg := .fldCfg, lo := 2, w := 8, acc := .rw, reset := .cfg }
def fldCfg_c37Udp : Fld := { id := 126, reg := .fldCfg, lo := 16, w := 16, acc := .rw, reset := .const 4713 }
def fldCfg_sptUdp : Fld := { id := 127, reg := .fldCfg, lo := 32, w := 16, acc := .rw, reset := .cfg }
def fldConc_concGroup : Fld := { id := 128, reg := .fldConc, lo := 0, w := 32, acc := .rw, reset := .cfg }
def fldConc_concPort : Fld := { id := 129, reg := .fldConc, lo := 32, w := 16, acc := .rw, reset := .cfg }
def fldConc_concWait : Fld := { id := 130, reg := .fldConc, lo := 48, w := 8, acc := .rw, reset := .const 10, min := 1, max := 15 }
def fldConcStat_snapSeq : Fld := { id := 131, reg := .fldConcStat, lo := 0, w := 32, acc := .ro, reset := .const 0 }
def fldConcStat_concLate : Fld := { id := 132, reg := .fldConcStat, lo := 32, w := 16, acc := .ro, reset := .const 0 }
def fldConcStat_missing : Fld := { id := 133, reg := .fldConcStat, lo := 48, w := 16, acc := .ro, reset := .const 0 }
def fldSeqEpoch_seqEpoch : Fld := { id := 134, reg := .fldSeqEpoch, lo := 0, w := 24, acc := .ro, reset := .cfg }
def fldPort_en : Fld := { id := 135, reg := .fldPort, lo := 0, w := 1, acc := .rw, reset := .cfg }
def fldPort_speed : Fld := { id := 136, reg := .fldPort, lo := 1, w := 2, acc := .rw, reset := .cfg, min := 0, max := 2 }
def fldPort_fec25 : Fld := { id := 137, reg := .fldPort, lo := 3, w := 2, acc := .rw, reset := .const 0 }
def fldPort_anEn : Fld := { id := 138, reg := .fldPort, lo := 5, w := 1, acc := .rw, reset := .const 1 }
def fldPort_ptpEn : Fld := { id := 139, reg := .fldPort, lo := 6, w := 1, acc := .rw, reset := .const 1 }
def fldPort_vlanId : Fld := { id := 140, reg := .fldPort, lo := 8, w := 12, acc := .rw, reset := .const 0 }
def fldPort_pcp : Fld := { id := 141, reg := .fldPort, lo := 20, w := 3, acc := .rw, reset := .const 6 }
def fldPort_ipv4 : Fld := { id := 142, reg := .fldPort, lo := 32, w := 32, acc := .rw, reset := .cfg }
def fldMac_mac : Fld := { id := 143, reg := .fldMac, lo := 0, w := 48, acc := .ro, reset := .cfg }
def fldPortStat_link : Fld := { id := 144, reg := .fldPortStat, lo := 0, w := 1, acc := .ro, reset := .const 0 }
def fldPortStat_speedAct : Fld := { id := 145, reg := .fldPortStat, lo := 1, w := 2, acc := .ro, reset := .const 0 }
def fldPortStat_fecAct : Fld := { id := 146, reg := .fldPortStat, lo := 3, w := 2, acc := .ro, reset := .const 0 }
def fldPortCnt_rxFrames : Fld := { id := 147, reg := .fldPortCnt, lo := 0, w := 32, acc := .ro, reset := .const 0 }
def fldPortCnt_rxBad : Fld := { id := 148, reg := .fldPortCnt, lo := 32, w := 16, acc := .ro, reset := .const 0 }
def fldPortCnt_hostDrop : Fld := { id := 149, reg := .fldPortCnt, lo := 48, w := 16, acc := .ro, reset := .const 0 }
def fldSptCnt_sent : Fld := { id := 150, reg := .fldSptCnt, lo := 0, w := 32, acc := .ro, reset := .const 0 }
def fldSptCnt_late : Fld := { id := 151, reg := .fldSptCnt, lo := 32, w := 16, acc := .ro, reset := .const 0 }
def fldSptCnt_refused : Fld := { id := 152, reg := .fldSptCnt, lo := 48, w := 16, acc := .ro, reset := .const 0 }
def fldStrm_valid : Fld := { id := 153, reg := .fldStrm, lo := 0, w := 1, acc := .rw, reset := .const 0 }
def fldStrm_kind : Fld := { id := 154, reg := .fldStrm, lo := 1, w := 1, acc := .rw, reset := .const 0 }
def fldStrm_ports : Fld := { id := 155, reg := .fldStrm, lo := 2, w := 4, acc := .rw, reset := .const 0 }
def fldStrm_fifo : Fld := { id := 156, reg := .fldStrm, lo := 6, w := 5, acc := .rw, reset := .const 0 }
def fldStrm_conc : Fld := { id := 157, reg := .fldStrm, lo := 11, w := 1, acc := .rw, reset := .const 0 }
def fldStrm_fifoEn : Fld := { id := 158, reg := .fldStrm, lo := 12, w := 1, acc := .rw, reset := .const 0 }
def fldStrm_id : Fld := { id := 159, reg := .fldStrm, lo := 16, w := 16, acc := .rw, reset := .const 0 }
def fldStrm_rateBase : Fld := { id := 160, reg := .fldStrm, lo := 32, w := 24, acc := .rw, reset := .const 0 }
def fldFifo_en : Fld := { id := 161, reg := .fldFifo, lo := 0, w := 1, acc := .rw, reset := .const 0 }
def fldFifo_array : Fld := { id := 162, reg := .fldFifo, lo := 1, w := 9, acc := .rw, reset := .const 0 }
def fldFifo_ctr : Fld := { id := 163, reg := .fldFifo, lo := 10, w := 6, acc := .rw, reset := .const 0 }
def fldFifo_ringBase : Fld := { id := 164, reg := .fldFifo, lo := 16, w := 15, acc := .rw, reset := .const 0 }
def fldFifo_nslots : Fld := { id := 165, reg := .fldFifo, lo := 32, w := 15, acc := .rw, reset := .const 0, min := 1, max := 16384 }
def fldFifo_idleUs : Fld := { id := 166, reg := .fldFifo, lo := 48, w := 16, acc := .rw, reset := .const 0 }
def fldFifoStat_used : Fld := { id := 167, reg := .fldFifoStat, lo := 0, w := 11, acc := .ro, reset := .const 0 }
def fldFifoStat_waiting : Fld := { id := 168, reg := .fldFifoStat, lo := 16, w := 10, acc := .ro, reset := .const 0 }
def fldFifoStat_gapCnt : Fld := { id := 169, reg := .fldFifoStat, lo := 32, w := 16, acc := .ro, reset := .const 0 }
def fldFifoStat_failCnt : Fld := { id := 170, reg := .fldFifoStat, lo := 48, w := 16, acc := .ro, reset := .const 0 }
def fldErr_corrCnt : Fld := { id := 171, reg := .fldErr, lo := 0, w := 32, acc := .ro, reset := .const 0 }
def fldErr_uncorrCnt : Fld := { id := 172, reg := .fldErr, lo := 32, w := 16, acc := .ro, reset := .const 0 }
def fldTgt_dstMac : Fld := { id := 173, reg := .fldTgt, lo := 0, w := 48, acc := .rw, reset := .const 0 }
def fldTgt_port : Fld := { id := 174, reg := .fldTgt, lo := 48, w := 2, acc := .rw, reset := .const 0 }
def fldTgt_valid : Fld := { id := 175, reg := .fldTgt, lo := 50, w := 1, acc := .rw, reset := .const 0 }
def fldTgt_key : Fld := { id := 176, reg := .fldTgt, lo := 56, w := 6, acc := .rw, reset := .const 0 }
def fldTgt2_dstIp : Fld := { id := 177, reg := .fldTgt2, lo := 0, w := 32, acc := .rw, reset := .const 0 }
def fldTgt2_dstUdp : Fld := { id := 178, reg := .fldTgt2, lo := 32, w := 16, acc := .rw, reset := .const 0 }
def fldTgt2_srcUdp : Fld := { id := 179, reg := .fldTgt2, lo := 48, w := 16, acc := .rw, reset := .const 0 }
def fldSptBind_array : Fld := { id := 180, reg := .fldSptBind, lo := 0, w := 9, acc := .rw, reset := .const 0 }
def fldSptBind_ep : Fld := { id := 181, reg := .fldSptBind, lo := 9, w := 6, acc := .rw, reset := .const 0 }
def fldSptBind_valid : Fld := { id := 182, reg := .fldSptBind, lo := 15, w := 1, acc := .rw, reset := .const 0 }
def fldSptBind_die : Fld := { id := 183, reg := .fldSptBind, lo := 16, w := 1, acc := .rw, reset := .const 0 }
def fldKeyStage_keyword : Fld := { id := 184, reg := .fldKeyStage, lo := 0, w := 64, acc := .wo, reset := .const 0 }
def fldKeyCmd_slot : Fld := { id := 185, reg := .fldKeyCmd, lo := 0, w := 6, acc := .rw, reset := .const 0 }
def fldKeyCmd_commit : Fld := { id := 186, reg := .fldKeyCmd, lo := 6, w := 1, acc := .rw1s, reset := .const 0 }
def fldKeyCmd_erase : Fld := { id := 187, reg := .fldKeyCmd, lo := 7, w := 1, acc := .rw1s, reset := .const 0 }
def fldKeyCmd_newId : Fld := { id := 188, reg := .fldKeyCmd, lo := 8, w := 16, acc := .rw, reset := .const 0 }
def fldKeyId_keyId : Fld := { id := 189, reg := .fldKeyId, lo := 0, w := 16, acc := .ro, reset := .const 0 }
def fldKeyId_loaded : Fld := { id := 190, reg := .fldKeyId, lo := 16, w := 1, acc := .ro, reset := .const 0 }
def fldIn_valid : Fld := { id := 191, reg := .fldIn, lo := 0, w := 1, acc := .rw, reset := .const 0 }
def fldIn_array : Fld := { id := 192, reg := .fldIn, lo := 1, w := 9, acc := .rw, reset := .const 0 }
def fldIn_ctr : Fld := { id := 193, reg := .fldIn, lo := 10, w := 6, acc := .rw, reset := .const 0 }
def fldIn_ringBase : Fld := { id := 194, reg := .fldIn, lo := 16, w := 16, acc := .rw, reset := .const 0 }
def fldIn_nslots : Fld := { id := 195, reg := .fldIn, lo := 32, w := 8, acc := .rw, reset := .const 0 }
def fldIn_key : Fld := { id := 196, reg := .fldIn, lo := 40, w := 6, acc := .rw, reset := .const 0 }
def fldInSeq_lastSeq : Fld := { id := 197, reg := .fldInSeq, lo := 0, w := 64, acc := .ro, reset := .const 0 }
def fldInCnt_authFail : Fld := { id := 198, reg := .fldInCnt, lo := 0, w := 16, acc := .ro, reset := .const 0 }
def fldInCnt_replay : Fld := { id := 199, reg := .fldInCnt, lo := 16, w := 16, acc := .ro, reset := .const 0 }
def fldInCnt_deliverFail : Fld := { id := 200, reg := .fldInCnt, lo := 32, w := 16, acc := .ro, reset := .const 0 }
def fldInCnt_toHost : Fld := { id := 201, reg := .fldInCnt, lo := 48, w := 16, acc := .ro, reset := .const 0 }
def lnkCfg_panelId : Fld := { id := 202, reg := .lnkCfg, lo := 0, w := 12, acc := .rw, reset := .cfg }
def lnkCfg_fwdEn : Fld := { id := 203, reg := .lnkCfg, lo := 12, w := 1, acc := .rw, reset := .cfg }
def lnkCfg_spanTmo : Fld := { id := 204, reg := .lnkCfg, lo := 16, w := 16, acc := .rw, reset := .const 200, min := 1, max := 65535 }
def lnkCfg_quiesceMs : Fld := { id := 205, reg := .lnkCfg, lo := 32, w := 8, acc := .rw, reset := .const 2, min := 1, max := 255 }
def lnkCfg_failoverUs : Fld := { id := 206, reg := .lnkCfg, lo := 40, w := 16, acc := .rw, reset := .const 100 }
def lnkPort_en : Fld := { id := 207, reg := .lnkPort, lo := 0, w := 1, acc := .rw, reset := .cfg }
def lnkPort_dateline : Fld := { id := 208, reg := .lnkPort, lo := 1, w := 1, acc := .rw, reset := .cfg }
def lnkPort_spanId : Fld := { id := 209, reg := .lnkPort, lo := 2, w := 12, acc := .rw, reset := .cfg }
def lnkPort_pair : Fld := { id := 210, reg := .lnkPort, lo := 14, w := 3, acc := .rw, reset := .cfg }
def lnkPort_halfOk : Fld := { id := 211, reg := .lnkPort, lo := 17, w := 1, acc := .rw, reset := .const 1 }
def lnkPort_retrain : Fld := { id := 212, reg := .lnkPort, lo := 18, w := 1, acc := .rw1s, reset := .const 0 }
def lnkPort_uncorrLimit : Fld := { id := 213, reg := .lnkPort, lo := 32, w := 16, acc := .rw, reset := .const 16 }
def lnkStat_state : Fld := { id := 214, reg := .lnkStat, lo := 0, w := 4, acc := .ro, reset := .const 0 }
def lnkStat_half : Fld := { id := 215, reg := .lnkStat, lo := 4, w := 1, acc := .ro, reset := .const 0 }
def lnkStat_sparesRx : Fld := { id := 216, reg := .lnkStat, lo := 5, w := 3, acc := .ro, reset := .const 0 }
def lnkStat_sparesTx : Fld := { id := 217, reg := .lnkStat, lo := 8, w := 3, acc := .ro, reset := .const 0 }
def lnkStat_peerPanel : Fld := { id := 218, reg := .lnkStat, lo := 11, w := 12, acc := .ro, reset := .const 0 }
def lnkStat_peerPort : Fld := { id := 219, reg := .lnkStat, lo := 23, w := 3, acc := .ro, reset := .const 0 }
def lnkStat_rttNs : Fld := { id := 220, reg := .lnkStat, lo := 32, w := 32, acc := .ro, reset := .const 0 }
def lnkLane_failed : Fld := { id := 221, reg := .lnkLane, lo := 0, w := 52, acc := .ro, reset := .const 0 }
def lnkCnt_corrCw : Fld := { id := 222, reg := .lnkCnt, lo := 0, w := 32, acc := .ro, reset := .const 0 }
def lnkCnt_uncorrCw : Fld := { id := 223, reg := .lnkCnt, lo := 32, w := 16, acc := .ro, reset := .const 0 }
def lnkCnt_retrains : Fld := { id := 224, reg := .lnkCnt, lo := 48, w := 16, acc := .ro, reset := .const 0 }
def lnkCnt2_lost : Fld := { id := 225, reg := .lnkCnt2, lo := 0, w := 16, acc := .ro, reset := .const 0 }
def lnkCnt2_unreach : Fld := { id := 226, reg := .lnkCnt2, lo := 16, w := 16, acc := .ro, reset := .const 0 }
def lnkCnt2_hopsExpired : Fld := { id := 227, reg := .lnkCnt2, lo := 32, w := 16, acc := .ro, reset := .const 0 }
def lnkCnt2_tc0Held : Fld := { id := 228, reg := .lnkCnt2, lo := 48, w := 16, acc := .ro, reset := .const 0 }
def lnkRoute_primary : Fld := { id := 229, reg := .lnkRoute, lo := 0, w := 3, acc := .rw, reset := .cfg }
def lnkRoute_pValid : Fld := { id := 230, reg := .lnkRoute, lo := 3, w := 1, acc := .rw, reset := .cfg }
def lnkRoute_alternate : Fld := { id := 231, reg := .lnkRoute, lo := 4, w := 3, acc := .rw, reset := .cfg }
def lnkRoute_aValid : Fld := { id := 232, reg := .lnkRoute, lo := 7, w := 1, acc := .rw, reset := .cfg }
def lnkBind_array : Fld := { id := 233, reg := .lnkBind, lo := 0, w := 9, acc := .rw, reset := .const 0 }
def lnkBind_ep : Fld := { id := 234, reg := .lnkBind, lo := 9, w := 6, acc := .rw, reset := .const 0 }
def lnkBind_valid : Fld := { id := 235, reg := .lnkBind, lo := 15, w := 1, acc := .rw, reset := .const 0 }
def lnkBind_kind : Fld := { id := 236, reg := .lnkBind, lo := 16, w := 1, acc := .rw, reset := .const 0 }
def lnkBind_via : Fld := { id := 237, reg := .lnkBind, lo := 17, w := 3, acc := .rw, reset := .const 0 }
def lnkBind_dstPanel : Fld := { id := 238, reg := .lnkBind, lo := 20, w := 12, acc := .rw, reset := .const 0 }
def lnkBind_dstEntry : Fld := { id := 239, reg := .lnkBind, lo := 32, w := 6, acc := .rw, reset := .const 0 }
def lnkIn_valid : Fld := { id := 240, reg := .lnkIn, lo := 0, w := 1, acc := .rw, reset := .const 0 }
def lnkIn_array : Fld := { id := 241, reg := .lnkIn, lo := 1, w := 9, acc := .rw, reset := .const 0 }
def lnkIn_ctr : Fld := { id := 242, reg := .lnkIn, lo := 10, w := 6, acc := .rw, reset := .const 0 }
def lnkIn_ringBase : Fld := { id := 243, reg := .lnkIn, lo := 16, w := 16, acc := .rw, reset := .const 0 }
def lnkIn_nslots : Fld := { id := 244, reg := .lnkIn, lo := 32, w := 8, acc := .rw, reset := .const 0 }
def clkCfg_timeSrc : Fld := { id := 245, reg := .clkCfg, lo := 0, w := 2, acc := .rw, reset := .cfg, min := 0, max := 2 }
def clkCfg_refEn : Fld := { id := 246, reg := .clkCfg, lo := 2, w := 1, acc := .rw, reset := .const 1 }
def clkCfg_ppsOutEn : Fld := { id := 247, reg := .clkCfg, lo := 3, w := 1, acc := .rw, reset := .const 1 }
def clkCfg_ppsOutForce : Fld := { id := 248, reg := .clkCfg, lo := 4, w := 1, acc := .rw, reset := .const 0 }
def clkCfg_ppsOutWidth : Fld := { id := 249, reg := .clkCfg, lo := 5, w := 10, acc := .rw, reset := .const 100, min := 1, max := 999 }
def clkCfg_ppsOutComp : Fld := { id := 250, reg := .clkCfg, lo := 16, w := 16, acc := .rw, reset := .const 0 }
def clkCfg_ppsInComp : Fld := { id := 251, reg := .clkCfg, lo := 32, w := 16, acc := .rw, reset := .const 0 }
def clkStat_timeState : Fld := { id := 252, reg := .clkStat, lo := 0, w := 3, acc := .ro, reset := .const 0 }
def clkStat_spineSrc : Fld := { id := 253, reg := .clkStat, lo := 3, w := 2, acc := .ro, reset := .const 0 }
def clkStat_ppsInOk : Fld := { id := 254, reg := .clkStat, lo := 5, w := 1, acc := .ro, reset := .const 0 }
def clkStat_fallbackIsl : Fld := { id := 255, reg := .clkStat, lo := 16, w := 16, acc := .ro, reset := .const 0 }
def clkStat_offsetPs : Fld := { id := 256, reg := .clkStat, lo := 32, w := 32, acc := .ro, reset := .const 0 }
def clkTime_ns : Fld := { id := 257, reg := .clkTime, lo := 0, w := 64, acc := .ro, reset := .const 0 }
def clkTimeFrac_frac : Fld := { id := 258, reg := .clkTimeFrac, lo := 0, w := 16, acc := .ro, reset := .const 0 }
def clkSet_ns : Fld := { id := 259, reg := .clkSet, lo := 0, w := 64, acc := .rw, reset := .const 0 }
def clkCmd_set : Fld := { id := 260, reg := .clkCmd, lo := 0, w := 1, acc := .rw1s, reset := .const 0 }
def clkUtc_utcOffset : Fld := { id := 261, reg := .clkUtc, lo := 0, w := 16, acc := .rw, reset := .cfg }
def clkUtc_nextOffset : Fld := { id := 262, reg := .clkUtc, lo := 16, w := 16, acc := .rw, reset := .cfg }
def clkLeap_leapTime : Fld := { id := 263, reg := .clkLeap, lo := 0, w := 64, acc := .rw, reset := .const 0 }
def clkPpsInTs_ns : Fld := { id := 264, reg := .clkPpsInTs, lo := 0, w := 64, acc := .ro, reset := .const 0 }
def clkMarginCfg_warnPs : Fld := { id := 265, reg := .clkMarginCfg, lo := 0, w := 10, acc := .rw, reset := .const 40 }
def clkMarginCfg_critPs : Fld := { id := 266, reg := .clkMarginCfg, lo := 16, w := 10, acc := .rw, reset := .const 15 }
def clkIsl_mode : Fld := { id := 267, reg := .clkIsl, lo := 0, w := 1, acc := .ro, reset := .const 0 }
def clkIsl_holdover : Fld := { id := 268, reg := .clkIsl, lo := 1, w := 1, acc := .ro, reset := .const 0 }
def clkIsl_dark : Fld := { id := 269, reg := .clkIsl, lo := 2, w := 1, acc := .ro, reset := .const 0 }
def clkIsl_corrErr : Fld := { id := 270, reg := .clkIsl, lo := 8, w := 8, acc := .ro, reset := .const 0 }
def clkIsl_switches : Fld := { id := 271, reg := .clkIsl, lo := 16, w := 16, acc := .ro, reset := .const 0 }
def clkIsl_missed : Fld := { id := 272, reg := .clkIsl, lo := 32, w := 16, acc := .ro, reset := .const 0 }
def clkIsl_holdCnt : Fld := { id := 273, reg := .clkIsl, lo := 48, w := 16, acc := .ro, reset := .const 0 }
def clkMargin_minPs : Fld := { id := 274, reg := .clkMargin, lo := 0, w := 10, acc := .ro, reset := .const 0 }
def clkMargin_minSensor : Fld := { id := 275, reg := .clkMargin, lo := 10, w := 3, acc := .ro, reset := .const 0 }
def clkMargin_warnCnt : Fld := { id := 276, reg := .clkMargin, lo := 16, w := 16, acc := .ro, reset := .const 0 }
def clkMargin_stretchWin : Fld := { id := 277, reg := .clkMargin, lo := 32, w := 16, acc := .ro, reset := .const 0 }
def clkMargin_longWin : Fld := { id := 278, reg := .clkMargin, lo := 48, w := 16, acc := .ro, reset := .const 0 }
def hifCfg_hostId : Fld := { id := 279, reg := .hifCfg, lo := 0, w := 9, acc := .rw, reset := .const 0 }
def hifCfg_roEn : Fld := { id := 280, reg := .hifCfg, lo := 9, w := 1, acc := .rw, reset := .const 0 }
def hifStat_speed : Fld := { id := 281, reg := .hifStat, lo := 0, w := 3, acc := .ro, reset := .const 0 }
def hifStat_width : Fld := { id := 282, reg := .hifStat, lo := 3, w := 5, acc := .ro, reset := .const 0 }
def hifStat_flit : Fld := { id := 283, reg := .hifStat, lo := 8, w := 1, acc := .ro, reset := .const 0 }
def hifErr_badAcc : Fld := { id := 284, reg := .hifErr, lo := 0, w := 16, acc := .ro, reset := .const 0 }
def hifErr_hostFault : Fld := { id := 285, reg := .hifErr, lo := 16, w := 16, acc := .ro, reset := .const 0 }
def hifErr_discarded : Fld := { id := 286, reg := .hifErr, lo := 32, w := 16, acc := .ro, reset := .const 0 }
def rngDbBase_addr : Fld := { id := 287, reg := .rngDbBase, lo := 0, w := 64, acc := .rw, reset := .const 0 }
def rngDbCfg_en : Fld := { id := 288, reg := .rngDbCfg, lo := 0, w := 1, acc := .rw, reset := .const 0 }
def rngDbCfg_interval : Fld := { id := 289, reg := .rngDbCfg, lo := 1, w := 10, acc := .rw, reset := .const 20, min := 5, max := 1000 }
def rngEvtBase_addr : Fld := { id := 290, reg := .rngEvtBase, lo := 0, w := 64, acc := .rw, reset := .const 0 }
def rngEvtCfg_en : Fld := { id := 291, reg := .rngEvtCfg, lo := 0, w := 1, acc := .rw, reset := .const 0 }
def rngEvtCfg_log2Size : Fld := { id := 292, reg := .rngEvtCfg, lo := 1, w := 4, acc := .rw, reset := .const 12, min := 6, max := 15 }
def rngEvtCfg_port : Fld := { id := 293, reg := .rngEvtCfg, lo := 5, w := 1, acc := .rw, reset := .const 0 }
def rngEvtCfg_telEn : Fld := { id := 294, reg := .rngEvtCfg, lo := 6, w := 1, acc := .rw, reset := .const 1 }
def rngEvtCfg_vec : Fld := { id := 295, reg := .rngEvtCfg, lo := 7, w := 11, acc := .rw, reset := .const 0 }
def rngEvtCfg_intCnt : Fld := { id := 296, reg := .rngEvtCfg, lo := 18, w := 8, acc := .rw, reset := .const 1 }
def rngEvtCfg_intUs : Fld := { id := 297, reg := .rngEvtCfg, lo := 26, w := 16, acc := .rw, reset := .const 0 }
def rngEvtCfg_telMs : Fld := { id := 298, reg := .rngEvtCfg, lo := 42, w := 8, acc := .rw, reset := .const 1, min := 1, max := 255 }
def rngEvtStat_prod : Fld := { id := 299, reg := .rngEvtStat, lo := 0, w := 32, acc := .ro, reset := .const 0 }
def rngEvtStat_lostBark : Fld := { id := 300, reg := .rngEvtStat, lo := 32, w := 16, acc := .ro, reset := .const 0 }
def rngEvtStat_lostTel : Fld := { id := 301, reg := .rngEvtStat, lo := 48, w := 16, acc := .ro, reset := .const 0 }
def rngFrxBase_addr : Fld := { id := 302, reg := .rngFrxBase, lo := 0, w := 64, acc := .rw, reset := .const 0 }
def rngFrxCfg_en : Fld := { id := 303, reg := .rngFrxCfg, lo := 0, w := 1, acc := .rw, reset := .const 0 }
def rngFrxCfg_log2Size : Fld := { id := 304, reg := .rngFrxCfg, lo := 1, w := 4, acc := .rw, reset := .const 8, min := 4, max := 15 }
def rngFrxCfg_port : Fld := { id := 305, reg := .rngFrxCfg, lo := 5, w := 1, acc := .rw, reset := .const 0 }
def rngFrxCfg_vec : Fld := { id := 306, reg := .rngFrxCfg, lo := 6, w := 11, acc := .rw, reset := .const 0 }
def rngFrxCfg_intCnt : Fld := { id := 307, reg := .rngFrxCfg, lo := 17, w := 8, acc := .rw, reset := .const 1 }
def rngSqBase_addr : Fld := { id := 308, reg := .rngSqBase, lo := 0, w := 64, acc := .rw, reset := .const 0 }
def rngSqCfg_en : Fld := { id := 309, reg := .rngSqCfg, lo := 0, w := 1, acc := .rw, reset := .const 0 }
def rngSqCfg_log2Size : Fld := { id := 310, reg := .rngSqCfg, lo := 1, w := 4, acc := .rw, reset := .const 0, min := 4, max := 15 }
def rngSqCfg_cq : Fld := { id := 311, reg := .rngSqCfg, lo := 5, w := 7, acc := .rw, reset := .const 0 }
def rngSqCfg_part : Fld := { id := 312, reg := .rngSqCfg, lo := 12, w := 4, acc := .rw, reset := .const 0 }
def rngSqCfg_priv : Fld := { id := 313, reg := .rngSqCfg, lo := 16, w := 1, acc := .rw, reset := .const 1 }
def rngSqStat_cons : Fld := { id := 314, reg := .rngSqStat, lo := 0, w := 32, acc := .ro, reset := .const 0 }
def rngSqStat_inflight : Fld := { id := 315, reg := .rngSqStat, lo := 32, w := 16, acc := .ro, reset := .const 0 }
def rngSqStat_err : Fld := { id := 316, reg := .rngSqStat, lo := 48, w := 1, acc := .ro, reset := .const 0 }
def rngCqBase_addr : Fld := { id := 317, reg := .rngCqBase, lo := 0, w := 64, acc := .rw, reset := .const 0 }
def rngCqCfg_en : Fld := { id := 318, reg := .rngCqCfg, lo := 0, w := 1, acc := .rw, reset := .const 0 }
def rngCqCfg_log2Size : Fld := { id := 319, reg := .rngCqCfg, lo := 1, w := 4, acc := .rw, reset := .const 0, min := 4, max := 15 }
def rngCqCfg_vec : Fld := { id := 320, reg := .rngCqCfg, lo := 5, w := 11, acc := .rw, reset := .const 0 }
def rngCqCfg_intCnt : Fld := { id := 321, reg := .rngCqCfg, lo := 16, w := 8, acc := .rw, reset := .const 1 }
def rngCqCfg_intUs : Fld := { id := 322, reg := .rngCqCfg, lo := 24, w := 16, acc := .rw, reset := .const 0 }
def rngCqStat_prod : Fld := { id := 323, reg := .rngCqStat, lo := 0, w := 32, acc := .ro, reset := .const 0 }
def rngCqStat_full : Fld := { id := 324, reg := .rngCqStat, lo := 32, w := 1, acc := .ro, reset := .const 0 }
def prtMap_part : Fld := { id := 325, reg := .prtMap, lo := 0, w := 64, acc := .rw, reset := .const 0 }
def prtCmd_part : Fld := { id := 326, reg := .prtCmd, lo := 0, w := 4, acc := .rw, reset := .const 0 }
def prtCmd_reset : Fld := { id := 327, reg := .prtCmd, lo := 4, w := 1, acc := .rw1s, reset := .const 0 }
def prtStat_resetting : Fld := { id := 328, reg := .prtStat, lo := 0, w := 16, acc := .ro, reset := .const 0 }
def prtHalf_stop : Fld := { id := 329, reg := .prtHalf, lo := 0, w := 1, acc := .rw1s, reset := .const 0 }
def prtHalf_start : Fld := { id := 330, reg := .prtHalf, lo := 1, w := 1, acc := .rw1s, reset := .const 0 }
def prtHalf_state : Fld := { id := 331, reg := .prtHalf, lo := 2, w := 2, acc := .ro, reset := .const 0 }
def prtHalf_status : Fld := { id := 332, reg := .prtHalf, lo := 4, w := 4, acc := .ro, reset := .const 0 }
def idnPart_partNum : Fld := { id := 333, reg := .idnPart, lo := 0, w := 16, acc := .ro, reset := .cfg }
def idnPart_variant : Fld := { id := 334, reg := .idnPart, lo := 16, w := 8, acc := .ro, reset := .cfg }
def idnPart_stepping : Fld := { id := 335, reg := .idnPart, lo := 24, w := 8, acc := .ro, reset := .cfg }
def idnSerial_serial : Fld := { id := 336, reg := .idnSerial, lo := 0, w := 64, acc := .ro, reset := .cfg }
def idnVer_fwVersion : Fld := { id := 337, reg := .idnVer, lo := 0, w := 32, acc := .ro, reset := .const 0 }
def idnVer_recSeq : Fld := { id := 338, reg := .idnVer, lo := 32, w := 32, acc := .ro, reset := .cfg }
def idnOvl_ovlSeq : Fld := { id := 339, reg := .idnOvl, lo := 0, w := 32, acc := .ro, reset := .const 0 }
def idnOvl_ovlOk : Fld := { id := 340, reg := .idnOvl, lo := 32, w := 1, acc := .ro, reset := .const 0 }
def idnState_panelState : Fld := { id := 341, reg := .idnState, lo := 0, w := 3, acc := .ro, reset := .const 0 }
def idnState_phase : Fld := { id := 342, reg := .idnState, lo := 3, w := 4, acc := .ro, reset := .const 0 }
def idnState_msDegraded : Fld := { id := 343, reg := .idnState, lo := 7, w := 1, acc := .ro, reset := .const 0 }
def idnState_vacant : Fld := { id := 344, reg := .idnState, lo := 8, w := 10, acc := .ro, reset := .const 0 }
def idnState_subst : Fld := { id := 345, reg := .idnState, lo := 18, w := 9, acc := .ro, reset := .const 0 }
def idnState_upMs : Fld := { id := 346, reg := .idnState, lo := 32, w := 32, acc := .ro, reset := .const 0 }
def idnCause_cause : Fld := { id := 347, reg := .idnCause, lo := 0, w := 3, acc := .ro, reset := .const 0 }
def idnStage_stage : Fld := { id := 348, reg := .idnStage, lo := 0, w := 4, acc := .ro, reset := .const 0xF }
def idnStage_failed : Fld := { id := 349, reg := .idnStage, lo := 4, w := 1, acc := .ro, reset := .const 0 }
def idnStage_code : Fld := { id := 350, reg := .idnStage, lo := 8, w := 8, acc := .ro, reset := .const 0 }
def idnStage_timeMs : Fld := { id := 351, reg := .idnStage, lo := 16, w := 32, acc := .ro, reset := .const 0 }
def idnKeyFp_fp : Fld := { id := 352, reg := .idnKeyFp, lo := 0, w := 64, acc := .ro, reset := .const 0 }
def prtArrRst_array : Fld := { id := 353, reg := .prtArrRst, lo := 0, w := 9, acc := .rw, reset := .const 0 }
def prtArrRst_go : Fld := { id := 354, reg := .prtArrRst, lo := 9, w := 1, acc := .rw1s, reset := .const 0 }
def prtArrRst_status : Fld := { id := 355, reg := .prtArrRst, lo := 12, w := 4, acc := .ro, reset := .const 0 }
def prtPackRst_pack : Fld := { id := 356, reg := .prtPackRst, lo := 0, w := 6, acc := .rw, reset := .const 0 }
def prtPackRst_go : Fld := { id := 357, reg := .prtPackRst, lo := 6, w := 1, acc := .rw1s, reset := .const 0 }
def prtPackRst_status : Fld := { id := 358, reg := .prtPackRst, lo := 12, w := 4, acc := .ro, reset := .const 0 }
def prtPanelRst_key : Fld := { id := 359, reg := .prtPanelRst, lo := 0, w := 8, acc := .wo, reset := .const 0 }
def fltCfg_hb10us : Fld := { id := 360, reg := .fltCfg, lo := 0, w := 8, acc := .rw, reset := .const 10, min := 1, max := 255 }
def fltCfg_stepFailLimit : Fld := { id := 361, reg := .fltCfg, lo := 8, w := 4, acc := .rw, reset := .const 2 }
def fltCfg_healthWarn : Fld := { id := 362, reg := .fltCfg, lo := 16, w := 10, acc := .rw, reset := .const 640 }
def fltCfg_conflictMs : Fld := { id := 363, reg := .fltCfg, lo := 32, w := 8, acc := .rw, reset := .const 5, min := 1, max := 255 }
def fltCfg_round100ms : Fld := { id := 364, reg := .fltCfg, lo := 40, w := 8, acc := .rw, reset := .const 10, min := 1, max := 255 }
def fltFence_array : Fld := { id := 365, reg := .fltFence, lo := 0, w := 9, acc := .rw, reset := .const 0 }
def fltFence_op : Fld := { id := 366, reg := .fltFence, lo := 9, w := 1, acc := .rw, reset := .const 0 }
def fltFence_go : Fld := { id := 367, reg := .fltFence, lo := 10, w := 1, acc := .rw1s, reset := .const 0 }
def fltFence_status : Fld := { id := 368, reg := .fltFence, lo := 12, w := 4, acc := .ro, reset := .const 0 }
def fltSwap_array : Fld := { id := 369, reg := .fltSwap, lo := 0, w := 9, acc := .rw, reset := .const 0 }
def fltSwap_copy : Fld := { id := 370, reg := .fltSwap, lo := 9, w := 1, acc := .rw, reset := .const 0 }
def fltSwap_go : Fld := { id := 371, reg := .fltSwap, lo := 10, w := 1, acc := .rw1s, reset := .const 0 }
def fltSwap_status : Fld := { id := 372, reg := .fltSwap, lo := 12, w := 4, acc := .ro, reset := .const 0 }
def fltPackCmd_pack : Fld := { id := 373, reg := .fltPackCmd, lo := 0, w := 6, acc := .rw, reset := .const 0 }
def fltPackCmd_retry : Fld := { id := 374, reg := .fltPackCmd, lo := 6, w := 1, acc := .rw1s, reset := .const 0 }
def fltPackCmd_status : Fld := { id := 375, reg := .fltPackCmd, lo := 8, w := 4, acc := .ro, reset := .const 0 }
def fltPackDark_dark : Fld := { id := 376, reg := .fltPackDark, lo := 0, w := 64, acc := .ro, reset := .const 0 }
def fltBackup_requested : Fld := { id := 377, reg := .fltBackup, lo := 0, w := 16, acc := .ro, reset := .const 0 }
def fltBackup_won : Fld := { id := 378, reg := .fltBackup, lo := 16, w := 16, acc := .ro, reset := .const 0 }
def fltBackup_refused : Fld := { id := 379, reg := .fltBackup, lo := 32, w := 16, acc := .ro, reset := .const 0 }
def fltBackup_failed : Fld := { id := 380, reg := .fltBackup, lo := 48, w := 16, acc := .ro, reset := .const 0 }
def fltFwCmd_activate : Fld := { id := 381, reg := .fltFwCmd, lo := 0, w := 1, acc := .rw1s, reset := .const 0 }
def fltFwCmd_abandon : Fld := { id := 382, reg := .fltFwCmd, lo := 1, w := 1, acc := .rw1s, reset := .const 0 }
def fltFwCmd_status : Fld := { id := 383, reg := .fltFwCmd, lo := 4, w := 4, acc := .ro, reset := .const 0 }
def fltFwStat_fwState : Fld := { id := 384, reg := .fltFwStat, lo := 0, w := 3, acc := .ro, reset := .const 0 }
def fltFwStat_round : Fld := { id := 385, reg := .fltFwStat, lo := 3, w := 3, acc := .ro, reset := .const 0 }
def fltFwStat_kind : Fld := { id := 386, reg := .fltFwStat, lo := 8, w := 3, acc := .ro, reset := .const 0 }
def fltFwStat_unitsMissing : Fld := { id := 387, reg := .fltFwStat, lo := 16, w := 16, acc := .ro, reset := .const 0 }
def fltFwStat_chunksHeld : Fld := { id := 388, reg := .fltFwStat, lo := 32, w := 16, acc := .ro, reset := .const 0 }
def fltFwStat_fwFenced : Fld := { id := 389, reg := .fltFwStat, lo := 48, w := 16, acc := .ro, reset := .const 0 }
def fltReserve_resPos : Fld := { id := 390, reg := .fltReserve, lo := 0, w := 4, acc := .ro, reset := .cfg }
def fltReserve_subK : Fld := { id := 391, reg := .fltReserve, lo := 4, w := 4, acc := .ro, reset := .const 0 }
def fltReserve_failedSites : Fld := { id := 392, reg := .fltReserve, lo := 8, w := 9, acc := .ro, reset := .const 0 }
def fltRestore_handle : Fld := { id := 393, reg := .fltRestore, lo := 0, w := 16, acc := .rw, reset := .const 0 }
def fltRestore_valid : Fld := { id := 394, reg := .fltRestore, lo := 16, w := 1, acc := .rw, reset := .const 0 }
def fltRestore_rerunSafe : Fld := { id := 395, reg := .fltRestore, lo := 17, w := 1, acc := .rw, reset := .const 0 }
def fltRestore_segOff : Fld := { id := 396, reg := .fltRestore, lo := 32, w := 32, acc := .rw, reset := .const 0 }
def fltRestoreMask_rgnMask : Fld := { id := 397, reg := .fltRestoreMask, lo := 0, w := 16, acc := .rw, reset := .const 0 }
def fltHealth_score : Fld := { id := 398, reg := .fltHealth, lo := 0, w := 10, acc := .ro, reset := .const 1023 }
def fltHealth_penalty : Fld := { id := 399, reg := .fltHealth, lo := 16, w := 32, acc := .ro, reset := .const 0 }
def pwrCfg_limit : Fld := { id := 400, reg := .pwrCfg, lo := 0, w := 9, acc := .rw, reset := .cfg, min := 120, max := 360 }
def pwrCfg_bgShare : Fld := { id := 401, reg := .pwrCfg, lo := 16, w := 10, acc := .rw, reset := .const 30, min := 5, max := 100 }
def pwrCfg_scrubMin : Fld := { id := 402, reg := .pwrCfg, lo := 32, w := 8, acc := .rw, reset := .const 60, min := 1, max := 255 }
def pwrStat_pIn : Fld := { id := 403, reg := .pwrStat, lo := 0, w := 16, acc := .ro, reset := .const 0 }
def pwrStat_limitEff : Fld := { id := 404, reg := .pwrStat, lo := 16, w := 16, acc := .ro, reset := .const 0 }
def pwrStat_cause : Fld := { id := 405, reg := .pwrStat, lo := 32, w := 3, acc := .ro, reset := .const 0 }
def pwrStat_brake : Fld := { id := 406, reg := .pwrStat, lo := 35, w := 1, acc := .ro, reset := .const 0 }
def pwrIn_vIn : Fld := { id := 407, reg := .pwrIn, lo := 0, w := 16, acc := .ro, reset := .const 0 }
def pwrIn_iIn : Fld := { id := 408, reg := .pwrIn, lo := 16, w := 16, acc := .ro, reset := .const 0 }
def pwrIn_cellsN : Fld := { id := 409, reg := .pwrIn, lo := 32, w := 16, acc := .ro, reset := .const 0 }
def pwrIn_cellsS : Fld := { id := 410, reg := .pwrIn, lo := 48, w := 16, acc := .ro, reset := .const 0 }
def pwrAlert_cond : Fld := { id := 411, reg := .pwrAlert, lo := 0, w := 8, acc := .ro, reset := .const 0 }
def pwrAlertMask_mask : Fld := { id := 412, reg := .pwrAlertMask, lo := 1, w := 6, acc := .rw, reset := .const 0 }
def pwrPack_afFloor : Fld := { id := 413, reg := .pwrPack, lo := 0, w := 6, acc := .rw, reset := .cfg }
def pwrPack_afCeil : Fld := { id := 414, reg := .pwrPack, lo := 8, w := 6, acc := .rw, reset := .cfg }
def pwrPack_rfFloor : Fld := { id := 415, reg := .pwrPack, lo := 16, w := 6, acc := .rw, reset := .cfg }
def pwrPack_rfCeil : Fld := { id := 416, reg := .pwrPack, lo := 24, w := 6, acc := .rw, reset := .cfg }
def pwrPack_avFloor : Fld := { id := 417, reg := .pwrPack, lo := 32, w := 7, acc := .rw, reset := .const 30 }
def pwrPack_avCeil : Fld := { id := 418, reg := .pwrPack, lo := 40, w := 7, acc := .rw, reset := .const 70 }
def pwrPack_pCeil : Fld := { id := 419, reg := .pwrPack, lo := 48, w := 16, acc := .rw, reset := .const 0 }
def pwrPackStat_pPack : Fld := { id := 420, reg := .pwrPackStat, lo := 0, w := 16, acc := .ro, reset := .const 0 }
def pwrPackStat_afSet : Fld := { id := 421, reg := .pwrPackStat, lo := 16, w := 6, acc := .ro, reset := .const 0 }
def pwrPackStat_rfSet : Fld := { id := 422, reg := .pwrPackStat, lo := 24, w := 6, acc := .ro, reset := .const 0 }
def pwrPackStat_avSet : Fld := { id := 423, reg := .pwrPackStat, lo := 32, w := 7, acc := .ro, reset := .const 0 }
def pwrPackStat_pcap : Fld := { id := 424, reg := .pwrPackStat, lo := 40, w := 6, acc := .ro, reset := .const 0 }
def pwrPackStat_overruled : Fld := { id := 425, reg := .pwrPackStat, lo := 48, w := 16, acc := .ro, reset := .const 0 }
def thmCfg_target : Fld := { id := 426, reg := .thmCfg, lo := 0, w := 8, acc := .rw, reset := .const 95, min := 60, max := 100 }
def thmCfg_crit : Fld := { id := 427, reg := .thmCfg, lo := 8, w := 8, acc := .rw, reset := .const 105 }
def thmCfg_stackTarget : Fld := { id := 428, reg := .thmCfg, lo := 16, w := 8, acc := .rw, reset := .const 90, min := 70, max := 95 }
def thmCfg_modelEn : Fld := { id := 429, reg := .thmCfg, lo := 24, w := 1, acc := .rw, reset := .const 1 }
def thmCool_tIn : Fld := { id := 430, reg := .thmCool, lo := 0, w := 16, acc := .ro, reset := .const 0 }
def thmCool_tOut : Fld := { id := 431, reg := .thmCool, lo := 16, w := 16, acc := .ro, reset := .const 0 }
def thmTile_tUsed : Fld := { id := 432, reg := .thmTile, lo := 0, w := 16, acc := .ro, reset := .const 0 }
def thmTile_tPred : Fld := { id := 433, reg := .thmTile, lo := 16, w := 16, acc := .ro, reset := .const 0 }
def thmTile_cap : Fld := { id := 434, reg := .thmTile, lo := 32, w := 6, acc := .ro, reset := .const 0 }
def thmTile_faultA : Fld := { id := 435, reg := .thmTile, lo := 38, w := 1, acc := .ro, reset := .const 0 }
def thmTile_faultB : Fld := { id := 436, reg := .thmTile, lo := 39, w := 1, acc := .ro, reset := .const 0 }
def thmTile_guard : Fld := { id := 437, reg := .thmTile, lo := 40, w := 1, acc := .ro, reset := .const 0 }
def thmRaw_readings : Fld := { id := 438, reg := .thmRaw, lo := 0, w := 64, acc := .ro, reset := .const 0 }
def thmHub_tDie : Fld := { id := 439, reg := .thmHub, lo := 0, w := 16, acc := .ro, reset := .const 0 }
def thmHub_tPred : Fld := { id := 440, reg := .thmHub, lo := 16, w := 16, acc := .ro, reset := .const 0 }
def thmHub_rateSteps : Fld := { id := 441, reg := .thmHub, lo := 32, w := 3, acc := .ro, reset := .const 0 }
def monSitCmd_raise : Fld := { id := 442, reg := .monSitCmd, lo := 0, w := 1, acc := .wo, reset := .const 0 }
def monSitCmd_all : Fld := { id := 443, reg := .monSitCmd, lo := 1, w := 1, acc := .wo, reset := .const 0 }
def monSitCmd_span : Fld := { id := 444, reg := .monSitCmd, lo := 2, w := 1, acc := .wo, reset := .const 0 }
def monSitCmd_resume : Fld := { id := 445, reg := .monSitCmd, lo := 3, w := 1, acc := .wo, reset := .const 0 }
def monSitStat_state : Fld := { id := 446, reg := .monSitStat, lo := 0, w := 2, acc := .ro, reset := .const 0 }
def monSitStat_pin : Fld := { id := 447, reg := .monSitStat, lo := 2, w := 1, acc := .ro, reset := .const 0 }
def monSitStat_latch : Fld := { id := 448, reg := .monSitStat, lo := 3, w := 1, acc := .ro, reset := .const 0 }
def monSitStat_source : Fld := { id := 449, reg := .monSitStat, lo := 4, w := 3, acc := .ro, reset := .const 0 }
def monSitStat_sitId : Fld := { id := 450, reg := .monSitStat, lo := 32, w := 32, acc := .ro, reset := .const 0 }
def monSitCfg_pinAll : Fld := { id := 451, reg := .monSitCfg, lo := 0, w := 1, acc := .rw, reset := .cfg }
def monSitCfg_spanInEn : Fld := { id := 452, reg := .monSitCfg, lo := 1, w := 1, acc := .rw, reset := .cfg }
def monSitCfg_spanOut : Fld := { id := 453, reg := .monSitCfg, lo := 2, w := 1, acc := .rw, reset := .const 1 }
def monRoBase_addr : Fld := { id := 454, reg := .monRoBase, lo := 0, w := 64, acc := .rw, reset := .const 0 }
def monRoLen_pages : Fld := { id := 455, reg := .monRoLen, lo := 0, w := 32, acc := .rw, reset := .const 0 }
def monRoSel_spaces : Fld := { id := 456, reg := .monRoSel, lo := 0, w := 12, acc := .rw, reset := .const 0xFFF }
def monRoSel_allUnits : Fld := { id := 457, reg := .monRoSel, lo := 12, w := 1, acc := .rw, reset := .const 1 }
def monRoSel_unit : Fld := { id := 458, reg := .monRoSel, lo := 16, w := 16, acc := .rw, reset := .const 0 }
def monRoCmd_go : Fld := { id := 459, reg := .monRoCmd, lo := 0, w := 1, acc := .rw1s, reset := .const 0 }
def monRoCmd_abort : Fld := { id := 460, reg := .monRoCmd, lo := 1, w := 1, acc := .rw1s, reset := .const 0 }
def monRoCmd_port : Fld := { id := 461, reg := .monRoCmd, lo := 2, w := 1, acc := .rw, reset := .const 0 }
def monRoStat_lines : Fld := { id := 462, reg := .monRoStat, lo := 0, w := 32, acc := .ro, reset := .const 0 }
def monRoStat_status : Fld := { id := 463, reg := .monRoStat, lo := 32, w := 3, acc := .ro, reset := .const 0 }

end F

/-- The fields of a register. -/
def regFields : Reg → List Fld
  | .arrFlags => [F.arrFlags_invalid, F.arrFlags_divzero, F.arrFlags_overflow, F.arrFlags_underflow, F.arrFlags_inexact, F.arrFlags_saturated, F.arrFlags_metaErr, F.arrFlags_gateNonfinite, F.arrFlags_gateOverflow, F.arrFlags_satCount]
  | .tmRgn => [F.tmRgn_valid, F.tmRgn_prot, F.tmRgn_wperm, F.tmRgn_rperm, F.tmRgn_fieldW, F.tmRgn_spanW, F.tmRgn_spill, F.tmRgn_initBusy, F.tmRgn_base, F.tmRgn_size, F.tmRgn_owner]
  | .tmCtr => [F.tmCtr_value]
  | .tmCtrSat => [F.tmCtrSat_sat]
  | .tmErrCnt => [F.tmErrCnt_corrCnt, F.tmErrCnt_uncorrCnt, F.tmErrCnt_parCnt]
  | .tmErrLog => [F.tmErrLog_valid, F.tmErrLog_kind, F.tmErrLog_port, F.tmErrLog_line, F.tmErrLog_time]
  | .tmErrThresh => [F.tmErrThresh_corrStep]
  | .tmDeny => [F.tmDeny_denyCnt]
  | .pckTblDesc => [F.pckTblDesc_desc]
  | .pckTblCmd => [F.pckTblCmd_go, F.pckTblCmd_op, F.pckTblCmd_pack, F.pckTblCmd_status]
  | .hubCfg => [F.hubCfg_fetchEn, F.hubCfg_hintDis, F.hubCfg_scrubEn, F.hubCfg_scrubHours, F.hubCfg_mirrorReadEn]
  | .hubState => [F.hubState_stackState, F.hubState_promoted, F.hubState_resyncBusy]
  | .hubErrCnt => [F.hubErrCnt_corrCnt, F.hubErrCnt_uncorrCnt, F.hubErrCnt_mirrorFix]
  | .hubErrCnt2 => [F.hubErrCnt2_odeccCnt, F.hubErrCnt2_cacheUncorr, F.hubErrCnt2_mirrorLost]
  | .hubErrLog => [F.hubErrLog_valid, F.hubErrLog_kind, F.hubErrLog_block]
  | .hubErrTime => [F.hubErrTime_time]
  | .hubHits => [F.hubHits_hits]
  | .hubMisses => [F.hubMisses_misses]
  | .hubPfUsed => [F.hubPfUsed_used]
  | .hubPfWasted => [F.hubPfWasted_wasted]
  | .hubTemp => [F.hubTemp_degC, F.hubTemp_tvalid]
  | .fabCfg => [F.fabCfg_zrcEn, F.fabCfg_pinEn, F.fabCfg_reqTmo]
  | .fabArb => [F.fabArb_wTc1, F.fabArb_wTc2, F.fabArb_wTc3]
  | .fabState => [F.fabState_maskGen, F.fabState_escMode, F.fabState_drainBusy]
  | .fabMaskSite => [F.fabMaskSite_dead]
  | .fabMaskLink => [F.fabMaskLink_dead]
  | .fabSite => [F.fabSite_site, F.fabSite_state, F.fabSite_fenced]
  | .fabGrpStage => [F.fabGrpStage_mask]
  | .fabGrpCmd => [F.fabGrpCmd_go, F.fabGrpCmd_op, F.fabGrpCmd_group, F.fabGrpCmd_status]
  | .fabPin => [F.fabPin_srcArray, F.fabPin_dstArray, F.fabPin_class, F.fabPin_valid]
  | .fabRtrCnt => [F.fabRtrCnt_parErr, F.fabRtrCnt_replays, F.fabRtrCnt_absorbed, F.fabRtrCnt_badFwd]
  | .chCfg => [F.chCfg_suspectUs, F.chCfg_tmo10us]
  | .chEp => [F.chEp_role, F.chEp_autoOpen, F.chEp_hostOk, F.chEp_peerArray, F.chEp_peerEp, F.chEp_accLine, F.chEp_elems16, F.chEp_inFmt]
  | .chEpState => [F.chEpState_state, F.chEpState_suspect, F.chEpState_blocked, F.chEpState_queued, F.chEpState_spilled, F.chEpState_batch, F.chEpState_epoch, F.chEpState_open, F.chEpState_close]
  | .chEpCnt => [F.chEpCnt_items, F.chEpCnt_discard, F.chEpCnt_tmo]
  | .admCfg => [F.admCfg_ejectGuard]
  | .admSrc => [F.admSrc_rate, F.admSrc_burst]
  | .admTotal => [F.admTotal_rateSum, F.admTotal_burstSum]
  | .admLimit => [F.admLimit_rateLim, F.admLimit_burstLim]
  | .admRefused => [F.admRefused_src, F.admRefused_count]
  | .admShape => [F.admShape_waits, F.admShape_maxWait, F.admShape_denied]
  | .fldCfg => [F.fldCfg_concEn, F.fldCfg_hostRxEn, F.fldCfg_ptpDomain, F.fldCfg_c37Udp, F.fldCfg_sptUdp]
  | .fldConc => [F.fldConc_concGroup, F.fldConc_concPort, F.fldConc_concWait]
  | .fldConcStat => [F.fldConcStat_snapSeq, F.fldConcStat_concLate, F.fldConcStat_missing]
  | .fldSeqEpoch => [F.fldSeqEpoch_seqEpoch]
  | .fldPort => [F.fldPort_en, F.fldPort_speed, F.fldPort_fec25, F.fldPort_anEn, F.fldPort_ptpEn, F.fldPort_vlanId, F.fldPort_pcp, F.fldPort_ipv4]
  | .fldMac => [F.fldMac_mac]
  | .fldPortStat => [F.fldPortStat_link, F.fldPortStat_speedAct, F.fldPortStat_fecAct]
  | .fldPortCnt => [F.fldPortCnt_rxFrames, F.fldPortCnt_rxBad, F.fldPortCnt_hostDrop]
  | .fldSptCnt => [F.fldSptCnt_sent, F.fldSptCnt_late, F.fldSptCnt_refused]
  | .fldStrm => [F.fldStrm_valid, F.fldStrm_kind, F.fldStrm_ports, F.fldStrm_fifo, F.fldStrm_conc, F.fldStrm_fifoEn, F.fldStrm_id, F.fldStrm_rateBase]
  | .fldFifo => [F.fldFifo_en, F.fldFifo_array, F.fldFifo_ctr, F.fldFifo_ringBase, F.fldFifo_nslots, F.fldFifo_idleUs]
  | .fldFifoStat => [F.fldFifoStat_used, F.fldFifoStat_waiting, F.fldFifoStat_gapCnt, F.fldFifoStat_failCnt]
  | .fldErr => [F.fldErr_corrCnt, F.fldErr_uncorrCnt]
  | .fldTgt => [F.fldTgt_dstMac, F.fldTgt_port, F.fldTgt_valid, F.fldTgt_key]
  | .fldTgt2 => [F.fldTgt2_dstIp, F.fldTgt2_dstUdp, F.fldTgt2_srcUdp]
  | .fldSptBind => [F.fldSptBind_array, F.fldSptBind_ep, F.fldSptBind_valid, F.fldSptBind_die]
  | .fldKeyStage => [F.fldKeyStage_keyword]
  | .fldKeyCmd => [F.fldKeyCmd_slot, F.fldKeyCmd_commit, F.fldKeyCmd_erase, F.fldKeyCmd_newId]
  | .fldKeyId => [F.fldKeyId_keyId, F.fldKeyId_loaded]
  | .fldIn => [F.fldIn_valid, F.fldIn_array, F.fldIn_ctr, F.fldIn_ringBase, F.fldIn_nslots, F.fldIn_key]
  | .fldInSeq => [F.fldInSeq_lastSeq]
  | .fldInCnt => [F.fldInCnt_authFail, F.fldInCnt_replay, F.fldInCnt_deliverFail, F.fldInCnt_toHost]
  | .lnkCfg => [F.lnkCfg_panelId, F.lnkCfg_fwdEn, F.lnkCfg_spanTmo, F.lnkCfg_quiesceMs, F.lnkCfg_failoverUs]
  | .lnkPort => [F.lnkPort_en, F.lnkPort_dateline, F.lnkPort_spanId, F.lnkPort_pair, F.lnkPort_halfOk, F.lnkPort_retrain, F.lnkPort_uncorrLimit]
  | .lnkStat => [F.lnkStat_state, F.lnkStat_half, F.lnkStat_sparesRx, F.lnkStat_sparesTx, F.lnkStat_peerPanel, F.lnkStat_peerPort, F.lnkStat_rttNs]
  | .lnkLane => [F.lnkLane_failed]
  | .lnkCnt => [F.lnkCnt_corrCw, F.lnkCnt_uncorrCw, F.lnkCnt_retrains]
  | .lnkCnt2 => [F.lnkCnt2_lost, F.lnkCnt2_unreach, F.lnkCnt2_hopsExpired, F.lnkCnt2_tc0Held]
  | .lnkRoute => [F.lnkRoute_primary, F.lnkRoute_pValid, F.lnkRoute_alternate, F.lnkRoute_aValid]
  | .lnkBind => [F.lnkBind_array, F.lnkBind_ep, F.lnkBind_valid, F.lnkBind_kind, F.lnkBind_via, F.lnkBind_dstPanel, F.lnkBind_dstEntry]
  | .lnkIn => [F.lnkIn_valid, F.lnkIn_array, F.lnkIn_ctr, F.lnkIn_ringBase, F.lnkIn_nslots]
  | .clkCfg => [F.clkCfg_timeSrc, F.clkCfg_refEn, F.clkCfg_ppsOutEn, F.clkCfg_ppsOutForce, F.clkCfg_ppsOutWidth, F.clkCfg_ppsOutComp, F.clkCfg_ppsInComp]
  | .clkStat => [F.clkStat_timeState, F.clkStat_spineSrc, F.clkStat_ppsInOk, F.clkStat_fallbackIsl, F.clkStat_offsetPs]
  | .clkTime => [F.clkTime_ns]
  | .clkTimeFrac => [F.clkTimeFrac_frac]
  | .clkSet => [F.clkSet_ns]
  | .clkCmd => [F.clkCmd_set]
  | .clkUtc => [F.clkUtc_utcOffset, F.clkUtc_nextOffset]
  | .clkLeap => [F.clkLeap_leapTime]
  | .clkPpsInTs => [F.clkPpsInTs_ns]
  | .clkMarginCfg => [F.clkMarginCfg_warnPs, F.clkMarginCfg_critPs]
  | .clkIsl => [F.clkIsl_mode, F.clkIsl_holdover, F.clkIsl_dark, F.clkIsl_corrErr, F.clkIsl_switches, F.clkIsl_missed, F.clkIsl_holdCnt]
  | .clkMargin => [F.clkMargin_minPs, F.clkMargin_minSensor, F.clkMargin_warnCnt, F.clkMargin_stretchWin, F.clkMargin_longWin]
  | .hifCfg => [F.hifCfg_hostId, F.hifCfg_roEn]
  | .hifStat => [F.hifStat_speed, F.hifStat_width, F.hifStat_flit]
  | .hifErr => [F.hifErr_badAcc, F.hifErr_hostFault, F.hifErr_discarded]
  | .rngDbBase => [F.rngDbBase_addr]
  | .rngDbCfg => [F.rngDbCfg_en, F.rngDbCfg_interval]
  | .rngEvtBase => [F.rngEvtBase_addr]
  | .rngEvtCfg => [F.rngEvtCfg_en, F.rngEvtCfg_log2Size, F.rngEvtCfg_port, F.rngEvtCfg_telEn, F.rngEvtCfg_vec, F.rngEvtCfg_intCnt, F.rngEvtCfg_intUs, F.rngEvtCfg_telMs]
  | .rngEvtStat => [F.rngEvtStat_prod, F.rngEvtStat_lostBark, F.rngEvtStat_lostTel]
  | .rngFrxBase => [F.rngFrxBase_addr]
  | .rngFrxCfg => [F.rngFrxCfg_en, F.rngFrxCfg_log2Size, F.rngFrxCfg_port, F.rngFrxCfg_vec, F.rngFrxCfg_intCnt]
  | .rngSqBase => [F.rngSqBase_addr]
  | .rngSqCfg => [F.rngSqCfg_en, F.rngSqCfg_log2Size, F.rngSqCfg_cq, F.rngSqCfg_part, F.rngSqCfg_priv]
  | .rngSqStat => [F.rngSqStat_cons, F.rngSqStat_inflight, F.rngSqStat_err]
  | .rngCqBase => [F.rngCqBase_addr]
  | .rngCqCfg => [F.rngCqCfg_en, F.rngCqCfg_log2Size, F.rngCqCfg_vec, F.rngCqCfg_intCnt, F.rngCqCfg_intUs]
  | .rngCqStat => [F.rngCqStat_prod, F.rngCqStat_full]
  | .prtMap => [F.prtMap_part]
  | .prtCmd => [F.prtCmd_part, F.prtCmd_reset]
  | .prtStat => [F.prtStat_resetting]
  | .prtHalf => [F.prtHalf_stop, F.prtHalf_start, F.prtHalf_state, F.prtHalf_status]
  | .idnPart => [F.idnPart_partNum, F.idnPart_variant, F.idnPart_stepping]
  | .idnSerial => [F.idnSerial_serial]
  | .idnVer => [F.idnVer_fwVersion, F.idnVer_recSeq]
  | .idnOvl => [F.idnOvl_ovlSeq, F.idnOvl_ovlOk]
  | .idnState => [F.idnState_panelState, F.idnState_phase, F.idnState_msDegraded, F.idnState_vacant, F.idnState_subst, F.idnState_upMs]
  | .idnCause => [F.idnCause_cause]
  | .idnStage => [F.idnStage_stage, F.idnStage_failed, F.idnStage_code, F.idnStage_timeMs]
  | .idnKeyFp => [F.idnKeyFp_fp]
  | .prtArrRst => [F.prtArrRst_array, F.prtArrRst_go, F.prtArrRst_status]
  | .prtPackRst => [F.prtPackRst_pack, F.prtPackRst_go, F.prtPackRst_status]
  | .prtPanelRst => [F.prtPanelRst_key]
  | .fltCfg => [F.fltCfg_hb10us, F.fltCfg_stepFailLimit, F.fltCfg_healthWarn, F.fltCfg_conflictMs, F.fltCfg_round100ms]
  | .fltFence => [F.fltFence_array, F.fltFence_op, F.fltFence_go, F.fltFence_status]
  | .fltSwap => [F.fltSwap_array, F.fltSwap_copy, F.fltSwap_go, F.fltSwap_status]
  | .fltPackCmd => [F.fltPackCmd_pack, F.fltPackCmd_retry, F.fltPackCmd_status]
  | .fltPackDark => [F.fltPackDark_dark]
  | .fltBackup => [F.fltBackup_requested, F.fltBackup_won, F.fltBackup_refused, F.fltBackup_failed]
  | .fltFwCmd => [F.fltFwCmd_activate, F.fltFwCmd_abandon, F.fltFwCmd_status]
  | .fltFwStat => [F.fltFwStat_fwState, F.fltFwStat_round, F.fltFwStat_kind, F.fltFwStat_unitsMissing, F.fltFwStat_chunksHeld, F.fltFwStat_fwFenced]
  | .fltReserve => [F.fltReserve_resPos, F.fltReserve_subK, F.fltReserve_failedSites]
  | .fltRestore => [F.fltRestore_handle, F.fltRestore_valid, F.fltRestore_rerunSafe, F.fltRestore_segOff]
  | .fltRestoreMask => [F.fltRestoreMask_rgnMask]
  | .fltHealth => [F.fltHealth_score, F.fltHealth_penalty]
  | .pwrCfg => [F.pwrCfg_limit, F.pwrCfg_bgShare, F.pwrCfg_scrubMin]
  | .pwrStat => [F.pwrStat_pIn, F.pwrStat_limitEff, F.pwrStat_cause, F.pwrStat_brake]
  | .pwrIn => [F.pwrIn_vIn, F.pwrIn_iIn, F.pwrIn_cellsN, F.pwrIn_cellsS]
  | .pwrAlert => [F.pwrAlert_cond]
  | .pwrAlertMask => [F.pwrAlertMask_mask]
  | .pwrPack => [F.pwrPack_afFloor, F.pwrPack_afCeil, F.pwrPack_rfFloor, F.pwrPack_rfCeil, F.pwrPack_avFloor, F.pwrPack_avCeil, F.pwrPack_pCeil]
  | .pwrPackStat => [F.pwrPackStat_pPack, F.pwrPackStat_afSet, F.pwrPackStat_rfSet, F.pwrPackStat_avSet, F.pwrPackStat_pcap, F.pwrPackStat_overruled]
  | .thmCfg => [F.thmCfg_target, F.thmCfg_crit, F.thmCfg_stackTarget, F.thmCfg_modelEn]
  | .thmCool => [F.thmCool_tIn, F.thmCool_tOut]
  | .thmTile => [F.thmTile_tUsed, F.thmTile_tPred, F.thmTile_cap, F.thmTile_faultA, F.thmTile_faultB, F.thmTile_guard]
  | .thmRaw => [F.thmRaw_readings]
  | .thmHub => [F.thmHub_tDie, F.thmHub_tPred, F.thmHub_rateSteps]
  | .monSitCmd => [F.monSitCmd_raise, F.monSitCmd_all, F.monSitCmd_span, F.monSitCmd_resume]
  | .monSitStat => [F.monSitStat_state, F.monSitStat_pin, F.monSitStat_latch, F.monSitStat_source, F.monSitStat_sitId]
  | .monSitCfg => [F.monSitCfg_pinAll, F.monSitCfg_spanInEn, F.monSitCfg_spanOut]
  | .monRoBase => [F.monRoBase_addr]
  | .monRoLen => [F.monRoLen_pages]
  | .monRoSel => [F.monRoSel_spaces, F.monRoSel_allUnits, F.monRoSel_unit]
  | .monRoCmd => [F.monRoCmd_go, F.monRoCmd_abort, F.monRoCmd_port]
  | .monRoStat => [F.monRoStat_lines, F.monRoStat_status]

/-- Where a register lies in BAR0 (R426): offset, outer count and stride, inner count and stride, width in bytes, and whether each
port has its own (R424). The index of an instance is outer × inner count + inner. -/
structure RegPlace where
  off : Nat
  oc : Nat
  os : Nat
  ic : Nat
  is : Nat
  bytes : Nat
  perPort : Bool
  deriving DecidableEq, Repr

def regPlace : Reg → RegPlace
  | .arrFlags => ⟨0x1200000, 512, 0x1000, 1, 0, 4, false⟩
  | .tmRgn => ⟨0x1200080, 512, 0x1000, 16, 8, 8, false⟩
  | .tmCtr => ⟨0x1200100, 512, 0x1000, 64, 4, 4, false⟩
  | .tmCtrSat => ⟨0x1200008, 512, 0x1000, 1, 0, 8, false⟩
  | .tmErrCnt => ⟨0x1200010, 512, 0x1000, 1, 0, 8, false⟩
  | .tmErrLog => ⟨0x1200018, 512, 0x1000, 1, 0, 8, false⟩
  | .tmErrThresh => ⟨0x1200020, 512, 0x1000, 1, 0, 4, false⟩
  | .tmDeny => ⟨0x1200024, 512, 0x1000, 1, 0, 4, false⟩
  | .pckTblDesc => ⟨0x1000000, 1, 0x0, 8, 8, 8, false⟩
  | .pckTblCmd => ⟨0x1000040, 1, 0x0, 1, 0, 4, false⟩
  | .hubCfg => ⟨0x1010000, 64, 0x1000, 1, 0, 4, false⟩
  | .hubState => ⟨0x1010004, 64, 0x1000, 1, 0, 4, false⟩
  | .hubErrCnt => ⟨0x1010008, 64, 0x1000, 1, 0, 8, false⟩
  | .hubErrCnt2 => ⟨0x1010010, 64, 0x1000, 1, 0, 8, false⟩
  | .hubErrLog => ⟨0x1010018, 64, 0x1000, 1, 0, 8, false⟩
  | .hubErrTime => ⟨0x1010020, 64, 0x1000, 1, 0, 8, false⟩
  | .hubHits => ⟨0x1010028, 64, 0x1000, 1, 0, 8, false⟩
  | .hubMisses => ⟨0x1010030, 64, 0x1000, 1, 0, 8, false⟩
  | .hubPfUsed => ⟨0x1010038, 64, 0x1000, 1, 0, 8, false⟩
  | .hubPfWasted => ⟨0x1010040, 64, 0x1000, 1, 0, 8, false⟩
  | .hubTemp => ⟨0x1010048, 64, 0x1000, 1, 0, 4, false⟩
  | .fabCfg => ⟨0x80000, 1, 0x0, 1, 0, 4, false⟩
  | .fabArb => ⟨0x80008, 1, 0x0, 1, 0, 4, false⟩
  | .fabState => ⟨0x80010, 1, 0x0, 1, 0, 4, false⟩
  | .fabMaskSite => ⟨0x80100, 1, 0x0, 9, 8, 8, false⟩
  | .fabMaskLink => ⟨0x80200, 1, 0x0, 18, 8, 8, false⟩
  | .fabSite => ⟨0x81000, 1, 0x0, 512, 4, 4, false⟩
  | .fabGrpStage => ⟨0x80300, 1, 0x0, 8, 8, 8, false⟩
  | .fabGrpCmd => ⟨0x80018, 1, 0x0, 1, 0, 4, false⟩
  | .fabPin => ⟨0x80400, 1, 0x0, 128, 4, 4, false⟩
  | .fabRtrCnt => ⟨0x82000, 1, 0x0, 576, 8, 8, false⟩
  | .chCfg => ⟨0x1200028, 512, 0x1000, 1, 0, 8, false⟩
  | .chEp => ⟨0x1200200, 512, 0x1000, 64, 8, 8, false⟩
  | .chEpState => ⟨0x1200400, 512, 0x1000, 64, 8, 8, false⟩
  | .chEpCnt => ⟨0x1200600, 512, 0x1000, 64, 8, 8, false⟩
  | .admCfg => ⟨0x40000, 1, 0x0, 1, 0, 4, false⟩
  | .admSrc => ⟨0x41000, 1, 0x0, 524, 4, 4, false⟩
  | .admTotal => ⟨0x40008, 1, 0x0, 1, 0, 8, false⟩
  | .admLimit => ⟨0x40010, 1, 0x0, 1, 0, 8, false⟩
  | .admRefused => ⟨0x40018, 1, 0x0, 1, 0, 4, false⟩
  | .admShape => ⟨0x42000, 1, 0x0, 524, 8, 8, false⟩
  | .fldCfg => ⟨0xa0000, 1, 0x0, 1, 0, 8, false⟩
  | .fldConc => ⟨0xa0008, 1, 0x0, 1, 0, 8, false⟩
  | .fldConcStat => ⟨0xa0010, 1, 0x0, 1, 0, 8, false⟩
  | .fldSeqEpoch => ⟨0xa0018, 1, 0x0, 1, 0, 4, false⟩
  | .fldPort => ⟨0xa0100, 1, 0x0, 8, 8, 8, false⟩
  | .fldMac => ⟨0xa0200, 1, 0x0, 8, 8, 8, false⟩
  | .fldPortStat => ⟨0xa0300, 1, 0x0, 8, 8, 4, false⟩
  | .fldPortCnt => ⟨0xa0400, 1, 0x0, 8, 8, 8, false⟩
  | .fldSptCnt => ⟨0xa0500, 1, 0x0, 8, 8, 8, false⟩
  | .fldStrm => ⟨0xa1000, 2, 0x800, 256, 8, 8, false⟩
  | .fldFifo => ⟨0xa2000, 2, 0x100, 32, 8, 8, false⟩
  | .fldFifoStat => ⟨0xa2200, 2, 0x100, 32, 8, 8, false⟩
  | .fldErr => ⟨0xa0600, 1, 0x0, 2, 8, 8, false⟩
  | .fldTgt => ⟨0xa4000, 2, 0x2000, 1024, 8, 8, false⟩
  | .fldTgt2 => ⟨0xa8000, 2, 0x2000, 1024, 8, 8, false⟩
  | .fldSptBind => ⟨0xa0c00, 1, 0x0, 256, 4, 4, false⟩
  | .fldKeyStage => ⟨0xa0900, 2, 0x40, 8, 8, 8, false⟩
  | .fldKeyCmd => ⟨0xa0800, 1, 0x0, 2, 4, 4, false⟩
  | .fldKeyId => ⟨0xa0a00, 2, 0x100, 64, 4, 4, false⟩
  | .fldIn => ⟨0xa2400, 2, 0x200, 64, 8, 8, false⟩
  | .fldInSeq => ⟨0xa2800, 2, 0x200, 64, 8, 8, false⟩
  | .fldInCnt => ⟨0xa0700, 1, 0x0, 2, 8, 8, false⟩
  | .lnkCfg => ⟨0x90000, 1, 0x0, 1, 0, 8, false⟩
  | .lnkPort => ⟨0x90100, 1, 0x0, 8, 8, 8, false⟩
  | .lnkStat => ⟨0x90200, 1, 0x0, 8, 8, 8, false⟩
  | .lnkLane => ⟨0x90300, 1, 0x0, 8, 8, 8, false⟩
  | .lnkCnt => ⟨0x90400, 1, 0x0, 8, 8, 8, false⟩
  | .lnkCnt2 => ⟨0x90500, 1, 0x0, 8, 8, 8, false⟩
  | .lnkRoute => ⟨0x94000, 1, 0x0, 4096, 4, 4, false⟩
  | .lnkBind => ⟨0x91000, 1, 0x0, 256, 8, 8, false⟩
  | .lnkIn => ⟨0x92000, 8, 0x200, 64, 8, 8, false⟩
  | .clkCfg => ⟨0x50000, 1, 0x0, 1, 0, 8, false⟩
  | .clkStat => ⟨0x50008, 1, 0x0, 1, 0, 8, false⟩
  | .clkTime => ⟨0x50010, 1, 0x0, 1, 0, 8, false⟩
  | .clkTimeFrac => ⟨0x50018, 1, 0x0, 1, 0, 4, false⟩
  | .clkSet => ⟨0x50020, 1, 0x0, 1, 0, 8, false⟩
  | .clkCmd => ⟨0x50028, 1, 0x0, 1, 0, 4, false⟩
  | .clkUtc => ⟨0x50030, 1, 0x0, 1, 0, 8, false⟩
  | .clkLeap => ⟨0x50038, 1, 0x0, 1, 0, 8, false⟩
  | .clkPpsInTs => ⟨0x50040, 1, 0x0, 1, 0, 8, false⟩
  | .clkMarginCfg => ⟨0x50048, 1, 0x0, 1, 0, 4, false⟩
  | .clkIsl => ⟨0x54000, 1, 0x0, 1230, 8, 8, false⟩
  | .clkMargin => ⟨0x58000, 1, 0x0, 1230, 8, 8, false⟩
  | .hifCfg => ⟨0x10000, 1, 0x0, 1, 0, 4, true⟩
  | .hifStat => ⟨0x10008, 1, 0x0, 1, 0, 4, true⟩
  | .hifErr => ⟨0x10010, 1, 0x0, 1, 0, 8, true⟩
  | .rngDbBase => ⟨0x20000, 1, 0x0, 1, 0, 8, true⟩
  | .rngDbCfg => ⟨0x20008, 1, 0x0, 1, 0, 4, true⟩
  | .rngEvtBase => ⟨0x20010, 1, 0x0, 1, 0, 8, false⟩
  | .rngEvtCfg => ⟨0x20018, 1, 0x0, 1, 0, 8, false⟩
  | .rngEvtStat => ⟨0x20020, 1, 0x0, 1, 0, 8, false⟩
  | .rngFrxBase => ⟨0x20028, 1, 0x0, 1, 0, 8, false⟩
  | .rngFrxCfg => ⟨0x20030, 1, 0x0, 1, 0, 8, false⟩
  | .rngSqBase => ⟨0x21000, 1, 0x0, 256, 8, 8, true⟩
  | .rngSqCfg => ⟨0x21800, 1, 0x0, 256, 8, 8, true⟩
  | .rngSqStat => ⟨0x22000, 1, 0x0, 256, 8, 8, true⟩
  | .rngCqBase => ⟨0x23000, 1, 0x0, 128, 8, 8, true⟩
  | .rngCqCfg => ⟨0x23400, 1, 0x0, 128, 8, 8, true⟩
  | .rngCqStat => ⟨0x23800, 1, 0x0, 128, 8, 8, true⟩
  | .prtMap => ⟨0x30000, 1, 0x0, 4, 8, 8, false⟩
  | .prtCmd => ⟨0x30020, 1, 0x0, 1, 0, 4, false⟩
  | .prtStat => ⟨0x30028, 1, 0x0, 1, 0, 4, false⟩
  | .prtHalf => ⟨0x30048, 1, 0x0, 1, 0, 4, false⟩
  | .idnPart => ⟨0x0, 1, 0x0, 1, 0, 4, false⟩
  | .idnSerial => ⟨0x8, 1, 0x0, 1, 0, 8, false⟩
  | .idnVer => ⟨0x10, 1, 0x0, 1, 0, 8, false⟩
  | .idnOvl => ⟨0x18, 1, 0x0, 1, 0, 8, false⟩
  | .idnState => ⟨0x20, 1, 0x0, 1, 0, 8, false⟩
  | .idnCause => ⟨0x28, 1, 0x0, 1, 0, 8, false⟩
  | .idnStage => ⟨0x100, 1, 0x0, 28, 8, 8, false⟩
  | .idnKeyFp => ⟨0x200, 1, 0x0, 8, 8, 8, false⟩
  | .prtArrRst => ⟨0x30030, 1, 0x0, 1, 0, 4, false⟩
  | .prtPackRst => ⟨0x30038, 1, 0x0, 1, 0, 4, false⟩
  | .prtPanelRst => ⟨0x30040, 1, 0x0, 1, 0, 4, false⟩
  | .fltCfg => ⟨0x1080000, 1, 0x0, 1, 0, 8, false⟩
  | .fltFence => ⟨0x1080008, 1, 0x0, 1, 0, 4, false⟩
  | .fltSwap => ⟨0x1080010, 1, 0x0, 1, 0, 4, false⟩
  | .fltPackCmd => ⟨0x1080018, 1, 0x0, 1, 0, 4, false⟩
  | .fltPackDark => ⟨0x1080020, 1, 0x0, 1, 0, 8, false⟩
  | .fltBackup => ⟨0x1080028, 1, 0x0, 1, 0, 8, false⟩
  | .fltFwCmd => ⟨0x1080030, 1, 0x0, 1, 0, 4, false⟩
  | .fltFwStat => ⟨0x1080038, 1, 0x0, 1, 0, 8, false⟩
  | .fltReserve => ⟨0x1081000, 1, 0x0, 64, 8, 8, false⟩
  | .fltRestore => ⟨0x1082000, 1, 0x0, 512, 16, 8, false⟩
  | .fltRestoreMask => ⟨0x1082008, 1, 0x0, 512, 16, 8, false⟩
  | .fltHealth => ⟨0x1084000, 1, 0x0, 654, 8, 8, false⟩
  | .pwrCfg => ⟨0x60000, 1, 0x0, 1, 0, 8, false⟩
  | .pwrStat => ⟨0x60008, 1, 0x0, 1, 0, 8, false⟩
  | .pwrIn => ⟨0x60010, 1, 0x0, 1, 0, 8, false⟩
  | .pwrAlert => ⟨0x60018, 1, 0x0, 1, 0, 4, false⟩
  | .pwrAlertMask => ⟨0x60020, 1, 0x0, 1, 0, 4, false⟩
  | .pwrPack => ⟨0x61000, 1, 0x0, 64, 8, 8, false⟩
  | .pwrPackStat => ⟨0x62000, 1, 0x0, 64, 8, 8, false⟩
  | .thmCfg => ⟨0x70000, 1, 0x0, 1, 0, 4, false⟩
  | .thmCool => ⟨0x70008, 1, 0x0, 1, 0, 4, false⟩
  | .thmTile => ⟨0x71000, 1, 0x0, 576, 8, 8, false⟩
  | .thmRaw => ⟨0x72000, 1, 0x0, 576, 8, 8, false⟩
  | .thmHub => ⟨0x73000, 1, 0x0, 64, 8, 8, false⟩
  | .monSitCmd => ⟨0xb0000, 1, 0x0, 1, 0, 4, false⟩
  | .monSitStat => ⟨0xb0008, 1, 0x0, 1, 0, 8, false⟩
  | .monSitCfg => ⟨0xb0010, 1, 0x0, 1, 0, 4, false⟩
  | .monRoBase => ⟨0xb0018, 1, 0x0, 1, 0, 8, false⟩
  | .monRoLen => ⟨0xb0020, 1, 0x0, 1, 0, 4, false⟩
  | .monRoSel => ⟨0xb0028, 1, 0x0, 1, 0, 4, false⟩
  | .monRoCmd => ⟨0xb0030, 1, 0x0, 1, 0, 4, false⟩
  | .monRoStat => ⟨0xb0038, 1, 0x0, 1, 0, 8, false⟩

/-- Every register of BAR0. -/
def allRegs0 : List Reg :=
  [.arrFlags, .tmRgn, .tmCtr, .tmCtrSat, .tmErrCnt, .tmErrLog, .tmErrThresh, .tmDeny, .pckTblDesc, .pckTblCmd, .hubCfg, .hubState, .hubErrCnt, .hubErrCnt2, .hubErrLog, .hubErrTime, .hubHits, .hubMisses, .hubPfUsed, .hubPfWasted, .hubTemp, .fabCfg, .fabArb, .fabState, .fabMaskSite]
def allRegs1 : List Reg :=
  [.fabMaskLink, .fabSite, .fabGrpStage, .fabGrpCmd, .fabPin, .fabRtrCnt, .chCfg, .chEp, .chEpState, .chEpCnt, .admCfg, .admSrc, .admTotal, .admLimit, .admRefused, .admShape, .fldCfg, .fldConc, .fldConcStat, .fldSeqEpoch, .fldPort, .fldMac, .fldPortStat, .fldPortCnt, .fldSptCnt]
def allRegs2 : List Reg :=
  [.fldStrm, .fldFifo, .fldFifoStat, .fldErr, .fldTgt, .fldTgt2, .fldSptBind, .fldKeyStage, .fldKeyCmd, .fldKeyId, .fldIn, .fldInSeq, .fldInCnt, .lnkCfg, .lnkPort, .lnkStat, .lnkLane, .lnkCnt, .lnkCnt2, .lnkRoute, .lnkBind, .lnkIn, .clkCfg, .clkStat, .clkTime]
def allRegs3 : List Reg :=
  [.clkTimeFrac, .clkSet, .clkCmd, .clkUtc, .clkLeap, .clkPpsInTs, .clkMarginCfg, .clkIsl, .clkMargin, .hifCfg, .hifStat, .hifErr, .rngDbBase, .rngDbCfg, .rngEvtBase, .rngEvtCfg, .rngEvtStat, .rngFrxBase, .rngFrxCfg, .rngSqBase, .rngSqCfg, .rngSqStat, .rngCqBase, .rngCqCfg, .rngCqStat]
def allRegs4 : List Reg :=
  [.prtMap, .prtCmd, .prtStat, .prtHalf, .idnPart, .idnSerial, .idnVer, .idnOvl, .idnState, .idnCause, .idnStage, .idnKeyFp, .prtArrRst, .prtPackRst, .prtPanelRst, .fltCfg, .fltFence, .fltSwap, .fltPackCmd, .fltPackDark, .fltBackup, .fltFwCmd, .fltFwStat, .fltReserve, .fltRestore]
def allRegs5 : List Reg :=
  [.fltRestoreMask, .fltHealth, .pwrCfg, .pwrStat, .pwrIn, .pwrAlert, .pwrAlertMask, .pwrPack, .pwrPackStat, .thmCfg, .thmCool, .thmTile, .thmRaw, .thmHub, .monSitCmd, .monSitStat, .monSitCfg, .monRoBase, .monRoLen, .monRoSel, .monRoCmd, .monRoStat]
def allRegs : List Reg := allRegs0 ++ allRegs1 ++ allRegs2 ++ allRegs3 ++ allRegs4 ++ allRegs5

end Sys2Proof.Machine
end

