-- ==== Sys2Proof/Machine/Ops.lean ====
section
/-! DEFINITION. The operations that every meaning is made of: register fields, the grid, bark records, outputs, packets, the
scratchpad with its regions and protection, arrival counters. -/

namespace Sys2Proof.Machine

/-- The outcome of a command that has an effect. -/
abbrev Out := Host.Outcome State Fault Refusal

/-! ### Small helpers -/

/-- Bits `lo` to `lo + w - 1`. -/
def bitsAt (v lo w : Nat) : Nat := v / 2 ^ lo % 2 ^ w

/-- Bit `i`. -/
def bitAt (v i : Nat) : Bool := v.testBit i

/-- Bit `i` set or cleared. -/
def setBit (v i : Nat) (b : Bool) : Nat :=
  if b then v ||| 2 ^ i else if v.testBit i then v - 2 ^ i else v

def b2n (b : Bool) : Nat := if b then 1 else 0

/-- Members of a bit mask below `n`, ascending. -/
def maskList (m n : Nat) : List Nat := (List.range n).filter (fun i => m.testBit i)

/-- The mask of a list of bit numbers. -/
def listMask (l : List Nat) : Nat := l.foldl (fun m i => setBit m i true) 0

def popCount (v n : Nat) : Nat := (maskList v n).length

/-- Apply `f` to a state for each member of a list. -/
def State.each {α : Type} (s : State) (l : List α) (f : State → α → State) : State := l.foldl f s

/-- Continue from `f s` when `c` holds. -/
def State.when (s : State) (c : Bool) (f : State → State) : State := if c then f s else s

def ceilDiv (a b : Nat) : Nat := (a + b - 1) / b

/-! ### Register fields (R18 to R21) -/

/-- Key of field `f` of instance `i`. -/
def fldKey (f : Fld) (i : Nat) : Nat := i * 1024 + f.id

/-- Reset value of a field (R19, R171). A `cfg` field reads 0 until the configuration record loads it (log entry 6). -/
def fldReset (f : Fld) (i : Nat) : Nat :=
  (match f.reset with
  | .const n => n
  | .cfg => 0
  | .rgn n0 n15 => if i % 16 = 0 then n0 else if i % 16 = 15 then n15 else 0
  | .owner => i / 16) % 2 ^ f.w

/-- The value of field `f` of instance `i` of its register: a number of as many bits as the field has. -/
def State.rd (s : State) (f : Fld) (i : Nat := 0) : Nat := mget s.regs (fldKey f i) (fldReset f i) % 2 ^ f.w

/-- Give field `f` of instance `i` a value, modulo its width. -/
def State.wr (s : State) (f : Fld) (i v : Nat) : State :=
  { s with regs := mput s.regs (fldKey f i) (fldReset f i) (v % 2 ^ f.w) }

/-- Bit test of a field. -/
def State.on (s : State) (f : Fld) (i : Nat := 0) : Bool := s.rd f i != 0

/-- Count by `n`, stopping at the field's largest value. -/
def State.cnt (s : State) (f : Fld) (i : Nat := 0) (n : Nat := 1) : State :=
  s.wr f i (min (s.rd f i + n) (2 ^ f.w - 1))

/-- Count by `n`, wrapping. -/
def State.cntW (s : State) (f : Fld) (i : Nat := 0) (n : Nat := 1) : State := s.wr f i (s.rd f i + n)

/-- BAR0 offset of instance `i` of a register (R426). -/
def regOff (r : Reg) (i : Nat) : Nat :=
  let p := regPlace r
  let n := i % (p.oc * p.ic)
  p.off + n / p.ic * p.os + n % p.ic * p.is

/-- Back to the reset value. -/
def State.clr (s : State) (f : Fld) (i : Nat := 0) : State := s.wr f i (fldReset f i)

/-- Set or clear one bit of a mask field. -/
def State.wrBit (s : State) (f : Fld) (i b : Nat) (v : Bool) : State := s.wr f i (setBit (s.rd f i) b v)

/-- Reset every field of the registers that `p` picks (narrow resets, R444, R474). -/
def State.clrRegs (s : State) (l : List (Fld × Nat)) : State := s.each l (fun s p => s.clr p.1 p.2)

/-- An action that a 1 in an RW1S bit requests; while the last one is in progress the write has no effect (R23). -/
def State.rw1s (s : State) (f : Fld) (k : State → State) (i : Nat := 0) : State := if s.on f i then s else k s

/-- The whole value of instance `i` of a register, from its stored fields. -/
def State.rdReg (s : State) (r : Reg) (i : Nat) : Nat :=
  (regFields r).foldl (fun v f => if f.acc = .wo then v else v + s.rd f i * 2 ^ f.lo) 0

/-! ### The grid (R7 to R13, R236) -/

def siteRow (s : Nat) : Nat := s / 24
def siteCol (s : Nat) : Nat := s % 24
def sitePack (s : Nat) : Nat := siteRow s / 3 * 8 + siteCol s / 3
def sitePos (s : Nat) : Nat := siteRow s % 3 * 3 + siteCol s % 3
/-- The site at position `k` of pack `p`. -/
def packSite (p k : Nat) : Nat := (3 * (p / 8) + k / 3) * 24 + 3 * (p % 8) + k % 3
def packSites (p : Nat) : List Nat := (List.range 9).map (packSite p)
def arrPack (a : Nat) : Nat := a / 8
def packArrays (p : Nat) : List Nat := (List.range 8).map (fun k => p * 8 + k)
/-- South half: packs 32 to 63 (R13). -/
def packSouth (p : Nat) : Bool := 32 ≤ p
def siteSouth (s : Nat) : Bool := 288 ≤ s

/-- Site that carries a logical array number. -/
def State.siteOf (s : State) (a : Nat) : Nat := s.rd F.fabSite_site a

/-- The array a site carries, if any. -/
def State.arrayAt (s : State) (site : Nat) : Option Nat :=
  (packArrays (sitePack site)).find? (fun a => s.rd F.fabSite_site a == site && (s.rd F.fabSite_state a == 0 || s.rd F.fabSite_state a == 3))

/-- Variant NG7212-A in force (R3). -/
def State.is12 (s : State) : Bool := s.rd F.idnPart_variant 0 == 0x12

/-- Fitted packs (R4). -/
def State.packFitted (s : State) (p : Nat) : Bool := !(s.is12 && 6 ≤ p % 8)
def State.siteFitted (s : State) (t : Nat) : Bool := s.packFitted (sitePack t)
def State.packList (s : State) : List Nat := (List.range 64).filter s.packFitted
def State.siteList (s : State) : List Nat := (List.range 576).filter s.siteFitted

def State.arrVacant (s : State) (a : Nat) : Bool := s.rd F.fabSite_state a == 1 || s.rd F.fabSite_state a == 2
def State.arrFenced (s : State) (a : Nat) : Bool := s.on F.fabSite_fenced a
/-- In service and not fenced. -/
def State.arrOk (s : State) (a : Nat) : Bool := !s.arrVacant a && !s.arrFenced a

/-- Dead sites and links of the mask in force (R271). -/
def State.siteDead (s : State) (t : Nat) : Bool := bitAt (s.rd F.fabMaskSite_dead (t / 64)) (t % 64)
def State.linkDead (s : State) (l : Nat) : Bool := bitAt (s.rd F.fabMaskLink_dead (l / 64)) (l % 64)

/-- Units in the scope of a reset that has taken effect and not completed: they inject nothing and absorb what arrives (R473). -/
def State.inReset (s : State) (a : Nat) : Bool := s.boot.resets.any (fun r => r.arrays.contains a)
def State.packInReset (s : State) (p : Nat) : Bool := s.boot.resets.any (fun r => r.packs.contains p)

def State.packDark (s : State) (p : Nat) : Bool := bitAt (s.rd F.fltPackDark_dark) p

/-- Home router of an edge die (R236). -/
def mgmtHome (m : Nat) : Nat := if m = 0 then 1 else 23 * 24 + 1
def hostHome (h : Nat) : Nat := if h = 0 then 7 else 23 * 24 + 7
def fieldHome (d : Nat) : Nat := if d = 0 then 10 else 23 * 24 + 10
def linkHome (n : Nat) : Nat :=
  match n with
  | 0 => 4
  | 1 => 13
  | 2 => 4 * 24 + 23
  | 3 => 19 * 24 + 23
  | 4 => 23 * 24 + 4
  | 5 => 23 * 24 + 13
  | 6 => 4 * 24
  | _ => 19 * 24

/-- The router at which a unit injects and receives requests (R236, R237). -/
def State.homeOf (s : State) : Endpoint → Nat
  | .tile a => s.siteOf a
  | .hub p => packSite p 2
  | .field d => fieldHome d
  | .host h => hostHome h
  | .link n => linkHome n
  | .mgmt m => mgmtHome m
  | .group _ => 0
  | .broadcast => 0

/-- The routers, with their ports, at which a unit may inject; an edge die's home router first (R233, R236, R237). Ports: 0 N, 1 E, 2 S, 3 W,
4 T, 5 X. -/
def State.ports (s : State) : Endpoint → List (Nat × Nat)
  | .tile a => [(s.siteOf a, 4)]
  | .hub p => [(packSite p 2, 5), (packSite p 5, 5)]
  | .group _ => []
  | .broadcast => []
  | e =>
    let h := s.homeOf e
    if siteRow h = 0 then [(h, 0), (h - 1, 0), (h + 1, 0)]
    else if siteRow h = 23 then [(h, 2), (h - 1, 2), (h + 1, 2)]
    else if siteCol h = 23 then [(h, 1), (h - 24, 1), (h + 24, 1)]
    else [(h, 3), (h - 24, 3), (h + 24, 3)]

/-! ### Panel time, records, outputs -/

/-- Panel time in ns (R406). -/
def State.now (s : State) : Nat := s.time.ns

/-- A value that nothing constrains: the opaque constant at the counter, which advances (log entry 3). -/
def State.drawFree (s : State) : Nat × State := (Config.freeNat s.free, { s with free := s.free + 1 })

def State.put (s : State) (o : OutEv) : State := { s with outs := o :: s.outs }

/-- The held records after one more arrives: at 4096, telemetry is dropped first, then the oldest bark record (R442). -/
def holdRecord (held : List EvRec) (r : EvRec) : List EvRec × Option EvRec :=
  if held.length < 4096 then (held ++ [r], none)
  else
    match held.find? (fun e => e.kind == 1) with
    | some t => (held.erase t ++ [r], some t)
    | none => (held.tail ++ [r], held.head?)

/-- MN issues a record: it takes the next `SEQ` and joins the held records; a bark record also joins the flash log (R442, R533). -/
def State.issue (s : State) (kind code : Nat) (u : UnitId) (detail : List (Nat × Nat)) (count t : Nat) : State :=
  let r : EvRec := { kind := kind, code := code, seq := s.host.evSeq, time := t, unit := u, count := count, detail := detail }
  let p := holdRecord s.host.evHeld r
  let s1 := { s with
    host := { s.host with evHeld := p.1, evSeq := (s.host.evSeq + 1) % 2 ^ 32,
                          evLost := if p.2.isSome then min (s.host.evLost + 1) 0xFFFF else s.host.evLost },
    faults := if kind = 0 then { s.faults with barkLog := (r :: s.faults.barkLog).take 16384 } else s.faults }
  match p.2 with
  | none => s1
  | some d => if d.kind = 1 then s1.cnt F.rngEvtStat_lostTel else s1.cnt F.rngEvtStat_lostBark

/-- A bark record about a unit, now. -/
def State.bark (s : State) (code : Nat) (u : UnitId) (detail : List (Nat × Nat) := []) (count : Nat := 1) : State :=
  s.issue 0 code u detail count s.now

/-- A record of which a unit raises at most one in `period` ns: the next one stands for the occurrences between (R441). -/
def State.barkRate (s : State) (code key period : Nat) (u : UnitId) (detail : List (Nat × Nat) := []) : State :=
  let k := code * 65536 + key
  let last := mget s.rateAt k (0, 0)
  if last.1 = 0 || last.1 + period ≤ s.now + 1 then
    { s with rateAt := mset s.rateAt k (s.now + 1, 0) }.bark code u detail (last.2 + 1)
  else { s with rateAt := mset s.rateAt k (last.1, last.2 + 1) }

/-- The score that a penalty leaves (R503). -/
def scoreOf (p : Nat) : Nat := 1023 - p / 256

/-- The penalty of health unit `u` becomes `p`, and its score follows; a fall below `HEALTH_WARN` raises a health-low record once, until
the score has risen to `HEALTH_WARN` + 32 (R503, R505). -/
def State.setPenalty (s : State) (u p : Nat) : State :=
  let sc := scoreOf p
  let warn := s.rd F.fltCfg_healthWarn 0
  let s1 := (s.wr F.fltHealth_penalty u p).wr F.fltHealth_score u sc
  let low := s1.faults.lowRaised
  if warn + 32 ≤ sc then { s1 with faults := { s1.faults with lowRaised := low.filter (· != u) } }
  else if sc < warn && !low.contains u then
    { s1 with faults := { s1.faults with lowRaised := low ++ [u] } }.bark 0x0024 {} [(24, u), (26, sc)]
  else s1

/-- An event adds points, in units of 1/256 point, to a unit's penalty (R503, R504). -/
def State.penalize (s : State) (u n : Nat) : State :=
  if n = 0 then s else s.setPenalty u (min (s.rd F.fltHealth_penalty u + n) 0xFFFFFFFF)

/-- The penalty of a unit starts afresh (R503). -/
def State.freshPenalty (s : State) (u : Nat) : State :=
  { s with faults := { s.faults with penFine := mdel s.faults.penFine u } }.setPenalty u 0

/-- As `penalize`, in units of 1/65536 point: what does not fill 1/256 point waits. -/
def State.penalizeFine (s : State) (u n : Nat) : State :=
  if n = 0 then s
  else
    let t := mget s.faults.penFine u 0 + n
    { s with faults := { s.faults with penFine := mput s.faults.penFine u 0 (t % 256) } }.penalize u (t / 256)

/-- The reserved-write bark record of R20 and R447, naming a BAR0 offset. -/
def State.reservedWrite (s : State) (off : Nat) : State := s.bark 0x0001 {} [(24, off)]

/-! ### Packets -/

/-- Step status for a reply's status (R259). -/
def nackStatus (st : Nat) : Nat :=
  match st with
  | 0 => 0
  | 1 => 0x04
  | 2 => 0x08
  | 3 => 0x06
  | 4 => 0x09
  | 5 => 0x08
  | _ => 0x02

/-- Number of flits of a packet with `n` carried bytes (R242). -/
def flitsOf (n : Nat) : Nat := if n ≤ 224 then 1 else 1 + ceilDiv (n - 224) 256

/-- Zero-run compression (R244): a 16-byte mask of the 32-byte chunks that hold a byte other than 0, then those chunks. -/
def zrcPack (pl : List Byte) : List Byte :=
  let chunks := (List.range (ceilDiv pl.length 32)).map (fun i => (pl.drop (32 * i)).take 32)
  let mask := chunks.zipIdx.foldl (fun m c => if c.1.all (· == 0) then m else m + 2 ^ c.2) 0
  leBytes 16 mask ++ (chunks.filter (fun c => !c.all (· == 0))).flatten

/-- What the ejecting router restores from a compressed payload of `len` bytes. -/
def zrcUnpack (len : Nat) (b : List Byte) : List Byte :=
  let mask := leNat (b.take 16)
  ((List.range (ceilDiv len 32)).foldl (fun (r : List Byte × List Byte) i =>
    let n := min 32 (len - 32 * i)
    if mask.testBit i then (r.1 ++ r.2.take n, r.2.drop n) else (r.1 ++ List.replicate n 0, r.2)) ([], b.drop 16)).1

/-- Is the packet's payload compressed when it is injected (R244)? -/
def zrcSaves (p : Packet) : Bool :=
  p.cls != 0 && (match p.body with
    | .write => true
    | .readData => true
    | .channelItem .. => true
    | _ => false) && decide (flitsOf (zrcPack p.payload).length < flitsOf p.payload.length)

/-- Payload as carried. -/
def carried (p : Packet) : List Byte := if p.route.zrc then zrcPack p.payload else p.payload

/-- Flits that a packet occupies. -/
def pktFlits (p : Packet) : Nat := flitsOf (carried p).length

/-- Does a packet have the class that R243 gives its type? A WRITE is TC1 from a field die, TC0 from one link die to another, TC3 as a service
write or a span service packet, else TC2; a READ_REQ has the class of the reply it asks for; an answer has its request's. -/
def classOk (p : Packet) : Bool :=
  match p.body with
  | .write => (match p.src, p.dst with
      | .field _, _ => p.cls == 1
      | .link _, .link _ => p.cls == 0 || p.cls == 2 || p.cls == 3
      | _, _ => p.cls == 2 || p.cls == 3)
  | .readReq _ => p.cls == 2 || p.cls == 3
  | .readData => p.cls == 2 || p.cls == 3
  | .ack .. => true
  | .nack => true
  | .service _ => p.cls == 3
  | .stepMsg _ => p.cls == 0
  | .setpoint _ => p.cls == 0
  | .beacon .. => p.cls == 0
  | .fenceNotice .. => p.cls == 0
  | .deadMask _ => p.cls == 0
  | .sit _ => p.cls == 0
  | .fabCtl .. => p.cls == 0
  | .gapNotice .. => p.cls == 0
  | _ => p.cls == 2

/-! ### Arrays -/

def State.arr (s : State) (a : Nat) : ArrayState := mget s.arrays a {}
def State.setArr (s : State) (a : Nat) (x : ArrayState) : State := { s with arrays := mput s.arrays a {} x }
def State.updArr (s : State) (a : Nat) (f : ArrayState → ArrayState) : State := s.setArr a (f (s.arr a))

/-- A member of a running region (R157). -/
def State.isMember (s : State) (a : Nat) : Bool := (s.arr a).member.isSome

/-- Belongs to a running region as a member or as its leader. -/
def State.inRegion (s : State) (a : Nat) : Bool := s.isMember a || (mfind s.regions a).isSome

/-! ### Regions of a scratchpad (R170 to R177) -/

def State.rgnValid (s : State) (a n : Nat) : Bool := s.on F.tmRgn_valid (a * 16 + n)
def State.rgnLo (s : State) (a n : Nat) : Nat := s.rd F.tmRgn_base (a * 16 + n) * 65536
def State.rgnHi (s : State) (a n : Nat) : Nat := (s.rd F.tmRgn_base (a * 16 + n) + s.rd F.tmRgn_size (a * 16 + n)) * 65536

/-- The valid region that holds the whole of a range (R170). -/
def State.region (s : State) (a addr len : Nat) : Option Nat :=
  (List.range 16).find? (fun n => s.rgnValid a n && s.rgnLo a n ≤ addr && addr + len ≤ s.rgnHi a n)

/-- The tile's spill region (R189). -/
def State.spillRgn (s : State) (a : Nat) : Option Nat :=
  (List.range 16).find? (fun n => s.rgnValid a n && s.on F.tmRgn_spill (a * 16 + n))

/-- Who asks for an access (R173). -/
inductive Who where
  | own | array (b : Nat) | field | link | host | channel | maint
  deriving DecidableEq, Repr

/-- The partition of an array's pack (`PRT_MAP_w`). -/
def State.partOf (s : State) (p : Nat) : Nat := bitsAt (s.rd F.prtMap_part (p / 16)) (4 * (p % 16)) 4

/-- Permission encodings of R172. -/
def State.permits (s : State) (perm a n b : Nat) : Bool :=
  match perm with
  | 0 => false
  | 1 => s.rd F.tmRgn_owner (a * 16 + n) == b
  | 2 => s.partOf (arrPack a) == s.partOf (arrPack b)
  | _ => true

/-- Combining storage of an array: the ranges of its combining endpoints (R173, R301). -/
def State.inChannelStorage (s : State) (a addr len : Nat) : Bool :=
  (List.range 64).any (fun e =>
    let i := a * 64 + e
    let lo := s.rd F.chEp_accLine i * 64
    s.rd F.chEp_role i == 5 && lo ≤ addr && addr + len ≤ lo + 256 * s.rd F.chEp_elems16 i * 64)

/-- R173: may the requester write this range of region `n`? -/
def State.mayWrite (s : State) (a n : Nat) (w : Who) (addr len : Nat) : Bool :=
  let i := a * 16 + n
  match w with
  | .own => !s.on F.tmRgn_spill i
  | .array b => !s.on F.tmRgn_spill i && (b == a || s.permits (s.rd F.tmRgn_wperm i) a n b)
  | .field => s.on F.tmRgn_fieldW i && !s.on F.tmRgn_spill i
  | .link => s.on F.tmRgn_spanW i && !s.on F.tmRgn_spill i
  | .host => !s.on F.tmRgn_spill i
  | .channel => s.on F.tmRgn_spill i || s.inChannelStorage a addr len
  | .maint => true

/-- R173: may the requester read this range of region `n`? -/
def State.mayRead (s : State) (a n : Nat) (w : Who) (addr len : Nat) : Bool :=
  let i := a * 16 + n
  match w with
  | .own => !s.on F.tmRgn_spill i
  | .array b => !s.on F.tmRgn_spill i && (b == a || s.permits (s.rd F.tmRgn_rperm i) a n b)
  | .field => false
  | .link => false
  | .host => true
  | .channel => s.on F.tmRgn_spill i || s.inChannelStorage a addr len
  | .maint => true

/-! ### Banks (R162, R163)

A scratchpad is 64 banks of 16384 lines of 64 bytes. Which bank grants first, and the one line a bank serves in a cycle, are timing. -/

/-- The bank that a local address selects; banks 0 to 15 lie in the logic die (R162, R163). -/
def bankOf (addr : Nat) : Nat := addr / 64 % 64 ^^^ addr / 4096 % 64

/-- The line within its bank. -/
def bankLine (addr : Nat) : Nat := addr / 4096 % 16384

/-- Where a byte of a site's scratchpad is stored: bank, line, byte (R163). -/
def cellKey (site addr : Nat) : Nat := site * 67108864 + bankOf addr * 1048576 + bankLine addr * 64 + addr % 64

/-- The local address of a stored byte, which `cellKey` places there. -/
def cellAddr (key : Nat) : Nat :=
  let line := key / 64 % 16384
  line * 4096 + (key / 1048576 % 64 ^^^ line % 64) * 64 + key % 64

/-- Where a 64-bit word with its check bits is stored. -/
def wordKey (site word : Nat) : Nat := cellKey site (8 * word) / 8

/-- Bytes `addr`, `addr + 1`, … of a scratchpad. -/
def Memory.tileRead (m : List Host.Cell) (site addr len : Nat) : List Byte := Memory.readBytes m (cellKey site) addr len

/-- Store consecutive bytes in a scratchpad. -/
def Memory.tileWrite (m : List Host.Cell) (site addr : Nat) (bytes : List Byte) : List Host.Cell :=
  Memory.writeBytes m (cellKey site) addr bytes

/-! ### Scratchpad words with their check bits (R178 to R180, R191) -/

/-- Flipped bits of a stored word: 64 data bits and 8 check bits. -/
def State.flip (s : State) (site word : Nat) : Nat := mget s.flips (wordKey site word) 0

/-- BYTE_PARITY: byte `j` of a word fails its parity check. -/
def parityBad (f j : Nat) : Bool := (popCount (bitsAt f (8 * j) 8) 8 + bitsAt f (64 + j) 1) % 2 == 1

/-- What one byte of a read finds. -/
inductive ByteSt where | good | corrected | bad
  deriving DecidableEq, Repr

/-- A byte as delivered, and what its check said. -/
def State.checkByte (s : State) (site : Nat) (secded : Bool) (addr : Nat) : Byte × ByteSt :=
  let b := Memory.read s.mem (cellKey site addr)
  let f := s.flip site (addr / 8)
  if f == 0 then (b, .good)
  else if secded then (if popCount f 72 == 1 then (b, .corrected) else (b, .bad))
  else if parityBad f (addr % 8) then (b, .bad)
  else (b ^^^ BitVec.ofNat 8 (bitsAt f (8 * (addr % 8)) 8), .good)

/-- What a read of a range finds: words with a corrected bit, and one entry for each uncorrectable SECDED64 word or each byte whose parity
fails, by its word, ascending (R191). -/
def State.rangeErrs (s : State) (site : Nat) (secded : Bool) (addr len : Nat) : List Nat × List Nat :=
  if s.flips.isEmpty then ([], []) else
  let ws := (List.range (ceilDiv (addr % 8 + len) 8)).map (fun j => addr / 8 + j)
  let st (w : Nat) := (List.range 8).map (fun j => w * 8 + j) |>.filter (fun x => decide (addr ≤ x) && decide (x < addr + len)) |>.map
    (fun x => (s.checkByte site secded x).2)
  if secded then
    (ws.filter (fun w => (st w).contains .corrected && !(st w).contains .bad), ws.filter (fun w => (st w).contains .bad))
  else ([], ws.flatMap (fun w => ((st w).filter (· == .bad)).map (fun _ => w)))

/-- The bark record for an uncorrectable word (R191). -/
def State.memBark (s : State) (a line kind : Nat) : State := s.bark 0x0006 { kind := .array, num := a } [(24, line), (32, kind)]

/-- Count and log the errors that a read of tile `a` found at ring position `port` (R191, R192). -/
def State.logErrs (s : State) (a port : Nat) (secded : Bool) (kind : Nat) (corr bad : List Nat) : State :=
  let before := s.rd F.tmErrCnt_corrCnt a
  let site := s.siteOf a
  let s1 := (s.cnt F.tmErrCnt_corrCnt a corr.length).penalize site (16 * corr.length)
  let step := s.rd F.tmErrThresh_corrStep a
  let after := s1.rd F.tmErrCnt_corrCnt a
  let s2 := s1.when (step != 0 && before / step != after / step)
    (fun s => s.bark 0x0005 { kind := .array, num := a } [(24, after)])
  bad.foldl (fun s w =>
    let s := (s.cnt (if secded then F.tmErrCnt_uncorrCnt else F.tmErrCnt_parCnt) a).penalize site 16384
    let line := w / 8 * 64
    let s := if s.on F.tmErrLog_valid a then s
      else ((((s.wr F.tmErrLog_valid a 1).wr F.tmErrLog_kind a kind).wr F.tmErrLog_port a port).wr F.tmErrLog_line a (line / 64)).wr
        F.tmErrLog_time a s.now
    s.memBark a line kind) s2

/-- Read a range of tile `a` that lies in region `n`: the bytes, or nothing on an uncorrectable error (R180, R191). -/
def State.readTile (s : State) (a n port addr len : Nat) : Option (List Byte) × State :=
  let site := s.siteOf a
  let sec := s.rd F.tmRgn_prot (a * 16 + n) == 1
  let e := s.rangeErrs site sec addr len
  let bytes := if s.flips.isEmpty then Memory.tileRead s.mem site addr len
    else (List.range len).map (fun j => (s.checkByte site sec (addr + j)).1)
  let s1 := if e.1.isEmpty && e.2.isEmpty then s else s.logErrs a port sec (if sec then 0 else 1) e.1 e.2
  (if e.2.isEmpty then some bytes else none, s1)

/-- The flips that a write of a range leaves: whole words are stored afresh, a partial word keeps the others' in BYTE_PARITY and is
corrected in SECDED64 (R178, R179). -/
def State.clearFlips (s : State) (site : Nat) (secded : Bool) (addr len : Nat) : State :=
  if s.flips.isEmpty then s else
  { s with flips := (List.range (ceilDiv (addr % 8 + len) 8)).foldl (fun m j =>
      let w := addr / 8 + j
      let k := wordKey site w
      let f := mget m k 0
      let g := if secded then 0 else (List.range 8).foldl (fun f b =>
        if addr ≤ w * 8 + b && w * 8 + b < addr + len then
          (List.range 8).foldl (fun f i => setBit f (8 * b + i) false) (setBit f (64 + b) false) else f) f
      mput m k 0 g) s.flips }

/-- Store bytes at a site, without any check. -/
def State.pokeSite (s : State) (site addr : Nat) (bytes : List Byte) : State :=
  { s with mem := Memory.tileWrite s.mem site addr bytes }

/-- Lines that a SECDED64 write reads before it writes them: those of which it covers part of a word (R179). -/
def mergedLines (addr len : Nat) : List Nat :=
  ((if addr % 8 = 0 then [] else [addr / 64]) ++ (if (addr + len) % 8 = 0 then [] else [(addr + len) / 64])).eraseDups

/-- What the reads of a partial SECDED64 write find in the whole of those lines: corrected words, and words that cannot be (R179). -/
def State.mergeErrs (s : State) (site addr len : Nat) : List Nat × List Nat :=
  if s.flips.isEmpty then ([], []) else
  let es := (mergedLines addr len).map (fun l => s.rangeErrs site true (l * 64) 64)
  (es.flatMap (·.1), es.flatMap (·.2))

/-- Store corrected words afresh. -/
def State.mendWords (s : State) (site : Nat) (ws : List Nat) : State :=
  { s with flips := ws.foldl (fun m w => mdel m (wordKey site w)) s.flips }

/-- Write a range of tile `a` that lies in region `n`. A partial write of a SECDED64 word reads its line: corrected words are written back,
and a line with an uncorrectable one stays as it is. Answers whether every line was written (R179, R191). -/
def State.writeTile (s : State) (a n port addr : Nat) (bytes : List Byte) : Bool × State :=
  let site := s.siteOf a
  let sec := s.rd F.tmRgn_prot (a * 16 + n) == 1
  let e := if sec then s.mergeErrs site addr bytes.length else ([], [])
  if e.1.isEmpty && e.2.isEmpty then (true, (s.clearFlips site sec addr bytes.length).pokeSite site addr bytes)
  else
    let stuck := e.2.map (· / 8)
    let s1 := s.mendWords site (e.1.filter (fun w => !stuck.contains (w / 8)))
    let s2 := (List.range bytes.length).foldl (fun s j =>
      if stuck.contains ((addr + j) / 64) then s
      else (s.clearFlips site true (addr + j) 1).pokeSite site (addr + j) [bytes.getD j 0]) s1
    (e.2.isEmpty, s2.logErrs a port true 0 e.1 e.2)

/-- Zero a whole scratchpad (R176). -/
def State.zeroSite (s : State) (site : Nat) : State :=
  { s with mem := s.mem.filter (fun c => c.1 / 67108864 != site), flips := s.flips.filter (fun c => c.1 / 8388608 != site) }

/-- Zero a range of a scratchpad (R175). -/
def State.zeroRange (s : State) (site lo hi : Nat) : State :=
  let inside (key : Nat) : Bool := key / 67108864 == site && decide (lo ≤ cellAddr key) && decide (cellAddr key < hi)
  { s with mem := s.mem.filter (fun c => !inside c.1), flips := s.flips.filter (fun c => !inside (8 * c.1)) }

/-! ### Arrival counters (R186 to R188) -/

/-- Add to an arrival counter; it stays at 0xFFFF_FFFF once there, with its saturation bit and a bark record (R188). -/
def State.ctrAdd (s : State) (a c v : Nat) : State :=
  let old := s.rd F.tmCtr_value (a * 64 + c)
  let new := min (old + v) 0xFFFFFFFF
  let s1 := s.wr F.tmCtr_value (a * 64 + c) new
  if new == 0xFFFFFFFF && old != 0xFFFFFFFF then
    (s1.wrBit F.tmCtrSat_sat a c true).bark 0x0004 { kind := .array, num := a } [(24, c)]
  else s1

/-- Clear the counters of a mask (R156). -/
def State.ctrClear (s : State) (a mask : Nat) : State :=
  s.each (maskList mask 64) (fun s c => s.wr F.tmCtr_value (a * 64 + c) 0)

/-! ### Checked accesses to a tile -/

/-- Result of a checked access: 0 done, 1 denied or unmapped (R182), 3 data error (R191). -/
def State.tryWrite (s : State) (a port : Nat) (w : Who) (addr : Nat) (bytes : List Byte) : Nat × State :=
  match s.region a addr bytes.length with
  | none => (1, s)
  | some n =>
    if s.mayWrite a n w addr bytes.length then
      let r := s.writeTile a n port addr bytes
      (if r.1 then 0 else 3, r.2)
    else (1, s)

def State.tryRead (s : State) (a port : Nat) (w : Who) (addr len : Nat) : Nat × List Byte × State :=
  match s.region a addr len with
  | none => (1, [], s)
  | some n =>
    if s.mayRead a n w addr len then
      let r := s.readTile a n port addr len
      match r.1 with
      | some b => (0, b, r.2)
      | none => (3, [], r.2)
    else (1, [], s)

/-- A denied remote access is counted and raises an access-denied record naming the requester, at most one a millisecond; the
record stands for the denials since the last one (R182, R441). -/
def State.deny (s : State) (a : Nat) (requester : Nat) : State :=
  let s1 := s.cnt F.tmDeny_denyCnt a
  let k := a * 65536 + requester
  let last := mget s.denyAt k (0, 0)
  if last.1 = 0 || last.1 + 1000000 ≤ s.now + 1 then
    { s1 with denyAt := mset s.denyAt k (s.now + 1, 0) }.bark 0x0003 { kind := .array, num := a } [(24, requester)] (last.2 + 1)
  else { s1 with denyAt := mset s.denyAt k (last.1, last.2 + 1) }

/-- The `UNIT` number that names a packet's source in a record (R441). -/
def srcUnit : Endpoint → Nat
  | .tile a => a
  | .hub p => 0x1000 + p
  | .field d => 0x2000 + d
  | .host h => 0x3000 + h
  | .link n => 0x4000 + n
  | .mgmt m => 0x5000 + m
  | .group g => g
  | .broadcast => 0x8000

/-- Who a packet's source is, for the checks of R173. -/
def whoOf (p : Packet) (a : Nat) : Who :=
  match p.src with
  | .tile b => if b = a then .own else .array b
  | .hub _ => .own
  | .field _ => .field
  | .host _ => .host
  | .link _ => .link
  | .mgmt _ => .maint
  | .group _ => .own
  | .broadcast => .maint

/-- A signed 16-bit field. -/
def signed16 (v : Nat) : Int := if v % 65536 < 32768 then (v % 65536 : Nat) else (v % 65536 : Nat) - 65536

end Sys2Proof.Machine
end

