-- ==== Sys2Proof/Machine/Route.lean ====
section
/-! DEFINITION. Routes over the mesh: links, the TC0 via point, reachability and the escape table (R236, R250 to R258, R271, R272). -/

namespace Sys2Proof.Machine

/-- An island that is stopped by sit or not running (R539, R479). -/
def State.halted (s : State) (i : Nat) : Bool :=
  !s.boot.converting || (s.boot.resetNLow && !s.boot.panelReset) || s.sit.stopped.contains i || !(mget s.time.islands i {}).running

/-- Island index of an array's tile (R394). -/
def State.arrIsland (s : State) (a : Nat) : Nat := s.siteOf a
def hubIsland (p : Nat) : Nat := 1152 + p
def linkIsland (n : Nat) : Nat := 1216 + n

/-- Sit is held or being entered or left (`MON_SIT_STAT.STATE`). -/
def State.inSit (s : State) : Bool := s.rd F.monSitStat_state 0 != 0

/-- Link between two horizontal or vertical neighbours (R271). -/
def linkEast (row col : Nat) : Nat := row * 23 + col
def linkSouth (row col : Nat) : Nat := 552 + row * 24 + col

/-- The two routers of a link. -/
def linkEnds (l : Nat) : Nat × Nat :=
  if l < 552 then (l / 23 * 24 + l % 23, l / 23 * 24 + l % 23 + 1) else (l - 552, l - 552 + 24)

/-! ### What a router takes for dead (R271, R272) -/

/-- A router that a route may cross. -/
def State.siteOk (s : State) (t : Nat) : Bool := s.siteFitted t && !s.siteDead t

/-- Router `t` has itself declared a link dead. -/
def State.declared (s : State) (t l : Nat) : Bool := s.localDead.contains (t * 2048 + l)

/-- A link that router `t` uses: the last mask and the router's own knowledge leave it alive. -/
def State.linkOkAt (s : State) (t l : Nat) : Bool := !s.linkDead l && !s.declared t l

/-- A link that both its routers use. -/
def State.linkOk (s : State) (l : Nat) : Bool := s.linkOkAt (linkEnds l).1 l && s.linkOkAt (linkEnds l).2 l

/-- A router declares a link dead. -/
def State.declare (s : State) (t l : Nat) : State :=
  if s.declared t l then s else { s with localDead := (t * 2048 + l) :: s.localDead }

/-- The routers and links that a choice of routes takes for live. -/
structure View where
  site : Nat → Bool
  link : Nat → Bool

/-- What router `t` knows. -/
def State.view (s : State) (t : Nat) : View := ⟨s.siteOk, s.linkOkAt t⟩

/-- What all routers know. -/
def State.viewAll (s : State) : View := ⟨s.siteOk, s.linkOk⟩

/-- Live by a mask of dead sites and dead links. -/
def State.viewOf (s : State) (m : Nat × Nat) : View := ⟨fun t => s.siteFitted t && !m.1.testBit t, fun l => !m.2.testBit l⟩

/-- The mask in force. -/
def State.maskNow (s : State) : Nat × Nat :=
  ((List.range 9).foldl (fun v n => v + s.rd F.fabMaskSite_dead n * 2 ^ (64 * n)) 0,
   (List.range 18).foldl (fun v n => v + s.rd F.fabMaskLink_dead n * 2 ^ (64 * n)) 0)

/-- The router mask and every router's own knowledge are empty. -/
def State.maskEmpty (s : State) : Bool :=
  (List.range 9).all (fun n => s.rd F.fabMaskSite_dead n == 0) && (List.range 18).all (fun n => s.rd F.fabMaskLink_dead n == 0) &&
  s.localDead == []

/-! ### Routes (R250, R251) -/

/-- The router beyond a port, and the link to it. -/
def beyondOf (site port : Nat) : Option (Nat × Nat) :=
  let r := siteRow site
  let c := siteCol site
  match port with
  | 0 => if r = 0 then none else some (site - 24, linkSouth (r - 1) c)
  | 1 => if c = 23 then none else some (site + 1, linkEast r c)
  | 2 => if r = 23 then none else some (site + 24, linkSouth r c)
  | 3 => if c = 0 then none else some (site - 1, linkEast r (c - 1))
  | _ => none

/-- The port on the other side of a link. -/
def facing (port : Nat) : Nat := (port + 2) % 4

/-- The hops along a row and along a column: routers left, and the ports they are left by. -/
def rowHops (r c0 c1 : Nat) : List (Nat × Nat) :=
  if c0 ≤ c1 then (List.range (c1 - c0)).map (fun i => (r * 24 + c0 + i, 1)) else (List.range (c0 - c1)).map (fun i => (r * 24 + c0 - i, 3))
def colHops (c r0 r1 : Nat) : List (Nat × Nat) :=
  if r0 ≤ r1 then (List.range (r1 - r0)).map (fun i => ((r0 + i) * 24 + c, 2)) else (List.range (r0 - r1)).map (fun i => ((r0 - i) * 24 + c, 0))

/-- The four legs of a route by way of (`vr`, `vc`) (R250). -/
def viaHops (src dst : Nat) (via : Nat × Nat) : List (Nat × Nat) :=
  rowHops (siteRow src) (siteCol src) via.2 ++ colHops via.2 (siteRow src) via.1 ++ rowHops via.1 via.2 (siteCol dst) ++
  colHops (siteCol dst) via.1 (siteRow dst)

/-- A hop crosses a live link to a live router. -/
def View.hop (v : View) (h : Nat × Nat) : Bool := match beyondOf h.1 h.2 with
  | some x => v.site x.1 && v.link x.2
  | none => false

def viaClear (v : View) (src dst : Nat) (via : Nat × Nat) : Bool := v.site src && (viaHops src dst via).all v.hop

def absDiff (x y : Nat) : Nat := max x y - min x y

/-- Earlier in the order of R251: hops, row, distance of the column, column. -/
def viaBetter (src dst : Nat) (x y : Nat × Nat) : Bool :=
  let k (v : Nat × Nat) : List Nat := [(viaHops src dst v).length, v.1, absDiff v.2 (siteCol src), v.2]
  decide (k x < k y)

/-- A via point of the form of R250: in the source row it is the source itself. -/
def viaForm (src : Nat) (via : Nat × Nat) : Bool := decide (siteRow src < via.1) || via == (siteRow src, siteCol src)

/-- The via point of a TC0 or pinned route, if one exists (R251). -/
def findVia (v : View) (src dst : Nat) : Option (Nat × Nat) :=
  if viaClear v src dst (siteRow src, siteCol src) then some (siteRow src, siteCol src)
  else
    ((List.range 24).flatMap (fun r => (List.range 24).map (fun c => (r, c)))).foldl (fun best p =>
      if viaForm src p && viaClear v src dst p then
        match best with
        | none => some p
        | some b => if viaBetter src dst p b then some p else some b
      else best) none

/-- The route that router `src` gives a TC0 or pinned packet. -/
def State.viaFrom (s : State) (src dst : Nat) : Option (Nat × Nat) :=
  if s.maskEmpty then (if s.siteFitted src && s.siteFitted dst then some (siteRow src, siteCol src) else none)
  else findVia (s.view src) src dst

/-! ### Connection and depths (R256, R257) -/

/-- Live neighbours of a router, in the order N, E, S, W, by their ports. -/
def View.neighbours (v : View) (t : Nat) : List (Nat × Nat) :=
  (List.range 4).filterMap (fun d => if v.hop (t, d) then (beyondOf t d).map (fun x => (d, x.1)) else none)

/-- Breadth-first levels from a set of routers, with the depth of each router reached. -/
def View.bfs (v : View) : Nat → Nat → List Nat → List (Nat × Nat) → List (Nat × Nat)
  | 0, _, _, seen => seen
  | fuel + 1, d, front, seen =>
    if front == [] then seen
    else
      let p := front.foldl (fun (q : List Nat × List (Nat × Nat)) t =>
        (v.neighbours t).foldl (fun (q : List Nat × List (Nat × Nat)) x =>
          if q.2.any (fun y => y.1 == x.2) then q else (q.1 ++ [x.2], q.2 ++ [(x.2, d + 1)])) q) ([], seen)
      v.bfs fuel (d + 1) p.1 p.2

/-- Depth of every router reachable from `t` (R256). -/
def View.depths (v : View) (t : Nat) : List (Nat × Nat) := if v.site t then v.bfs 576 0 [t] [(t, 0)] else []

/-- Two routers are connected by routers and links that router `x` takes for live. -/
def State.connected (s : State) (x y : Nat) : Bool :=
  if s.maskEmpty then s.siteFitted x && s.siteFitted y else ((s.view x).depths x).any (fun p => p.1 == y)

/-- Router that receives a packet for an endpoint: a hub takes replies at position 5 (R237). -/
def State.destSite (s : State) (p : Packet) : Nat := match p.dst with
  | .hub h => if p.reply then packSite h 5 else packSite h 2
  | e => s.homeOf e

/-! ### Islands -/

def State.isl (s : State) (i : Nat) : Island := mget s.time.islands i {}
def State.updIsl (s : State) (i : Nat) (f : Island → Island) : State :=
  { s with time := { s.time with islands := mput s.time.islands i {} (f (s.isl i)) } }

/-! ### Field ports (R331) -/

def State.fport (s : State) (n : Nat) : FPort := mget s.field.ports n {}
def State.updFport (s : State) (n : Nat) (g : FPort → FPort) : State :=
  { s with field := { s.field with ports := mput s.field.ports n {} (g (s.fport n)) } }

/-! ### BAR0 accesses (R425, R456, R479, R540) -/

/-- Which blocks an access falls in: `IDN_`, `HIF_` and `RNG_`; `MON_`; every other block. -/
inductive BarUse where | host | mon | unit
  deriving DecidableEq, Repr

/-- An access can arrive through a port: its link is up and host stage 3 has passed (R457, R480). -/
def State.barUp (s : State) (p : Nat) : Bool :=
  (mget s.host.ports p {}).linkUp && decide (3 ≤ s.rd F.idnStage_stage (2 + p)) && s.rd F.idnStage_stage (2 + p) != 0xF

/-- The access is a bad one for the panel's state: H1 while the south half is stopped, a block that does not work before ready or in
sit. -/
def State.barShut (s : State) (p : Nat) (u : BarUse) : Bool :=
  (p == 1 && s.rd F.prtHalf_state 0 == 2) || (u != .host && s.rd F.idnState_panelState 0 != 1) || (u == .unit && s.inSit)

/-- A BAR0 write through a port: it takes effect, or is discarded and counted in `BAD_ACC`. -/
def State.bar (s : State) (port : Nat) (u : BarUse) (k : State → State) : Out :=
  .next (if !s.barUp port then s else if s.barShut port u then s.cnt F.hifErr_badAcc port else k s)

/-- A write in the window of an array (R425, R427). -/
def State.barArr (s : State) (port a : Nat) (k : State → State) : Out :=
  s.bar port .unit (fun s => if s.arrVacant a then s.cnt F.hifErr_badAcc port else k s)

end Sys2Proof.Machine
end

