-- ==== Sys2Proof/Machine/Inject.lean ====
section
/-! DEFINITION. Packets on their way: what an injecting router settles, what a hold keeps back, where a packet stops, how it reaches its unit,
answers and absorption (R245, R248 to R253, R257 to R263, R273 to R275). -/

namespace Sys2Proof.Machine

/-! ### Injection -/

/-- A pin entry names the packet's source array, destination array and class (R258). -/
def State.pins? (s : State) (p : Packet) : Bool := match p.src, p.dst with
  | .tile a, .tile b => p.cls != 0 && s.on F.fabCfg_pinEn 0 && (List.range 128).any (fun n =>
      s.on F.fabPin_valid n && s.rd F.fabPin_srcArray n == a && s.rd F.fabPin_dstArray n == b && s.rd F.fabPin_class n == p.cls)
  | _, _ => false

/-- A unit of a pack. -/
def inPack (p : Nat) : Endpoint → Bool
  | .tile a => arrPack a == p
  | .hub h => h == p
  | _ => false

/-- A packet to or from a pack under hold, which stays with its unit until the release; answers go on (R249, R275). -/
def State.scopeHeld (s : State) (p : Packet) : Bool :=
  !p.reply && s.holds.any (fun n => decide (n < 64) && (inPack n p.src || inPack n p.dst))

/-- A packet to one unit that goes by a via point (R250, R258). -/
def viaClass (p : Packet) : Bool := (p.cls == 0 || p.pinned) && (match p.dst with
  | .broadcast => false
  | .group _ => false
  | _ => true)

/-- The packet as router `t` injects it. -/
def State.markAt (s : State) (t : Nat) (p : Packet) : Packet :=
  { p with route := { site := t, via := if viaClass p then s.viaFrom t (s.destSite p) else none, gen := s.rd F.fabState_maskGen 0,
                      zrc := s.on F.fabCfg_zrcEn 0 && zrcSaves p } }

/-- The packet as unit `u` injects it: pinned where an entry names its flow, by the first of the unit's routers that has a route. -/
def State.markFrom (s : State) (u : Endpoint) (p : Packet) : Packet :=
  let q := { p with pinned := p.pinned || s.pins? p }
  let ts := (s.ports u).map (·.1)
  if s.scopeHeld q then { q with route := { site := ts.headD 0, held := true } }
  else
    match ts.find? (fun t => (s.markAt t q).route.via.isSome) with
    | some t => s.markAt t q
    | none => s.markAt (ts.headD 0) q

/-- The packet as its source injects it. -/
def State.mark (s : State) (p : Packet) : Packet := s.markFrom p.src p

/-- The injecting router has no route for the packet (R252). -/
def noRoute (p : Packet) : Bool := viaClass p && !p.route.held && p.route.via.isNone

/-- The answer to a request: reply VC, the request's class, no answer of its own (R259, R245). -/
def replyTo (p : Packet) (b : PktBody) (status : Nat) : Packet :=
  { body := b, cls := p.cls, reply := true, noack := true, dst := p.src, src := p.dst, off := p.off, status := status, rtag := p.rtag }

/-- A NACK that the requester's own router makes: it has nowhere to go but the unit's port. -/
def State.localNack (s : State) (p : Packet) (status : Nat) : Packet :=
  let q := replyTo p .nack status
  let t := s.destSite q
  { q with route := { site := t, via := some (siteRow t, siteCol t), gen := s.rd F.fabState_maskGen 0 } }

/-- A router that is muzzled takes nothing from its T port (R273); its own NACKs for the array still go. -/
def State.muzzled (s : State) (p : Packet) : Bool := match p.src with
  | .tile a => s.arrFenced a && p.body != .nack
  | _ => false

/-- What enters the net for a packet that unit `u` injects: the packet, or, where no route exists, a NACK of status 2 (R252). -/
def State.enteringFrom (s : State) (u : Endpoint) (p : Packet) : List Packet :=
  let q := s.markFrom u p
  if !noRoute q then [q] else if q.reply || q.noack then [] else [s.localNack q 2]

/-- What enters the net for a packet that its source injects. -/
def State.entering (s : State) (p : Packet) : List Packet := if s.muzzled p then [] else s.enteringFrom p.src p

/-- A unit's own router refuses a packet that it does not inject. -/
def State.refuse (s : State) (p : Packet) (status : Nat) : State :=
  if p.reply || p.noack then s else { s with net := s.net ++ [s.localNack p status] }

/-- Inject a packet. -/
def State.send (s : State) (p : Packet) : State := { s with net := s.net ++ s.entering p }

/-- A unit sends on a packet of another source. -/
def State.relay (s : State) (u : Endpoint) (p : Packet) : State := { s with net := s.net ++ s.enteringFrom u p }

/-- Inject a request that expects a reply: it takes a fresh request tag and stays outstanding (R260). -/
def State.request (s : State) (r : Req) (p : Packet) : State :=
  let p1 := { p with rtag := s.nextTag }
  { s with net := s.net ++ s.entering p1, reqs := mset s.reqs s.nextTag { r with pkt := s.mark p1 }, nextTag := s.nextTag + 1 }

def State.ack (s : State) (p : Packet) : State := if p.noack then s else s.send (replyTo p (.ack 1 0 0) 0)

def State.nack (s : State) (p : Packet) (status : Nat) : State := if p.noack then s else s.send (replyTo p .nack status)

/-- What router `t` sends its own NACK for an absorbed packet as: nothing where no route leads back. -/
def State.nackFrom (s : State) (t : Nat) (p : Packet) (status : Nat) : List Packet :=
  if p.reply || p.noack then []
  else
    let q := s.markAt t (replyTo p .nack status)
    if noRoute q then [] else [q]

/-- A packet absorbed at a router: counted and, unless it is a reply or wants none, refused from there (R262). -/
def State.absorb (s : State) (site : Nat) (p : Packet) (status : Nat) : State :=
  let s1 := s.cnt F.fabRtrCnt_absorbed site
  { s1 with net := s1.net ++ s1.nackFrom site p status }

/-! ### Flits of a packet in the mesh -/

/-- Every trace of a packet leaves the mesh. -/
def Mesh.drop (m : Mesh) (p : Packet) : Mesh :=
  let keep (f : Flit) : Bool := f.pkt != p
  { m with
    bufs := (m.bufs.map (fun b => (b.1, b.2.filter keep))).filter (fun b => b.2 != [])
    locks := m.locks.filter (fun l => l.2.pkt != p)
    wires := m.wires.map (fun w => (w.1, { w.2 with fly := w.2.fly.filter keep }))
    eject := (m.eject.map (fun b => (b.1, b.2.filter keep))).filter (fun b => b.2 != [])
    deaf := m.deaf.filter (fun d => d.2 != p) }

/-- Flits of a packet at its destination router. -/
def Mesh.ejected (m : Mesh) (p : Packet) : Nat := (m.eject.map (fun b => (b.2.filter (fun f => f.pkt == p)).length)).sum

/-- Flits of a packet that have left its source. -/
def Mesh.leftSource (m : Mesh) (p : Packet) : Nat :=
  m.ejected p + (m.bufs.map (fun b => (b.2.filter (fun f => f.pkt == p)).length)).sum +
  (m.wires.map (fun b => (b.2.fly.filter (fun f => f.pkt == p)).length)).sum

/-- Every flit of the packet has reached its destination's port. -/
def Mesh.landed (m : Mesh) (p : Packet) : Bool := m.ejected p == pktFlits p

/-! ### Arrival -/

/-- A packet leaves the net, with its flits, when its unit takes it. -/
def State.take (s : State) (p : Packet) : State := { s with net := s.net.erase p, mesh := s.mesh.drop p }

/-- Two packets that R248 keeps in order, the earlier one first: TC0 under one mask generation, or one pinned flow. -/
def sameFlow (p q : Packet) : Bool :=
  p.src == q.src && p.dst == q.dst &&
  ((p.cls == 0 && q.cls == 0 && p.route.gen == q.route.gen) || (p.pinned && q.pinned && p.cls == q.cls)) &&
  (match p.body, q.body with     -- beacons and sit packets stay in the net for every island
    | .beacon .., _ => false
    | .sit _, _ => false
    | _, .beacon .. => false
    | _, .sit _ => false
    | _, _ => true)

/-- No packet that must arrive before it is still on its way. -/
def State.inOrder (s : State) (p : Packet) : Bool :=
  (s.net.takeWhile (fun q => q != p)).all (fun q => !sameFlow q p)

/-- The packet can move: it is no longer with its unit, nothing must arrive before it, and either all its flits have arrived or none has left
a router that runs. A packet that no flit command has moved crosses the mesh in the step that its unit takes it (log entry 96). -/
def State.mayMove (s : State) (p : Packet) : Bool :=
  s.net.contains p && !p.route.held && s.inOrder p &&
  (p.dst == .broadcast || s.mesh.landed p || (s.mesh.leftSource p == 0 && s.siteOk p.route.site && !s.halted (576 + p.route.site)))

/-- The status with which router `t` absorbs a packet for site `d` that it cannot send on: 5 at a live router of the seam, for the half beyond
that is stopped (R274), else 2. -/
def State.deadStatus (s : State) (t d : Nat) : Nat :=
  if siteRow t = 11 && siteSouth d && s.rd F.prtHalf_state 0 != 0 && s.siteDead d then 5 else 2

/-- Where a packet on its way is absorbed, if it is: the router and the status. A carried route stops at its first dead hop (R253); another
packet where no live routers connect it with its destination (R257). -/
def State.stopsAt (s : State) (p : Packet) : Option (Nat × Nat) :=
  let x := p.route.site
  let y := s.destSite p
  if s.mesh.landed p || s.maskEmpty || p.dst == .broadcast then none
  else match p.route.via with
    | some v => ((viaHops x y v).find? (fun h => !(s.view h.1).hop h)).map (fun h => (h.1, s.deadStatus h.1 y))
    | none =>
      if (s.viewAll.depths x).any (fun q => q.1 == y) then none
      else
        let seam := 11 * 24 + siteCol y
        if s.deadStatus seam y = 5 && s.connected x seam then some (seam, 5) else some (x, 2)

/-- The island that takes the packet is stopped: the packet waits (R539). -/
def State.dstHalted (s : State) (p : Packet) : Bool := match p.dst with
  | .tile a => s.halted (s.arrIsland a)
  | .hub h => s.halted (hubIsland h)
  | .link n => s.halted (linkIsland n)
  | .field d => s.halted (1224 + d)
  | .host h => s.halted (1226 + h)
  | .mgmt m => s.halted (1228 + m)
  | _ => false

/-- A packet reaches the port of its unit, which takes it as `k` says; one that meets a dead region on the way is absorbed there. -/
def State.arrive (s : State) (p : Packet) (k : State → State) : Out :=
  if !s.mayMove p then .next s
  else match s.stopsAt p with
    | some (t, st) => .next ((s.take p).absorb t p st)
    | none => if s.dstHalted p then .next s else .next (k (s.take p))

/-! ### Broadcasts (R263) -/

/-- The hops of the broadcast tree from router `src` to `t`: along the row, then along the column. -/
def treeHops (src t : Nat) : List (Nat × Nat) :=
  rowHops (siteRow src) (siteCol src) (siteCol t) ++ colHops (siteCol t) (siteRow src) (siteRow t)

/-- The last router before a dead one on the tree's way to `t`, which sends `t` a copy of its own. -/
def State.treeStop (s : State) (src t : Nat) : Option Nat := ((treeHops src t).find? (fun h => !(s.view h.1).hop h)).map (·.1)

/-- A broadcast from router `src` reaches router `t`: by the tree, or as a copy. -/
def State.reaches (s : State) (src t : Nat) : Bool :=
  s.siteFitted t && (s.maskEmpty || (s.siteOk t && (match s.treeStop src t with
    | none => true
    | some x => (s.viaFrom x t).isSome)))

/-- Router `t` delivers a broadcast to its units. -/
def State.hears (s : State) (p : Packet) (t : Nat) : Bool := s.reaches p.route.site t && !s.mesh.deaf.contains (t, p)

/-- Routers that a clock island (R394) hears broadcasts by. -/
def islandSites (i : Nat) : List Nat :=
  if i < 576 then [i]
  else if i < 1152 then [i - 576]
  else if i < 1216 then [packSite (i - 1152) 2, packSite (i - 1152) 5]
  else if i < 1224 then [linkHome (i - 1216)]
  else if i < 1226 then [fieldHome (i - 1224)]
  else if i < 1228 then [hostHome (i - 1226)]
  else [mgmtHome (i - 1228)]

/-- An island receives a broadcast that is on its way. -/
def State.islandHears (s : State) (p : Packet) (i : Nat) : Bool := s.net.contains p && (islandSites i).any (s.hears p)

/-- Copies that a broadcast from router `src` needs. -/
def State.copies (s : State) (src : Nat) : Nat :=
  if s.maskEmpty then 0 else (s.siteList.filter (fun t => (s.treeStop src t).isSome && s.reaches src t)).length

end Sys2Proof.Machine
end

