-- ==== Sys2Proof/Machine/Admit.lean ====
section
/-! DEFINITION. Admission of TC0 messages: token buckets, waiting messages, the tick (R320 to R324). -/

namespace Sys2Proof.Machine

/-- Source index of a unit that injects TC0. -/
def tc0Source : Endpoint → Option Nat
  | .tile a => some a
  | .mgmt m => some (512 + m)
  | .link n => some (514 + n)
  | .field d => some (522 + d)
  | _ => none

/-- Largest content of a bucket, in units of 1/4096 flit. -/
def State.bucketMax (s : State) (src : Nat) : Nat := s.rd F.admSrc_burst src * 4096

/-- Content of a bucket; an unlisted bucket is full. -/
def State.bucket (s : State) (src : Nat) : Nat := mget s.buckets src (s.bucketMax src)

def State.setBucket (s : State) (src t : Nat) : State :=
  { s with buckets := if s.bucketMax src ≤ t then mdel s.buckets src else mset s.buckets src t }

/-- Charge of a message: its flits, one more for a reply that it asks for; a broadcast is charged 1, and so is each of its copies (R321). -/
def State.chargeOf (s : State) (p : Packet) : Nat :=
  match p.dst with
  | .broadcast => 1 + s.copies (s.homeOf p.src)
  | _ => flitsOf p.payload.length + b2n (!p.noack)

/-- What admission says of a message: 0 admitted or waiting, else the NACK status that its unit gets (R243, R321, R324). -/
def State.tc0Nack (s : State) (src : Nat) (p : Packet) : Nat :=
  if 1024 < p.payload.length then 6
  else if s.rd F.admSrc_rate src = 0 then 2
  else if s.rd F.admSrc_burst src < s.chargeOf p then 6
  else 0

/-- The step status of a record that issued the message. -/
def State.tc0Status (s : State) (src : Nat) (p : Packet) : Nat := nackStatus (s.tc0Nack src p)

/-- Offer a TC0 message: it is injected at once when its charge is covered and nothing waits before it, else it waits. -/
def State.offerTc0 (s : State) (src : Nat) (p : Packet) : State :=
  let st := s.tc0Nack src p
  if st = 2 then (s.cnt F.admShape_denied src).refuse p 2
  else if st != 0 then s.refuse p st
  else if mget s.tc0Wait src [] == [] && s.chargeOf p * 4096 ≤ s.bucket src then
    (s.setBucket src (s.bucket src - s.chargeOf p * 4096)).send p
  else
    let s1 := s.cntW F.admShape_waits src
    { s1 with tc0Wait := mset s1.tc0Wait src (mget s1.tc0Wait src [] ++ [(s.ticks, p)]) }

/-- Send a TC0 message from its own source. Replies are not charged (R320); a unit without a bucket is not admitted. -/
def State.sendTc0 (s : State) (p : Packet) : State :=
  if p.reply then s.send p
  else match tc0Source p.src with
    | some i => s.offerTc0 i p
    | none => s.refuse p 2

/-- A TC0 request that stays outstanding (R260). -/
def State.requestTc0 (s : State) (r : Req) (p : Packet) : State :=
  let p1 := { p with rtag := s.nextTag }
  ({ s with reqs := mset s.reqs s.nextTag { r with pkt := p1 }, nextTag := s.nextTag + 1 }).sendTc0 p1

/-- The waiting messages of a source whose charge is covered enter the injection queue, in order; `MAX_WAIT` counts in units of 100 ns
(R325). -/
def State.drainTc0 (s : State) (src : Nat) : List (Nat × Packet) → State
  | [] => { s with tc0Wait := mdel s.tc0Wait src }
  | (t, p) :: rest =>
    if s.chargeOf p * 4096 ≤ s.bucket src then
      let w := min ((s.ticks - t) * 625 / 1000) 0xFFFF
      let s1 := (s.setBucket src (s.bucket src - s.chargeOf p * 4096)).send p
      (if s1.rd F.admShape_maxWait src < w then s1.wr F.admShape_maxWait src w else s1).drainTc0 src rest
    else { s with tc0Wait := mset s.tc0Wait src ((t, p) :: rest) }

/-- One source's part of a tick: `RATE` is added, then waiting messages leave (R320). -/
def State.tickSource (s : State) (src : Nat) : State :=
  let s1 := if (mfind s.buckets src).isSome then
      s.setBucket src (min (s.bucket src + s.rd F.admSrc_rate src) (s.bucketMax src)) else s
  match mget s1.tc0Wait src [] with
  | [] => s1
  | l => s1.drainTc0 src l

/-- ADMISSION_TICK (R320). -/
def execAdmissionTick (s : State) : Out :=
  .next ({ s with ticks := s.ticks + 1 }.each (List.range Config.nSources) State.tickSource)

/-- `ADM_TOTAL` follows the budgets (R322). -/
def State.sumAdm (s : State) : State :=
  let l := List.range Config.nSources
  (s.wr F.admTotal_rateSum 0 ((l.map (fun i => s.rd F.admSrc_rate i)).sum)).wr F.admTotal_burstSum 0
    ((l.map (fun i => s.rd F.admSrc_burst i)).sum)

/-- Source `n` names an array of an unfitted pack. -/
def State.srcUnfitted (s : State) (n : Nat) : Bool := decide (n < 512) && !s.packFitted (arrPack n)

/-- Messages of a source that wait and that its new budget can no longer admit are refused as at their injection (R321, R324). -/
def State.recheck (s : State) (n : Nat) : State :=
  let l := mget s.tc0Wait n []
  let bad := l.filter (fun e => s.tc0Nack n e.2 != 0)
  if bad == [] then s
  else
    { s with tc0Wait := mput s.tc0Wait n [] (l.filter (fun e => s.tc0Nack n e.2 == 0)) }.each bad (fun s e =>
      let st := s.tc0Nack n e.2
      (if st = 2 then s.cnt F.admShape_denied n else s).refuse e.2 st)

/-- A write of `v` to `ADM_SRC_n` (R322, R323). -/
def State.wrAdmSrc (s : State) (n v : Nat) : State :=
  let rate := bitsAt v 0 16
  let burst := bitsAt v 16 8
  let rs := s.rd F.admTotal_rateSum 0 - s.rd F.admSrc_rate n + rate
  let bs := s.rd F.admTotal_burstSum 0 - s.rd F.admSrc_burst n + burst
  if s.rd F.admLimit_rateLim 0 < rs || s.rd F.admLimit_burstLim 0 < bs || (s.srcUnfitted n && (rate != 0 || burst != 0)) then
    ((s.wr F.admRefused_src 0 n).cnt F.admRefused_count).bark 0x0009 {} [(24, n)]
  else
    let old := s.bucket n
    let s1 := ((s.wr F.admSrc_rate n rate).wr F.admSrc_burst n burst).setBucket n old
    ((s1.wr F.admTotal_rateSum 0 rs).wr F.admTotal_burstSum 0 bs).recheck n

/-- ADM_SRC_WRITE (R322, R323). -/
def execAdmSrcWrite (port : Fin 2) (n : Fin 524) (value : BitVec 32) (s : State) : Out :=
  s.bar port .unit (fun s => s.wrAdmSrc n value.toNat)

end Sys2Proof.Machine
end

