-- ==== Sys2Proof/Machine/Freq.lean ====
section
/-! DEFINITION. Set frequencies of the islands: policy, caps of the loops, floors overruled (R394, R518 to R522); an island's time in its two
modes (R408 to R412). Frequencies are in units of 25 MHz. -/

namespace Sys2Proof.Machine

/-- What an island index of R394 names. -/
inductive IslKind where | array | router | hub | link | fixed
  deriving DecidableEq, Repr

def islKind (i : Nat) : IslKind :=
  if i < 576 then .array else if i < 1152 then .router else if i < 1216 then .hub else if i < 1224 then .link else .fixed

/-- Pack of an array, router or hub island. -/
def islPack (i : Nat) : Nat := if i < 576 then sitePack i else if i < 1152 then sitePack (i - 576) else i - 1152

/-- Nominal and least set frequency (R394). -/
def islNominal (i : Nat) : Nat := if i < 576 then 48 else if i < 1224 then 60 else if i < 1226 then 50 else 40
def islMin (i : Nat) : Nat := if i < 576 then 12 else if i < 1216 then 15 else if i < 1224 then 30 else islNominal i

/-- Health unit of an island (R503). -/
def islUnit (i : Nat) : Nat := if i < 576 then i else if i < 1152 then i - 576 else if i < 1216 then i - 576 else i - 1216 + 640

/-- The router islands of a pack share their caps, kept under the one at position 0. -/
def capIsland (i : Nat) : Nat := match islKind i with
  | .router => 576 + packSite (sitePack (i - 576)) 0
  | _ => i

def capKey (i loop : Nat) : Nat := capIsland i * 8 + loop

/-- The cap of a loop on an island, if it has one (R519). Loops are numbered as in R536; the thermal cap and the pack's power cap are
registers. -/
def State.capOf (s : State) (i loop : Nat) : Option Nat :=
  match loop, islKind i with
  | 2, .array => let c := s.rd F.thmTile_cap i; if c = 0 then none else some c
  | 4, .array => let c := s.rd F.pwrPackStat_pcap (islPack i); if c = 0 then none else some c
  | _, _ => mfind s.power.caps (capKey i loop)

def State.setCap (s : State) (i loop : Nat) (c : Option Nat) : State :=
  match loop, islKind i with
  | 2, .array => s.wr F.thmTile_cap i (c.getD 0)
  | 4, .array => s.wr F.pwrPackStat_pcap (islPack i) (c.getD 0)
  | _, _ => { s with power := { s.power with
      caps := (match c with
        | some v => mset s.power.caps (capKey i loop) v
        | none => mdel s.power.caps (capKey i loop)) } }

/-- Policy ceiling and floor of an island (R518, R534); link dies have the range of R394. -/
def State.ceilOf (s : State) (i : Nat) : Nat := match islKind i with
  | .array => s.rd F.pwrPack_afCeil (islPack i)
  | .router => s.rd F.pwrPack_rfCeil (islPack i)
  | .hub => s.rd F.pwrPack_rfCeil (islPack i)
  | _ => islNominal i

def State.floorOf (s : State) (i : Nat) : Nat := match islKind i with
  | .array => s.rd F.pwrPack_afFloor (islPack i)
  | .router => s.rd F.pwrPack_rfFloor (islPack i)
  | .hub => s.rd F.pwrPack_rfFloor (islPack i)
  | _ => 0

/-- Held at its floor: its pack's service chain is silent (R494), or its tile has no reading in range (R523). -/
def State.atFloor (s : State) (i : Nat) : Bool := match islKind i with
  | .array => s.faults.chainHeld.contains (islPack i) || s.rd F.thmTile_tUsed i == 0x8000
  | .router => s.faults.chainHeld.contains (islPack i)
  | .hub => s.faults.chainHeld.contains (islPack i)
  | _ => false

/-- Lowest of an island's ceiling and caps. -/
def State.ownFreq (s : State) (i : Nat) : Nat :=
  let f := [0, 1, 2, 3, 4].foldl (fun m l => match s.capOf i l with | some c => min m c | none => m) (s.ceilOf i)
  if s.atFloor i then min f (s.floorOf i) else f

/-- The set frequency that R519 and R520 give an island; a hub follows its pack's routers. -/
def State.setFreq (s : State) (i : Nat) : Nat := match islKind i with
  | .fixed => islNominal i
  | .hub => min (s.ownFreq i) (s.ownFreq (576 + packSite (i - 1152) 0))
  | _ => s.ownFreq i

/-- Islands whose set frequency moves with that of `i`. -/
def freqGroup (i : Nat) : List Nat := match islKind i with
  | .router => (packSites (islPack i)).map (· + 576) ++ [hubIsland (islPack i)]
  | _ => [i]

/-- `AF_SET` and `RF_SET` follow. -/
def State.syncFreq (s : State) (p : Nat) : State :=
  let l := ((packSites p).filter (fun t => (mget s.time.islands t {}).running)).map s.setFreq
  (s.wr F.pwrPackStat_afSet p (l.foldl min (s.rd F.pwrPack_afCeil p))).wr F.pwrPackStat_rfSet p (s.setFreq (576 + packSite p 0))

/-- A loop has put an island below its policy floor (R522). -/
def State.overrule (s : State) (i loop f : Nat) : State :=
  (s.cnt F.pwrPackStat_overruled (islPack i)).barkRate 0x0031 i 1000000000 { kind := .island, num := i }
    [(24, i), (26, loop), (27, s.floorOf i), (28, f)]

/-- After a loop has changed caps of the islands `l`: every island that it has set lower, and below its floor, is an overrule. -/
def State.capsMoved (s old : State) (loop : Nat) (l : List Nat) : State :=
  let s1 := l.foldl (fun s i =>
    let f := s.setFreq i
    if f < old.setFreq i && f < s.floorOf i && (mget s.time.islands i {}).running then s.overrule i loop f else s) s
  ((l.filter (fun i => decide (i < 1216))).map islPack).eraseDups.foldl (fun s p => s.syncFreq p) s1

/-- A loop lowers its cap on an island, not below the island's range (R519). -/
def State.lowerCap (s : State) (i loop v : Nat) : State :=
  (s.setCap i loop (some (max v (islMin i)))).capsMoved s loop (freqGroup i)

/-- A loop raises its cap by one step; a cap at the ceiling limits nothing and is dropped. -/
def State.raiseCap (s : State) (i loop : Nat) : State :=
  match s.capOf i loop with
  | none => s
  | some c => (s.setCap i loop (if s.ceilOf i ≤ c + 1 then none else some (c + 1))).capsMoved s loop (freqGroup i)

/-- An adjustable island lowers its own set frequency by one step (R400, R403). -/
def State.stepDown (s : State) (i loop : Nat) : State :=
  if islKind i == .fixed then s else s.lowerCap i loop (s.setFreq i - 1)

/-! ### Counted and spine time (R408 to R412) -/

/-- Nanoseconds per unit of E at a set frequency (R408): 1/64 of the set period. -/
def unitNs (f : Nat) : Rat := 1000 / (64 * 25 * (f : Rat))

/-- Frequency at which an island runs now: its last completed change, or its nominal one. -/
def Island.freqNow (x : Island) (i : Nat) : Nat := if x.freq = 0 then islNominal i else x.freq

/-- Its estimate of nanoseconds per unit of E; before the first one, what its set period says. -/
def Island.g (x : Island) (i : Nat) : Rat := if x.rate = 0 then unitNs (x.freqNow i) else x.rate

/-- Counted time at E (R408), with what is being absorbed at half rate (R409). -/
def Island.at (x : Island) (i : Nat) (e : Int) : Rat :=
  let g := x.g i
  let used := min x.absorb (((e - x.absorbE : Int) : Rat) * g / 2)
  x.anchorT + ((e - x.anchorE : Int) : Rat) * g - used

/-- Spine time, `n` ticks after the last marker edge (R411). -/
def Island.spineAt (x : Island) (n : Nat) : Rat := x.spineT + (n : Rat) * (x.spinePeriod : Rat) / 2 ^ 28

/-- The time an island reads, from the time of its mode: never backward over a switch (R412). -/
def Island.reads (x : Island) (base : Rat) : Rat := base + max 0 (x.slack - (base - x.slackAt) / 2)

/-- Time of mode `m` at the last marker edge that the island has latched. -/
def Island.baseAt (x : Island) (i m : Nat) : Rat :=
  if m = 1 then x.spineAt 0 else match x.latched with
    | [] => x.spineAt 0
    | (_, e) :: _ => x.at i e

/-- Panel time as island `i` reads it: at count `e` in counted mode, `n` ticks after its last marker edge in spine mode. -/
def State.islandTime (s : State) (i : Nat) (e : Int) (n : Nat) : Rat :=
  let x := s.isl i
  x.reads (if s.rd F.clkIsl_mode i = 1 then x.spineAt n else x.at i e)

/-- A switch of an island's mode: counted, with `FALLBACK_ISL`, and with no step back of the time that it reads (R412, R420). -/
def State.setMode (s : State) (i m : Nat) : State :=
  let n := s.rd F.clkStat_fallbackIsl 0
  if s.rd F.clkIsl_mode i = m then s
  else
    let s1 := s.updIsl i (fun x =>
      let b := x.baseAt i m
      { x with switches := x.switches + 1, slack := max 0 (x.reads (x.baseAt i (1 - m)) - b), slackAt := b })
    (s1.wr F.clkIsl_mode i m).wr F.clkStat_fallbackIsl 0 (if m = 1 then n + 1 else n - 1)

/-- An island switches to spine mode; without a record where its clock was stopped or is starting. `SWITCHES` counts switches to spine
mode alone. -/
def State.toSpine (s : State) (i : Nat) : State :=
  let s1 := s.updIsl i (fun x => { x with goodRun := 0 })
  if s.rd F.clkIsl_mode i = 1 then s1 else (s1.setMode i 1).cnt F.clkIsl_switches i

end Sys2Proof.Machine
end

