-- ==== Sys2Proof/Machine/Float.lean ====
section
/-! DEFINITION. The number formats of R62 to R71 and the arithmetic of R72 to R81, R98 and R99: every value is unpacked exactly,
computed exactly, and rounded once. -/

namespace Sys2Proof.Machine

/-! ### Floating-point formats (R64) -/

/-- What encodings a format keeps for infinity and NaN. -/
inductive Special where | ieee | e4m3 | none
  deriving DecidableEq, Repr

structure FFmt where
  ebits : Nat
  mbits : Nat
  bias : Nat
  special : Special
  deriving DecidableEq, Repr

def fp64 : FFmt := ⟨11, 52, 1023, .ieee⟩
def fp32 : FFmt := ⟨8, 23, 127, .ieee⟩
def bf16 : FFmt := ⟨8, 7, 127, .ieee⟩
def fp16 : FFmt := ⟨5, 10, 15, .ieee⟩
def e4m3 : FFmt := ⟨4, 3, 7, .e4m3⟩
def e5m2 : FFmt := ⟨5, 2, 15, .ieee⟩
def e3m2 : FFmt := ⟨3, 2, 3, .none⟩
def e2m1 : FFmt := ⟨2, 1, 1, .none⟩

def FFmt.width (f : FFmt) : Nat := 1 + f.ebits + f.mbits
def FFmt.signBit (f : FFmt) : Nat := 2 ^ (f.ebits + f.mbits)
/-- Encoding of +∞ in the IEEE formats. -/
def FFmt.infEnc (f : FFmt) : Nat := (2 ^ f.ebits - 1) * 2 ^ f.mbits
/-- Largest finite magnitude's encoding. -/
def FFmt.maxEnc (f : FFmt) : Nat :=
  match f.special with
  | .ieee => f.infEnc - 1
  | .e4m3 => 2 ^ (f.ebits + f.mbits) - 2
  | .none => 2 ^ (f.ebits + f.mbits) - 1
/-- Canonical quiet NaN (R77); the MX element formats have none and write 0. -/
def FFmt.nanEnc (f : FFmt) : Nat :=
  match f.special with
  | .ieee => f.infEnc + 2 ^ (f.mbits - 1)
  | .e4m3 => 2 ^ (f.ebits + f.mbits) - 1
  | .none => 0
/-- Exponent of the smallest normal. -/
def FFmt.emin (f : FFmt) : Int := 1 - (f.bias : Int)

/-- A value: NaN (signalling or not), infinity, or (−1)^neg × m × 2^e exactly. -/
inductive FV where
  | nan (sig : Bool)
  | inf (neg : Bool)
  | fin (neg : Bool) (m : Nat) (e : Int)
  deriving DecidableEq, Repr

/-- Unpack an encoding (R64, R66). -/
def FFmt.unpack (f : FFmt) (n : Nat) : FV :=
  let neg := n.testBit (f.ebits + f.mbits)
  let x := n / 2 ^ f.mbits % 2 ^ f.ebits
  let m := n % 2 ^ f.mbits
  if f.special = .ieee && x = 2 ^ f.ebits - 1 then
    if m = 0 then .inf neg else .nan (!m.testBit (f.mbits - 1))
  else if f.special = .e4m3 && n % 2 ^ (f.ebits + f.mbits) = 2 ^ (f.ebits + f.mbits) - 1 then .nan false
  else if x = 0 then .fin neg m (f.emin - f.mbits)
  else .fin neg (m + 2 ^ f.mbits) ((x : Int) - f.bias - f.mbits)

/-! ### Rounding (R73, R74) -/

inductive RMode where | rne | rtz | rup | rdn | sr
  deriving DecidableEq, Repr

def RMode.ofCode (c : Nat) : Option RMode :=
  match c with
  | 0 => some .rne
  | 1 => some .rtz
  | 2 => some .rup
  | 3 => some .rdn
  | 4 => some .sr
  | _ => none

/-- Does a magnitude truncated to `t`, with `rem` of `2 ^ sh` discarded, round up? `r` is the 16-bit draw of R74. -/
def roundsUp (md : RMode) (neg : Bool) (r t rem sh : Nat) : Bool :=
  match md with
  | .rne => decide (2 ^ sh < 2 * rem) || (2 * rem == 2 ^ sh && t % 2 == 1)
  | .rtz => false
  | .rup => rem != 0 && !neg
  | .rdn => rem != 0 && neg
  | .sr => decide (65536 ≤ rem * 65536 / 2 ^ sh + r)

/-- Flags that one operation raises (R109). -/
structure Fl where
  invalid : Bool := false
  divzero : Bool := false
  overflow : Bool := false
  underflow : Bool := false
  inexact : Bool := false
  sat : Nat := 0
  deriving DecidableEq, Repr

def Fl.or (a b : Fl) : Fl :=
  ⟨a.invalid || b.invalid, a.divzero || b.divzero, a.overflow || b.overflow, a.underflow || b.underflow, a.inexact || b.inexact, a.sat + b.sat⟩

/-- Options of the conversion control word that overflow depends on (R72). -/
structure Ovf where
  e4m3Nan : Bool := false
  e5m2Sat : Bool := false
  deriving DecidableEq, Repr

/-- m × 2^e cut to a multiple of 2^q: the whole units and the rest. -/
def cutAt (m : Nat) (e q : Int) : Nat × Nat × Nat :=
  if q ≤ e then (m * 2 ^ (e - q).toNat, 0, 0)
  else let sh := (q - e).toNat; (m / 2 ^ sh, m % 2 ^ sh, sh)

/-- Magnitude encoding of `t` units of 2^q, `t < 2 ^ (mbits + 1)` or one carry above. -/
def FFmt.encode (f : FFmt) (t : Nat) (q : Int) : Nat :=
  if t < 2 ^ f.mbits then t
  else if t < 2 ^ (f.mbits + 1) then ((q + f.mbits + f.bias).toNat) * 2 ^ f.mbits + (t - 2 ^ f.mbits)
  else ((q + 1 + f.mbits + f.bias).toNat) * 2 ^ f.mbits

/-- What a finite overflow delivers (R76). -/
def FFmt.overflowTo (f : FFmt) (md : RMode) (o : Ovf) (neg : Bool) : Nat :=
  let sg := if neg then f.signBit else 0
  match f.special with
  | .none => sg + f.maxEnc
  | .e4m3 => if o.e4m3Nan then f.nanEnc else sg + f.maxEnc
  | .ieee =>
    if f = e5m2 && o.e5m2Sat then sg + f.maxEnc
    else match md with
      | .rne => sg + f.infEnc
      | .sr => sg + f.infEnc
      | .rtz => sg + f.maxEnc
      | .rup => if neg then sg + f.maxEnc else f.infEnc
      | .rdn => if neg then sg + f.infEnc else f.maxEnc

/-- Round a finite value once to a format (R73 to R76, R557). `UNDERFLOW`: tiny after rounding, as with an unbounded exponent, and
inexact. -/
def FFmt.round (f : FFmt) (md : RMode) (o : Ovf) (r : Nat) (neg : Bool) (m : Nat) (e : Int) : Nat × Fl :=
  let sg := if neg then f.signBit else 0
  if m = 0 then (sg, {})
  else
    let top : Int := (m.log2 : Int) + e
    let q := max top f.emin - f.mbits
    let c := cutAt m e q
    let t := if roundsUp md neg r c.1 c.2.1 c.2.2 then c.1 + 1 else c.1
    let x := f.encode t q
    let inex := c.2.1 != 0
    let q' := top - f.mbits
    let c' := cutAt m e q'
    let t' := if roundsUp md neg r c'.1 c'.2.1 c'.2.2 then c'.1 + 1 else c'.1
    let tiny := decide (top < f.emin) && !(top + 1 = f.emin && t' = 2 ^ (f.mbits + 1))
    if f.maxEnc < x then (f.overflowTo md o neg, { overflow := true, inexact := true })
    else (sg + x, { inexact := inex, underflow := tiny && inex })

/-- What an infinite input delivers (R76); it raises no flag. -/
def FFmt.ofInf (f : FFmt) (o : Ovf) (neg : Bool) : Nat :=
  let sg := if neg then f.signBit else 0
  match f.special with
  | .ieee => if f = e5m2 && o.e5m2Sat then sg + f.maxEnc else sg + f.infEnc
  | .e4m3 => if o.e4m3Nan then f.nanEnc else sg + f.maxEnc
  | .none => sg + f.maxEnc

/-- Pack a value into a format with one rounding. -/
def FFmt.pack (f : FFmt) (md : RMode) (o : Ovf) (r : Nat) (v : FV) : Nat × Fl :=
  match v with
  | .nan sig => (f.nanEnc, { invalid := sig })
  | .inf neg => (f.ofInf o neg, {})
  | .fin neg m e => f.round md o r neg m e

/-- Round to an integer between `lo` and `hi` (R79, R557). `INEXACT` reports the rounding, `SATURATED` the limit (log entry 13). -/
def packInt (lo hi : Int) (md : RMode) (r : Nat) (v : FV) : Int × Fl :=
  match v with
  | .nan _ => (0, { invalid := true })
  | .inf neg => (if neg then lo else hi, { sat := 1 })
  | .fin neg m e =>
    let c := cutAt m e 0
    let t := if roundsUp md neg r c.1 c.2.1 c.2.2 then c.1 + 1 else c.1
    let i : Int := if neg then -(t : Int) else t
    let inexact := c.2.1 != 0
    if i < lo then (lo, { sat := 1, inexact := inexact })
    else if hi < i then (hi, { sat := 1, inexact := inexact })
    else (i, { inexact := inexact })

/-! ### Exact arithmetic on values -/

def FV.isNan : FV → Bool
  | .nan _ => true
  | _ => false

def FV.sig : FV → Bool
  | .nan b => b
  | _ => false

def FV.neg : FV → Bool
  | .nan _ => false
  | .inf n => n
  | .fin n _ _ => n

def FV.isInf : FV → Bool
  | .inf _ => true
  | _ => false

def FV.isZero : FV → Bool
  | .fin _ 0 _ => true
  | _ => false

def FV.flipSign (b : Bool) : FV → FV
  | .nan s => .nan s
  | .inf n => .inf (n ^^ b)
  | .fin n m e => .fin (n ^^ b) m e

/-- The signed integer of a finite value in units of 2^q, q at most its exponent. -/
def signedAt (neg : Bool) (m : Nat) (e q : Int) : Int :=
  let v : Int := (m * 2 ^ (e - q).toNat : Nat)
  if neg then -v else v

/-- Exact sum; an exact zero takes the sign IEEE 754 gives it under the rounding mode. -/
def FV.add (md : RMode) (x y : FV) : FV × Bool :=
  match x, y with
  | .nan a, .nan b => (.nan false, a || b)
  | .nan a, _ => (.nan false, a)
  | _, .nan b => (.nan false, b)
  | .inf a, .inf b => if a = b then (.inf a, false) else (.nan false, true)
  | .inf a, _ => (.inf a, false)
  | _, .inf b => (.inf b, false)
  | .fin a m e, .fin b n g =>
    let q := min e g
    let t := signedAt a m e q + signedAt b n g q
    if t = 0 then (.fin (if m = 0 && n = 0 && a = b then a else md == .rdn) 0 0, false)
    else (.fin (decide (t < 0)) t.natAbs q, false)

/-- Exact product. -/
def FV.mul (x y : FV) : FV × Bool :=
  match x, y with
  | .nan a, .nan b => (.nan false, a || b)
  | .nan a, _ => (.nan false, a)
  | _, .nan b => (.nan false, b)
  | .inf a, .inf b => (.inf (a ^^ b), false)
  | .inf a, .fin b n _ => if n = 0 then (.nan false, true) else (.inf (a ^^ b), false)
  | .fin a m _, .inf b => if m = 0 then (.nan false, true) else (.inf (a ^^ b), false)
  | .fin a m e, .fin b n g => (.fin (a ^^ b) (m * n) (e + g), false)

/-- Quotient to 160 bits with a sticky last bit, which rounds as the exact quotient does to every format. -/
def FV.div (x y : FV) : FV × Fl :=
  match x, y with
  | .nan a, .nan b => (.nan false, { invalid := a || b })
  | .nan a, _ => (.nan false, { invalid := a })
  | _, .nan b => (.nan false, { invalid := b })
  | .inf _, .inf _ => (.nan false, { invalid := true })
  | .inf a, .fin b _ _ => (.inf (a ^^ b), {})
  | .fin a _ _, .inf b => (.fin (a ^^ b) 0 0, {})
  | .fin a m e, .fin b n g =>
    if n = 0 then (if m = 0 then (.nan false, { invalid := true }) else (.inf (a ^^ b), { divzero := true }))
    else
      let k := 160 + n.log2
      let q := m * 2 ^ k / n
      (.fin (a ^^ b) (2 * q + (if m * 2 ^ k % n = 0 then 0 else 1)) (e - g - k - 1), {})

/-- Integer square root, one bit a step. -/
def isqrtGo (n : Nat) : Nat → Nat → Nat
  | 0, x => x
  | k + 1, x => let y := x + 2 ^ k; isqrtGo n k (if y * y ≤ n then y else x)

def isqrt (n : Nat) : Nat := isqrtGo n (n.log2 / 2 + 1) 0

/-- Square root to more than 130 bits with a sticky last bit. -/
def FV.sqrt (x : FV) : FV × Fl :=
  match x with
  | .nan a => (.nan false, { invalid := a })
  | .inf true => (.nan false, { invalid := true })
  | .inf false => (.inf false, {})
  | .fin a m e =>
    if m = 0 then (.fin a 0 0, {})
    else if a then (.nan false, { invalid := true })
    else
      let k := 260 + (e % 2).toNat
      let n := m * 2 ^ k
      let s := isqrt n
      (.fin false (2 * s + (if s * s = n then 0 else 1)) ((e - k) / 2 - 1), {})

/-- Order of two values that are not NaN: −1, 0, 1. -/
def FV.cmp (x y : FV) : Int :=
  match x, y with
  | .inf a, .inf b => if a = b then 0 else if a then -1 else 1
  | .inf a, _ => if a then -1 else 1
  | _, .inf b => if b then 1 else -1
  | .fin a m e, .fin b n g =>
    let q := min e g
    let t := signedAt a m e q - signedAt b n g q
    if t < 0 then -1 else if t = 0 then 0 else 1
  | _, _ => 0

/-! ### High-precision values of the approximate functions (R99)

Fixed point with 192 fractional bits, whose error stays far below the accuracy that R99 states. -/

def fxBits : Nat := 192

/-- ln 2 and log2 e in units of 2^-192. -/
def fxLn2 : Nat := 4350955369971217654477563090224794165364344896676135745069
def fxLog2e : Nat := 9055943544797870567083544809312461607371518589544137143473

/-- e^r for 0 ≤ r < 1 in fixed point: the series to `n` terms. -/
def fxExpGo (r : Nat) : Nat → Nat → Nat → Nat → Nat
  | 0, _, _, acc => acc
  | n + 1, i, term, acc => let t := term * r / 2 ^ fxBits / i; fxExpGo r n (i + 1) t (acc + t)

def fxExp (r : Nat) : Nat := fxExpGo r 50 1 (2 ^ fxBits) (2 ^ fxBits)

/-- 2^(y / 2^192) as mantissa and exponent. -/
def fxExp2 (y : Int) : Nat × Int :=
  let k := y / (2 ^ fxBits : Nat)
  let f := (y % (2 ^ fxBits : Nat)).toNat
  (fxExp (f * fxLn2 / 2 ^ fxBits), k - fxBits)

/-- A finite value in fixed point. -/
def toFx (neg : Bool) (m : Nat) (e : Int) : Int :=
  let c := cutAt m e (-(fxBits : Int))
  if neg then -(c.1 : Int) else c.1

/-- atanh z, z in fixed point below 1/2: the odd series. -/
def fxAtanhGo (z2 : Nat) : Nat → Nat → Nat → Nat → Nat
  | 0, _, _, acc => acc
  | n + 1, i, pw, acc => fxAtanhGo z2 n (i + 2) (pw * z2 / 2 ^ fxBits) (acc + pw / i)

/-- log2 of m × 2^e in fixed point. -/
def fxLog2 (m : Nat) (e : Int) : Int :=
  let l := m.log2
  let one := 2 ^ fxBits
  let x := m * one / 2 ^ l                       -- in [1, 2)
  let z := (x - one) * one / (x + one)
  let at' := fxAtanhGo (z * z / one) 70 1 z 0
  ((l : Int) + e) * (one : Nat) + ((2 * at' * fxLog2e / one : Nat) : Int)

/-- e^(x) of a fixed-point argument, as mantissa and exponent. -/
def fxExpOf (x : Int) : Nat × Int := fxExp2 (x * fxLog2e / (2 ^ fxBits : Nat))

/-- Sigmoid of a fixed-point argument: 1 / (1 + e^(−x)), as mantissa and exponent. -/
def fxSigmoid (x : Int) : Nat × Int :=
  let p := fxExpOf (-x)
  -- 1 + p in units of the smaller exponent
  let q := min p.2 0
  let d := 2 ^ (0 - q).toNat + p.1 * 2 ^ (p.2 - q).toNat
  let k := fxBits + d.log2
  (2 ^ k / d, -q - k)

/-- The answer that an approximate function gives: the correctly rounded value displaced as `Config.approx` says, kept within `n` units
of the last place, or within 2^-22 where `abs` and larger (R99). `exact`: m × 2^e is the function's value itself, so that an answer equal to
it is not inexact (R109). -/
def approxAns (code : Nat) (x : Nat) (n : Nat) (abs : Bool) (md : RMode) (neg : Bool) (m : Nat) (e : Int) (exact : Bool := false) : Nat × Fl :=
  let p0 := fp32.round md {} 0 neg m e
  let r0 : Nat × Fl := if exact then p0 else (p0.1, { p0.2 with inexact := true })
  let mag := r0.1 % fp32.signBit
  let cand : Int := (mag : Int) + Config.approx code (BitVec.ofNat 32 x)
  if cand < 0 || (fp32.maxEnc : Int) < cand || fp32.maxEnc < mag then r0
  else
    let c := cand.toNat
    match fp32.unpack c with
    | .fin _ cm ce =>
      let top : Int := (m.log2 : Int) + e
      let ulp := max top fp32.emin - 23
      let q := min (min ce e) (min ulp (-22))
      let diff := (signedAt false cm ce q - signedAt false m e q).natAbs
      let tol := max (n * 2 ^ (ulp - q).toNat) (if abs then 2 ^ (-22 - q).toNat else 0)
      let inexact := !exact || diff != 0
      if diff ≤ tol then ((if neg then fp32.signBit else 0) + c, { inexact := inexact, underflow := inexact && decide (c < 2 ^ 23) })
      else r0
    | _ => r0

/-- Codes of R129 for the approximate functions. -/
def approxFn (code : Nat) (md : RMode) (x : Nat) : Nat × Fl :=
  let v := fp32.unpack x
  let one : Nat := 0x3F800000
  let huge : Nat × Fl := fp32.round md {} 0 false 1 200
  let tinyv (neg : Bool) : Nat × Fl := fp32.round md {} 0 neg 1 (-300)
  match v with
  | .nan sig => (fp32.nanEnc, { invalid := sig })
  | .inf neg =>
    match code with
    | 0x11 => (if neg then fp32.signBit else 0, {})
    | 0x12 => if neg then (fp32.nanEnc, { invalid := true }) else (0, {})
    | 0x13 => (if neg then 0 else fp32.infEnc, {})
    | 0x15 => (if neg then 0 else fp32.infEnc, {})
    | 0x14 => if neg then (fp32.nanEnc, { invalid := true }) else (fp32.infEnc, {})
    | 0x16 => if neg then (fp32.nanEnc, { invalid := true }) else (fp32.infEnc, {})
    | 0x17 => ((if neg then fp32.signBit else 0) + one, {})
    | 0x18 => (if neg then 0 else one, {})
    | _ => (if neg then fp32.signBit else fp32.infEnc, {})
  | .fin neg m e =>
    let fx := toFx neg m e
    match code with
    | 0x11 =>
      if m = 0 then ((if neg then fp32.signBit else 0) + fp32.infEnc, { divzero := true })
      else match FV.div (.fin neg 1 0) (.fin false m e) with
        | (.fin _ qm qe, _) =>
          let r := fp32.round md {} 0 neg qm qe
          if r.2.overflow || !r.2.inexact then r else approxAns code x 1 false md neg qm qe
        | _ => (fp32.nanEnc, {})
    | 0x12 =>
      if m = 0 then ((if neg then fp32.signBit else 0) + fp32.infEnc, { divzero := true })
      else if neg then (fp32.nanEnc, { invalid := true })
      else match FV.div (.fin false 1 0) (FV.sqrt (.fin false m e)).1 with
        | (.fin _ qm qe, _) =>
          let sq := isqrt (m * 2 ^ (e % 2).toNat)
          if sq * sq = m * 2 ^ (e % 2).toNat && sq = 2 ^ sq.log2 then fp32.round md {} 0 false 1 (-(sq.log2 : Int) - (e / 2))
          else approxAns code x 1 false md false qm qe
        | _ => (fp32.nanEnc, {})
    | 0x13 =>
      if m = 0 then (one, {})
      else if (128 : Int) * (2 ^ fxBits : Nat) ≤ fx then huge
      else if fx ≤ -(200 : Int) * (2 ^ fxBits : Nat) then tinyv false
      else if fx % (2 ^ fxBits : Nat) = 0 then approxAns code x 1 false md false 1 (fx / (2 ^ fxBits : Nat)) true
      else let p := fxExp2 fx; approxAns code x 1 false md false p.1 p.2
    | 0x15 =>
      if m = 0 then (one, {})
      else if (89 : Int) * (2 ^ fxBits : Nat) ≤ fx then huge
      else if fx ≤ -(120 : Int) * (2 ^ fxBits : Nat) then tinyv false
      else
        let p := fxExpOf fx
        if (fp32.round md {} 0 false p.1 p.2).2.overflow then huge else approxAns code x 2 false md false p.1 p.2
    | 0x14 =>
      if m = 0 then (fp32.signBit + fp32.infEnc, { divzero := true })
      else if neg then (fp32.nanEnc, { invalid := true })
      else
        let l := fxLog2 m e
        if x = one then (0, {})
        else if m = 2 ^ m.log2 then fp32.round md {} 0 (decide ((m.log2 : Int) + e < 0)) ((m.log2 : Int) + e).natAbs 0
        else approxAns code x 1 false md (decide (l < 0)) l.natAbs (-(fxBits : Int))
    | 0x16 =>
      if m = 0 then (fp32.signBit + fp32.infEnc, { divzero := true })
      else if neg then (fp32.nanEnc, { invalid := true })
      else if x = one then (0, {})
      else
        let l := fxLog2 m e * fxLn2 / (2 ^ fxBits : Nat)
        approxAns code x 2 false md (decide (l < 0)) l.natAbs (-(fxBits : Int))
    | 0x17 =>
      if m = 0 then (x, {})
      else
        let big := decide ((20 : Int) * (2 ^ fxBits : Nat) ≤ (fx.natAbs : Int))
        if (m.log2 : Int) + e < -40 then approxAns code x 4 true md neg m e
        else if big then approxAns code x 4 true md neg (2 ^ fxBits - 1) (-(fxBits : Int))
        else
          -- tanh |x| = 2 sigmoid(2 |x|) − 1
          let g := fxSigmoid (2 * (fx.natAbs : Int))
          let t := signedAt false g.1 (g.2 + 1) (g.2) - signedAt false 1 0 g.2
          approxAns code x 4 true md neg t.natAbs g.2
    | 0x18 =>
      if m = 0 then approxAns code x 4 true md false 1 (-1) true
      else if (m.log2 : Int) + e < 10 then let g := fxSigmoid fx; approxAns code x 4 true md false g.1 g.2
      else if neg then tinyv false else approxAns code x 4 true md false (2 ^ fxBits - 1) (-(fxBits : Int))
    | 0x19 =>
      if m = 0 then (x, {})
      else if (m.log2 : Int) + e < 10 then let g := fxSigmoid fx; approxAns code x 4 true md neg (m * g.1) (e + g.2)
      else if neg then tinyv true else approxAns code x 4 true md false m e
    | _ =>
      -- gelu in tanh form: x × sigmoid(2 √(2/π) (x + 0.044715 x³))
      if m = 0 then (x, {})
      else if (m.log2 : Int) + e < 4 then
        let one' : Int := (2 ^ fxBits : Nat)
        let c1 : Int := 44715 * one' / 1000000
        let c2 : Int := (isqrt (8 * (2 ^ (2 * fxBits)) * 10 ^ 20 / 314159265358979323846) : Nat)
        let x3 := fx * fx / one' * fx / one'
        let u := (fx + c1 * x3 / one') * c2 / one'
        let g := fxSigmoid u
        approxAns code x 4 true md neg (m * g.1) (e + g.2)
      else if neg then tinyv true else approxAns code x 4 true md false m e

/-- Exponential and sigmoid of the gate unit, within the accuracy of R99 (R103). -/
def gateExp (x : Nat) : Nat × Fl :=
  match fp32.unpack x with
  | .fin neg m e =>
    let fx := toFx neg m e
    if m = 0 then (0x3F800000, {})
    else if fx ≤ -(120 : Int) * (2 ^ fxBits : Nat) then (0, {})
    else let p := fxExpOf fx; approxAns 0x100 x 2 false .rne false p.1 p.2
  | .inf neg => (if neg then 0 else fp32.infEnc, {})
  | .nan s => (fp32.nanEnc, { invalid := s })

def gateSigmoid (x : Nat) : Nat × Fl :=
  match fp32.unpack x with
  | .fin neg m e =>
    if (m.log2 : Int) + e < 10 then let g := fxSigmoid (toFx neg m e); approxAns 0x101 x 4 true .rne false g.1 g.2
    else if neg then (0, {}) else (0x3F800000, {})
  | .inf neg => (if neg then 0 else 0x3F800000, {})
  | .nan s => (fp32.nanEnc, { invalid := s })

end Sys2Proof.Machine
end

