-- ==== Sys2Proof/Machine/Operands.lean ====
section
/-! DEFINITION. Step records (R114 to R147) and the formats of their operands (R62 to R71): which bits carry which field, the checks of
R63, R115 and R119, and how elements lie in memory. -/

namespace Sys2Proof.Machine

/-! ### Formats (R62) -/

/-- Width in bits of an element of a format code; 0 where the code names no array format. -/
def fmtWidth (c : Nat) : Nat :=
  match c with
  | 0 => 64
  | 1 => 32
  | 2 => 16
  | 3 => 16
  | 4 => 8
  | 5 => 8
  | 6 => 6
  | 7 => 4
  | 8 => 8
  | 9 => 4
  | 12 => 8
  | 13 => 8
  | 14 => 32
  | _ => 0

/-- The float format of an element. -/
def fmtFloat (c : Nat) : Option FFmt :=
  match c with
  | 0 => some fp64
  | 1 => some fp32
  | 2 => some bf16
  | 3 => some fp16
  | 4 => some e4m3
  | 5 => some e5m2
  | 6 => some e3m2
  | 7 => some e2m1
  | 12 => some e4m3
  | 13 => some e5m2
  | _ => none

def isMx (c : Nat) : Bool := c == 6 || c == 7 || c == 12 || c == 13
def isInt (c : Nat) : Bool := c == 8 || c == 9 || c == 14
/-- CB8, CB4 and the reserved code name no array operand or destination (R63). -/
def badFmt (c : Nat) : Bool := c == 10 || c == 11 || 15 ≤ c

/-- Signed value of a `w`-bit two's-complement number (R65). -/
def sext (w v : Nat) : Int := if v.testBit (w - 1) then (v : Int) - 2 ^ w else v
/-- Two's-complement encoding. -/
def toTwos (w : Nat) (i : Int) : Nat := (i % 2 ^ w).toNat

/-- The value of an element, its block's scale byte `x` applied (R68); 127 for formats without one (R69). -/
def elemVal (c bits x : Nat) : FV :=
  match fmtFloat c with
  | some f =>
    if isMx c && x == 255 then .nan false
    else match f.unpack bits with
      | .fin n m e => .fin n m (e + ((x : Int) - 127))
      | v => v
  | none => let i := sext (fmtWidth c) bits; .fin (decide (i < 0)) i.natAbs 0

/-- Elements of `w` bits packed from bit 0 of the first byte (R67). -/
def unpackElems (w n : Nat) (bytes : List Byte) : List Nat :=
  let v := leNat bytes
  (List.range n).map (fun e => bitsAt v (e * w) w)

/-- Elements of `w` bits as bytes; bits of the last byte beyond the last element are written 0 (log entry 85). -/
def packElems (w : Nat) (vals : List Nat) : List Byte :=
  leBytes (ceilDiv (vals.length * w) 8) ((List.range vals.length).foldl (fun v e => v + vals.getD e 0 % 2 ^ w * 2 ^ (e * w)) 0)

/-! ### The conversion control word (R72) -/

structure Ccw where
  fmt : Nat
  md : RMode
  ovf : Ovf
  deriving DecidableEq, Repr

/-- Reserved `RMODE` values and bits make the record format-illegal. -/
def ccwOf (v : Nat) : Option Ccw :=
  match RMode.ofCode (bitsAt v 4 3) with
  | none => none
  | some m => if 2 ^ 9 ≤ v then none else some ⟨v % 16, m, ⟨v.testBit 7, v.testBit 8⟩⟩

/-- Convert a value to a non-MX format (R79). -/
def convertTo (c : Ccw) (md : RMode) (r : Nat) (v : FV) : Nat × Fl :=
  match fmtFloat c.fmt with
  | some f => f.pack md c.ovf r v
  | none =>
    let w := fmtWidth c.fmt
    let p := packInt (-(2 ^ (w - 1) : Nat)) ((2 ^ (w - 1) - 1 : Nat)) md r v
    (toTwos w p.1, p.2)

/-! ### xorshift32 (R75) -/

def xorshift (s : Nat) : Nat :=
  let a := s ^^^ (s * 2 ^ 13 % 2 ^ 32)
  let b := a ^^^ (a / 2 ^ 17)
  b ^^^ (b * 2 ^ 5 % 2 ^ 32)

/-- State of lane `i` at the start of a record. -/
def laneSeed (seed i : Nat) : Nat :=
  let s := seed ^^^ ((i + 1) * 0x9E3779B9 % 2 ^ 32)
  if s = 0 then 0x6D2B79F5 else s

def xorshiftN : Nat → Nat → Nat
  | 0, s => s
  | n + 1, s => xorshiftN n (xorshift s)

/-- The draw of lane `i` for its `k`-th element, from 0. -/
def laneDraw (seed i k : Nat) : Nat := xorshiftN (k + 1) (laneSeed seed i) % 65536

/-! ### Records -/

/-- The kinds of record: opcode with `KIND` or `MODE` (R120). -/
inductive RecKind where
  | loadWeight | loadAcc | loadCopy | storeAcc | storeCopy | storeFlags | matmul | vecop | gate | gather | scatter | reduce
  | send | recv | dispatchSend | dispatchReturn | waitCount | signal | fence | commit | endStep
  deriving DecidableEq, Repr

/-- A field of a record by byte, lowest bit within it, and width. -/
def Rf (r : Record) (byte lo w : Nat) : Nat := bitsAt r.toNat (8 * byte + lo) w

def recOpcode (r : Record) : Nat := Rf r 0 0 8
def recTag (r : Record) : Nat := Rf r 4 0 32

/-- Opcode and kind; an undefined opcode gives nothing (R115). A kind outside its range is taken with the opcode's first kind and
refused by `fieldsOk`. -/
def recKind (r : Record) : Option RecKind :=
  match recOpcode r with
  | 0x01 => some (match Rf r 8 0 4 with | 1 => .loadAcc | 2 => .loadCopy | _ => .loadWeight)
  | 0x02 => some (match Rf r 8 0 4 with | 1 => .storeCopy | 2 => .storeFlags | _ => .storeAcc)
  | 0x10 => some .matmul
  | 0x11 => some .vecop
  | 0x12 => some .gate
  | 0x20 => some .gather
  | 0x21 => some .scatter
  | 0x22 => some .reduce
  | 0x23 => some .send
  | 0x24 => some .recv
  | 0x25 => some (if Rf r 8 0 8 = 1 then .dispatchReturn else .dispatchSend)
  | 0x30 => some .waitCount
  | 0x31 => some .signal
  | 0x32 => some .fence
  | 0x3E => some .commit
  | 0x3F => some .endStep
  | _ => none

/-- The unit that executes a record (R110). -/
def RecKind.unit : RecKind → RUnit
  | .matmul => .matrix
  | .vecop => .vector
  | .storeAcc => .vector
  | .storeFlags => .vector
  | .gate => .gate
  | .loadWeight => .mover
  | .loadAcc => .mover
  | .loadCopy => .mover
  | .storeCopy => .mover
  | .waitCount => .control
  | .fence => .control
  | .endStep => .control
  | _ => .fabric

def RUnit.depth : RUnit → Nat
  | .matrix => 4
  | .vector => 8
  | .gate => 2
  | .mover => 8
  | .fabric => 16
  | .control => 1

/-- Body fields: byte, lowest bit, width. Every other body bit is reserved (R115, log entry 12). Local addresses are 26 bits, global
addresses 42, operand sources and accumulator references as R116 gives them. -/
def RecKind.fields : RecKind → List (Nat × Nat × Nat)
  | .loadWeight => [(8, 0, 4), (9, 0, 7), (12, 0, 26), (16, 0, 32), (20, 0, 26), (24, 0, 26)]
  | .loadAcc => [(8, 0, 4), (9, 0, 4), (10, 0, 1), (11, 0, 8), (12, 0, 26), (16, 0, 32), (20, 0, 9)]
  | .loadCopy => [(8, 0, 4), (12, 0, 26), (16, 0, 32), (24, 0, 42)]
  | .storeAcc => [(8, 0, 4), (10, 0, 1), (11, 0, 8), (12, 0, 9), (16, 0, 32), (20, 0, 16), (24, 0, 42), (32, 0, 32)]
  | .storeCopy => [(8, 0, 4), (12, 0, 26), (16, 0, 32), (24, 0, 42)]
  | .storeFlags => [(8, 0, 4), (9, 0, 1), (12, 0, 26)]
  | .matmul => [(8, 0, 26), (12, 0, 26), (16, 0, 32), (20, 0, 32), (24, 0, 4), (25, 0, 2), (26, 0, 9), (28, 0, 1), (29, 0, 8), (30, 0, 16)]
  | .vecop => [(8, 0, 16), (10, 0, 4), (11, 0, 3), (12, 0, 32), (16, 0, 32), (20, 0, 32), (24, 0, 32), (28, 0, 64), (36, 0, 32),
      (40, 0, 16), (44, 0, 32), (48, 0, 64)]
  | .gate => [(8, 0, 32), (12, 0, 32), (16, 0, 32), (20, 0, 26), (24, 0, 26), (28, 0, 26), (32, 0, 256)]
  | .gather => [(8, 0, 26), (12, 0, 32), (16, 0, 32), (20, 0, 42), (28, 0, 32), (32, 0, 24), (36, 0, 32), (40, 0, 64)]
  | .scatter => [(8, 0, 26), (12, 0, 32), (16, 0, 26), (20, 0, 32), (24, 0, 42), (32, 0, 56)]
  | .reduce => [(8, 0, 26), (12, 0, 32), (16, 0, 24), (19, 0, 1), (20, 0, 42), (28, 0, 16), (32, 0, 26)]
  | .send => [(8, 0, 6), (9, 0, 1), (12, 0, 26), (16, 0, 32), (20, 0, 26)]
  | .recv => [(8, 0, 6), (9, 0, 1), (12, 0, 26), (16, 0, 32), (20, 0, 26)]
  | .dispatchSend => [(8, 0, 32), (12, 0, 26), (16, 0, 26), (20, 0, 32), (24, 0, 26), (28, 0, 6), (32, 0, 26)]
  | .dispatchReturn => [(8, 0, 16), (11, 0, 6), (12, 0, 26), (16, 0, 26), (20, 0, 32), (24, 0, 26), (28, 0, 32), (32, 0, 32)]
  | .waitCount => [(8, 0, 6), (9, 0, 1), (12, 0, 64)]
  | .signal => [(9, 0, 1), (10, 0, 15), (12, 0, 32)]
  | .fence => [(8, 0, 6)]
  | .commit => [(8, 0, 9), (10, 0, 6), (10, 7, 1), (11, 0, 8), (16, 0, 26), (20, 0, 32), (24, 0, 42), (32, 0, 26), (36, 0, 32),
      (40, 0, 42), (48, 0, 26), (52, 0, 32), (56, 0, 42)]
  | .endStep => []

/-- Header fields of R114. -/
def headFields : List (Nat × Nat × Nat) := [(0, 0, 14), (2, 0, 7), (4, 0, 32)]

/-- Every bit outside the fields is 0. -/
def reservedZero (r : Record) (k : RecKind) : Bool :=
  let mask := (headFields ++ k.fields).foldl (fun m f => m ||| (2 ^ f.2.2 - 1) * 2 ^ (8 * f.1 + f.2.1)) 0
  r.toNat &&& mask == r.toNat

/-- An operand source (R116). -/
inductive Src where
  | mem (addr : Nat)
  | acc (half row : Nat)
  deriving DecidableEq, Repr

def srcOf (v : Nat) : Src := if v.testBit 31 then .acc (v % 2) (bitsAt v 8 8) else .mem v

def srcOk (v : Nat) : Bool := if v.testBit 31 then v &&& 0x8000FF01 == v else decide (v < 2 ^ 26)

/-- A global address (R116). -/
def gaddrOf (v : Nat) : GAddr := { off := bitsAt v 0 26, array := bitsAt v 26 9, ctr := bitsAt v 35 6, ctrEn := v.testBit 41 }

/-- VECOP functions defined by R129. -/
def funcDefined (f : Nat) : Bool := f ≤ 0x1A || (0x20 ≤ f && f ≤ 0x26) || f == 0x30 || f == 0x31 || f == 0x38

/-- The computation format (R129). -/
inductive Comp where | f64 | f32 | i32
  deriving DecidableEq, Repr

def compOf (c : Nat) : Comp := if c = 0 then .f64 else if isInt c then .i32 else .f32

/-- R129: is a function offered in a computation format? -/
def funcOffered (f : Nat) (c : Comp) : Bool :=
  match c with
  | .i32 => !([0x04, 0x05, 0x06, 0x0B, 0x0F, 0x38].contains f || (0x11 ≤ f && f ≤ 0x1A))
  | .f64 => !((0x11 ≤ f && f ≤ 0x1A) || f == 0x38 || (0x20 ≤ f && f ≤ 0x26))
  | .f32 => !(0x20 ≤ f && f ≤ 0x26)

/-- Functions that read no B. -/
def readsB (f : Nat) : Bool :=
  [0x01, 0x02, 0x03, 0x04, 0x05, 0x07, 0x08, 0x0B, 0x0C, 0x0D, 0x0E, 0x0F, 0x10].contains f || (0x20 ≤ f && f ≤ 0x26)

/-- Does a VECOP use its C field: fma's operand, select's mask, scale bytes (R129, R560)? -/
def usesC (r : Record) : Bool :=
  let f := Rf r 8 0 8
  f == 0x04 || f == 0x10 || f == 0x38 || (f == 0 && isMx (Rf r 9 0 4))

/-- Some operand or destination of a VECOP is in an accumulator half (R128). -/
def accOperand (r : Record) : Bool :=
  let f := Rf r 8 0 8
  Rf r 12 31 1 == 1 || Rf r 24 31 1 == 1 || (readsB f && Rf r 11 2 1 == 0 && Rf r 16 31 1 == 1) || (f == 0x04 && Rf r 20 31 1 == 1)

def mult (v n : Nat) : Bool := v % n == 0
def between (v lo hi : Nat) : Bool := decide (lo ≤ v) && decide (v ≤ hi)

/-- Ranges and alignment of R115 and R119; false is field-illegal. -/
def fieldsOk (r : Record) (k : RecKind) : Bool :=
  reservedZero r k &&
  match k with
  | .loadWeight =>
    let w := Rf r 9 0 4
    Rf r 8 0 4 == 0 && Rf r 9 4 2 != 3 && (Rf r 9 6 1 == 0 || w == 7 || w == 9) && mult (Rf r 12 0 26) 64 && mult (Rf r 16 0 32) 64 &&
    (Rf r 9 4 2 == 0 || mult (Rf r 20 0 26) 64) && (!isMx w || mult (Rf r 24 0 26) 64)
  | .loadAcc => mult (Rf r 12 0 26) 64 && mult (Rf r 16 0 32) 64 && between (Rf r 20 0 9) 1 256
  | .loadCopy => between (Rf r 16 0 32) 8 (2 ^ 24) && mult (Rf r 16 0 32) 8 && mult (Rf r 12 0 26) 8 && mult (Rf r 24 0 26) 8 && Rf r 24 41 1 == 0
  | .storeAcc => Rf r 8 0 4 == 0 && between (Rf r 12 0 9) 1 256 && mult (Rf r 16 0 32) 64 && mult (Rf r 24 0 26) 64
  | .storeCopy => between (Rf r 16 0 32) 8 (2 ^ 24) && mult (Rf r 16 0 32) 8 && mult (Rf r 12 0 26) 8 && mult (Rf r 24 0 26) 8
  | .storeFlags => mult (Rf r 12 0 26) 4
  | .matmul =>
    let mx := isMx (Rf r 24 0 4)
    mult (Rf r 8 0 26) 64 && mult (Rf r 16 0 32) 64 && mult (Rf r 20 0 32) 64 && between (Rf r 26 0 9) 1 256 &&
    (if mx then mult (Rf r 12 0 26) 64 else Rf r 12 0 26 == 0)
  | .vecop =>
    let al (v : Nat) : Bool := v.testBit 31 || mult v 64
    let f := Rf r 8 0 8
    funcDefined f && srcOk (Rf r 12 0 32) && srcOk (Rf r 16 0 32) && srcOk (Rf r 20 0 32) && srcOk (Rf r 24 0 32) && al (Rf r 12 0 32) &&
    al (Rf r 24 0 32) && (!readsB f || Rf r 11 2 1 == 1 || al (Rf r 16 0 32)) && (!usesC r || al (Rf r 20 0 32)) &&
    between (Rf r 36 0 16) 1 (if accOperand r then 256 else 65535) && between (Rf r 38 0 16) 1 256 &&
    -- an accumulator destination is for FP32, INT32 and FP64 values; masks and scale bytes lie in the scratchpad (R128, R560)
    (Rf r 24 31 1 == 0 || ([0, 1, 14].contains (Rf r 40 0 4) && !(f == 0x38 || (0x0C ≤ f && f ≤ 0x0F)))) &&
    !((f == 0x10 || f == 0x38 || (f == 0 && isMx (Rf r 9 0 4))) && Rf r 20 31 1 == 1)
  | .gate => srcOk (Rf r 8 0 32) && (Rf r 8 31 1 == 1 || mult (Rf r 8 0 32) 64) && between (Rf r 14 0 4) 1 8 &&
    (Rf r 14 7 1 == 0 || mult (Rf r 20 0 26) 64) && mult (Rf r 24 0 26) 64 && mult (Rf r 28 0 26) 64
  | .gather => between (Rf r 12 0 32) 1 65536 && between (Rf r 18 0 16) 1 65535 && between (Rf r 34 0 8) 0 3
  | .scatter => between (Rf r 20 0 32) 1 (2 ^ 24) && between (Rf r 36 0 16) 8 4096 && between (Rf r 38 0 8) 0 2 && mult (Rf r 8 0 26) 8 &&
    mult (Rf r 12 0 32) 8 && mult (Rf r 24 0 26) 8 && mult (Rf r 32 0 32) 8 && mult (Rf r 36 0 16) 8 && mult (Rf r 16 0 26) 4
  | .reduce => between (Rf r 12 0 32) 256 (2 ^ 20) && mult (Rf r 12 0 32) 256 && between (Rf r 16 0 16) 0 4095 && between (Rf r 18 0 8) 0 2 &&
    mult (Rf r 32 0 26) 8
  | .send => between (Rf r 16 0 32) 1 4096 && mult (Rf r 16 0 32) 8 && mult (Rf r 12 0 26) 8 && mult (Rf r 20 0 26) 8
  | .recv => between (Rf r 16 0 32) 1 4096 && mult (Rf r 16 0 32) 8 && mult (Rf r 12 0 26) 8 && mult (Rf r 20 0 26) 8
  | .dispatchSend => Rf r 8 0 8 == 0 && between (Rf r 11 0 8) 1 8 && between (Rf r 20 0 16) 64 4096 && mult (Rf r 20 0 16) 8 &&
    mult (Rf r 12 0 26) 8 && mult (Rf r 16 0 26) 8 && mult (Rf r 24 0 26) 8 && mult (Rf r 32 0 26) 4
  | .dispatchReturn => between (Rf r 20 0 16) 64 4096 && mult (Rf r 20 0 16) 8 && mult (Rf r 12 0 26) 8 && mult (Rf r 16 0 26) 8 &&
    mult (Rf r 24 0 26) 4
  | .waitCount => true
  | .signal => Rf r 12 0 32 != 0
  | .fence => true
  | .commit => between (Rf r 11 0 8) 1 3 &&
    (List.range (Rf r 11 0 8)).all (fun i => let b := 16 + 16 * i
      between (Rf r (b + 4) 0 32) 8 (2 ^ 24) && mult (Rf r (b + 4) 0 32) 8 && mult (Rf r b 0 26) 8 && mult (Rf r (b + 8) 0 26) 8)
  | .endStep => true

/-- Formats and conversion control words that R63, R72, R73, R125, R130, R142 and R560 refuse whatever the tile or tag; false is
format-illegal, a LOAD ACC of a format that no half has among them, while a VECOP's accumulator destination of one is a field outside its
range (R128; log entry 86). -/
def formatsOk (r : Record) (k : RecKind) : Bool :=
  let good (v : Nat) : Bool := match ccwOf v with
    | some c => !badFmt c.fmt
    | none => false
  match k with
  | .loadWeight =>
    let w := Rf r 9 0 4
    !badFmt w && w != 14 && (Rf r 9 4 2 == 0 || !([0, 1, 2, 3].contains w))
  | .loadAcc => [0, 1, 14].contains (Rf r 9 0 4)
  | .storeAcc => good (Rf r 20 0 16) && !isMx (Rf r 20 0 4)
  | .matmul => !badFmt (Rf r 24 0 4) && good (Rf r 30 0 16)
  | .vecop =>
    let f := Rf r 8 0 8
    let a := Rf r 9 0 4
    let b := Rf r 9 4 4
    let c := Rf r 10 0 4
    let d := Rf r 40 0 4
    let bOk := !readsB f || Rf r 11 2 1 == 1 || (!badFmt b && !isMx b && compOf b == compOf a)
    let cOk := f != 0x04 || (!badFmt c && !isMx c && compOf c == compOf a)
    !badFmt a && good (Rf r 40 0 16) && bOk && cOk && (!isMx a || f == 0) && (isMx d == (f == 0x38))
  | .gate => match ccwOf (Rf r 18 0 16) with
    | some c => c.fmt == 1 && c.md == .rne
    | none => false
  | .dispatchReturn => match ccwOf (Rf r 30 0 16) with
    | some c => [1, 2, 3, 14].contains c.fmt
    | none => false
  | _ => true

/-- The status with which a record fails before it executes, if any (R115, R63, R129). -/
def staticStatus (r : Record) (k : RecKind) : Option Nat :=
  if !fieldsOk r k then some 0x02
  else if k = .vecop && !funcOffered (Rf r 8 0 8) (compOf (Rf r 9 0 4)) then some 0x02
  else if !formatsOk r k then some 0x03
  else none

/-- Class of a weight tile (R122). -/
def wClass (fmt : Nat) (k512 : Bool) : WClass :=
  if k512 && (fmt == 7 || fmt == 9) then .c4
  else match fmt with
    | 0 => .c64
    | 1 => .c32
    | 2 => .c16
    | 3 => .c16
    | _ => .c8

/-- Dense K of a tile: doubled under 2:4 and 1:4, which store a half and a quarter of it (R56, R122). -/
def wDenseK (cls : WClass) (sparse : Nat) : Nat :=
  (if cls = .c4 then 512 else 256) * (if sparse = 0 then 1 else 2)

/-- The class that R82 gives an operand pair. -/
def pairClass (w a : Nat) : Option WClass :=
  let f8 (c : Nat) : Bool := [4, 5, 6, 7, 12, 13].contains c
  if w == 7 && a == 7 then some .c4
  else if w == 9 && a == 9 then some .c4
  else if f8 w && f8 a then some .c8
  else if (w == 8 || w == 9) && (a == 8 || a == 9) then some .c8
  else if w == 2 && a == 2 then some .c16
  else if w == 3 && a == 3 then some .c16
  else if w == 1 && a == 1 then some .c32
  else if w == 0 && a == 0 then some .c64
  else none

def accTagFmt : AccTag → Nat
  | .fp32 => 1
  | .int32 => 14
  | .fp64 => 0

def fmtTag (c : Nat) : AccTag := if c = 0 then .fp64 else if isInt c then .int32 else .fp32

/-- Rows of an accumulator half under a tag (R52). -/
def accRows (t : AccTag) : Nat := if t = .fp64 then 128 else 256

end Sys2Proof.Machine
end

