-- ==== Sys2Proof/Machine/Flags.lean ====
section
/-! DEFINITION. `ARR_FLAGS` (R109) and the checked accesses of an array's own units. -/

namespace Sys2Proof.Machine

/-- Raise what an operation raised: sticky bits, and one saturation counted for each (R109). -/
def State.raise (s : State) (a : Nat) (f : Fl) : State :=
  let s := if f.invalid then s.wr F.arrFlags_invalid a 1 else s
  let s := if f.divzero then s.wr F.arrFlags_divzero a 1 else s
  let s := if f.overflow then s.wr F.arrFlags_overflow a 1 else s
  let s := if f.underflow then s.wr F.arrFlags_underflow a 1 else s
  let s := if f.inexact then s.wr F.arrFlags_inexact a 1 else s
  if f.sat = 0 then s else (s.wr F.arrFlags_saturated a 1).cnt F.arrFlags_satCount a f.sat

/-- The W1C bits of `ARR_FLAGS`. -/
def flagBits : List Fld :=
  [F.arrFlags_invalid, F.arrFlags_divzero, F.arrFlags_overflow, F.arrFlags_underflow, F.arrFlags_inexact, F.arrFlags_saturated,
   F.arrFlags_metaErr, F.arrFlags_gateNonfinite, F.arrFlags_gateOverflow]

/-- Clear the W1C bits that `v` names; clearing `SATURATED` restarts `SAT_COUNT` (R109). -/
def State.clearFlags (s : State) (a v : Nat) : State :=
  let s1 := s.each flagBits (fun s f => if v.testBit f.lo then s.wr f a 0 else s)
  if v.testBit F.arrFlags_saturated.lo then s1.wr F.arrFlags_satCount a 0 else s1

/-- The flags of a list of results, joined. -/
def joinFl (l : List Fl) : Fl := l.foldl Fl.or {}

/-! ### Results with a failing status

A unit's work either goes on or ends with a step status of R160 and the state in which errors met so far are counted. -/

abbrev RX := Except (Nat × State)

/-- One past the last byte of `n` rows of `len` bytes, `stride` apart. -/
def spanEnd (base stride n len : Nat) : Nat := base + (n - 1) * stride + len

/-- An own range lies in one valid region that is no spill region (R170, R173). -/
def State.ownOk (s : State) (a lo hi : Nat) : Bool :=
  match s.region a lo (hi - lo) with
  | none => false
  | some n => !s.on F.tmRgn_spill (a * 16 + n)

def needOwn (s : State) (a lo hi : Nat) : RX Unit := if s.ownOk a lo hi then .ok () else .error (0x04, s)

/-- Read own bytes through the port at a ring position. -/
def readOwn (s : State) (a port addr len : Nat) : RX (List Byte × State) :=
  match s.tryRead a port .own addr len with
  | (0, b, s1) => .ok (b, s1)
  | (1, _, s1) => .error (0x04, s1)
  | (_, _, s1) => .error (0x06, s1)

/-- Write own bytes. -/
def writeOwn (s : State) (a port addr : Nat) (bytes : List Byte) : RX State :=
  match s.tryWrite a port .own addr bytes with
  | (0, s1) => .ok s1
  | (1, s1) => .error (0x04, s1)
  | (_, s1) => .error (0x06, s1)

/-- Read `n` rows of `len` bytes. -/
def readRows (a port base stride len : Nat) : Nat → State → RX (List (List Byte) × State)
  | 0, s => .ok ([], s)
  | n + 1, s => do
    let (b, s) ← readOwn s a port base len
    let (rest, s) ← readRows a port (base + stride) stride len n s
    .ok (b :: rest, s)

/-! ### Records in flight -/

def State.updRun (s : State) (a : Nat) (f : StepRun → StepRun) : State :=
  s.updArr a (fun x => { x with run := x.run.map f })

def State.updFlight (s : State) (a n : Nat) (f : Flight → Flight) : State :=
  s.updArr a (fun x => { x with flights := x.flights.map (fun fl => if fl.n = n then f fl else fl) })

def State.flight (s : State) (a n : Nat) : Option Flight := (s.arr a).flights.find? (fun f => f.n == n)

/-- A record that a failure stops where it stands, at a packet boundary: it waits for something that may never come (R151). -/
def Flight.stops (f : Flight) : Bool :=
  match f.await with
  | .counter .. => true
  | .item _ => true
  | _ => false

def Flight.isSwap (f : Flight) : Bool := recKind f.record == some .matmul && Rf f.record 25 0 1 == 1
def Flight.isLoad (f : Flight) : Bool := recKind f.record == some .loadWeight

/-- WEIGHT loads in their unit's queue that wait for a swap which is not in flight and, once issue has stopped, never comes (R122, R151). -/
def ArrayState.strandedLoads (x : ArrayState) : List Nat :=
  let queued := x.flights.filter (fun f => f.await == .start)
  ((queued.filter Flight.isLoad).drop ((queued.filter Flight.isSwap).length + (if x.shadowFresh then 0 else 1))).map (·.n)

/-- The step issues no further record and keeps its first failure, unless it has been cancelled (R151, R161). -/
def StepRun.fail (r : StepRun) (st tag addr : Nat) : StepRun :=
  { r with issuing := false, failed := match r.failed with
      | none => if r.cancelled && !r.commitLast then none else some (st, tag, addr)
      | some f => some f }

/-- A record fails (R151): the step fails; a record that waits for something that may never come stops, every other record in flight runs
on. -/
def State.noteFail (s : State) (a st tag addr : Nat) : State :=
  s.updArr a (fun x => { x with
    run := x.run.map (fun r => r.fail st tag addr),
    flights := x.flights.filter (fun f => !f.stops && !x.strandedLoads.contains f.n) })

/-- A record in flight fails with a step status (R160); its first failure stays, and 0 is none. -/
def State.failFlight (s : State) (a n st : Nat) : State :=
  match s.flight a n with
  | none => s
  | some f =>
    if st = 0 || f.status != 0 then s
    else (s.updFlight a n (fun f => { f with status := st })).noteFail a st f.tag f.addr

/-- A region under initialisation holds back a range (R175). -/
def State.initStalls (s : State) (a lo hi : Nat) : Bool :=
  (List.range 16).any (fun n => s.on F.tmRgn_initBusy (a * 16 + n) && decide (lo < s.rgnHi a n) && decide (s.rgnLo a n < hi))

/-- The flight has nothing left to wait for. -/
def State.finish (s : State) (a n : Nat) : State := s.updFlight a n (fun f => { f with await := .nothing })

/-! ### Transfers to global addresses (R117, R118) -/

/-- Cut a transfer at every 4096-byte boundary of the destination offset: offsets and payloads. -/
def cutPackets (off : Nat) : Nat → List Byte → List (Nat × List Byte)
  | 0, _ => []
  | fuel + 1, bytes =>
    if bytes.isEmpty then []
    else
      let k := 4096 - off % 4096
      (off, bytes.take k) :: cutPackets (off + k) fuel (bytes.drop k)

def packetsOf (off : Nat) (bytes : List Byte) : List (Nat × List Byte) := cutPackets off (bytes.length / 4096 + 2) bytes

/-- Write a transfer to a global address for flight `n` of array `a`. An address that names the own array is served at once, each
packet incrementing the counter; any other travels as WRITE packets that the flight waits for. -/
def writeGlobal (s : State) (a n : Nat) (d : GAddr) (body : PktBody) (bytes : List Byte) : RX State :=
  if d.array = a then
    (packetsOf d.off bytes).foldlM (fun s p => do
      let s ← writeOwn s a 2 p.1 p.2
      .ok (if d.ctrEn then s.ctrAdd a d.ctr 1 else s)) s
  else if s.arrVacant d.array then .error (0x09, s)
  else .ok ((packetsOf d.off bytes).foldl (fun s p =>
    let tag := s.nextTag
    (s.request { src := .tile a, array := a, flight := n }
      { body := body, dst := .tile d.array, src := .tile a, off := p.1, ctr := d.ctr, ctrEn := d.ctrEn, payload := p.2 }).updFlight a n
        (fun f => { f with out := tag :: f.out, await := .replies })) s)

end Sys2Proof.Machine
end

