-- ==== Sys2Proof/Machine/Matrix.lean ====
section
/-! DEFINITION. What the mover, the matrix unit and the STORE records do: LOAD (R121 to R123), STORE (R124, R125), MATMUL (R55, R82 to R97,
R126, R127). -/

namespace Sys2Proof.Machine

/-! ### Accumulator halves (R52, R558) -/

def State.half (s : State) (a h : Nat) : AccHalf := if h = 0 then (s.arr a).accA else (s.arr a).accB
def State.setHalf (s : State) (a h : Nat) (x : AccHalf) : State :=
  s.updArr a (fun r => if h = 0 then { r with accA := x } else { r with accB := x })

def zeroRow : List Nat := List.replicate 256 0
def AccHalf.row (x : AccHalf) (i : Nat) : List Nat := mget x.rows i zeroRow
def AccHalf.setRow (x : AccHalf) (i : Nat) (v : List Nat) : AccHalf := { x with rows := mput x.rows i zeroRow v }
/-- Take a tag: a change zeroes every entry (R558). -/
def AccHalf.retag (x : AccHalf) (t : AccTag) : AccHalf := if x.tag = t then x else { tag := t, rows := [] }

/-! ### LOAD -/

/-- A weight tile from its stored bytes (R90 to R94, R122). The zero that loading adds to a 1:4 group is a position of its 2:4 form, as named
as the stored one (log entry 80). -/
def buildTile (fmt sparse : Nat) (k512 : Bool) (stored : List (List Byte)) (metaBytes : List Byte) (scales : List (List Byte)) : WTile :=
  let w := fmtWidth fmt
  let cls := wClass fmt k512
  let vals := stored.map (unpackElems w 256)
  let metaNat := leNat metaBytes
  let groups := wDenseK cls sparse / 4
  -- positions named in group g of column c, with the stored value of each
  let named (g c : Nat) : List (Nat × Nat) :=
    if sparse = 1 then
      let nib := bitsAt metaNat (g * 1024 + 4 * c) 4
      [(nib % 4, (vals.getD (2 * g) []).getD c 0), (nib / 4, (vals.getD (2 * g + 1) []).getD c 0)]
    else
      let p := bitsAt metaNat (g * 512 + 2 * c) 2
      [(p, (vals.getD g []).getD c 0), (if p = 0 then 1 else 0, 0)]
  let bad := sparse = 1 && (List.range groups).any (fun g => (List.range 256).any (fun c =>
    let nib := bitsAt metaNat (g * 1024 + 4 * c) 4
    decide (nib / 4 ≤ nib % 4)))
  let rows : List (List (Option Nat)) :=
    if sparse = 0 then vals.map (fun r => r.map some)
    else (List.range (4 * groups)).map (fun k => (List.range 256).map (fun c => ((named (k / 4) c).find? (fun p => p.1 == k % 4)).map (·.2)))
  let sc := scales.map (fun b => b.map BitVec.toNat)
  let fin := (List.range (rows.length / 32)).map (fun b =>
    ((rows.drop (32 * b)).take 32).all (fun r => r.all (fun v => match v with
      | none => true
      | some x => match elemVal fmt x 127 with | .fin .. => true | _ => false)) &&
    (!isMx fmt || (sc.getD b []).all (· != 255)))
  { fmt := fmt, cls := cls, rows := rows, scale := sc, metaBad := bad, loading := true, finite := fin }

/-- LOAD WEIGHT: the tile enters the shadow registers; loading ends with the SHADOW_LOAD_DONE command. -/
def runLoadWeight (s : State) (a n : Nat) (r : Record) : RX State := do
  let fmt := Rf r 9 0 4
  let sp := Rf r 9 4 2
  let k512 := Rf r 9 6 1 == 1
  let k := wDenseK (wClass fmt k512) sp
  let nst := if sp = 0 then k else if sp = 1 then k / 2 else k / 4
  let len := 32 * fmtWidth fmt
  let base := Rf r 12 0 26
  let stride := Rf r 16 0 32
  let mlen := if sp = 0 then 0 else k / 4 * (if sp = 1 then 128 else 64)
  let slen := if isMx fmt then k / 32 * 256 else 0
  needOwn s a base (spanEnd base stride nst len)
  let (rows, s) ← readRows a 2 base stride len nst s
  let (m, s) ← if mlen = 0 then .ok ([], s) else readOwn s a 2 (Rf r 20 0 26) mlen
  let (sc, s) ← if slen = 0 then .ok ([], s) else readOwn s a 2 (Rf r 24 0 26) slen
  let scales := if slen = 0 then [] else (List.range (k / 32)).map (fun b => (sc.drop (256 * b)).take 256)
  let t := buildTile fmt sp k512 rows m scales
  .ok ((s.updArr a (fun x => { x with shadow := some t, shadowFresh := true })).updFlight a n (fun f => { f with await := .shadowLoad, reads := [] }))

/-- LOAD ACC: rows of the accumulator format, copied exactly (R123). -/
def runLoadAcc (s : State) (a n : Nat) (r : Record) : RX State := do
  let fmt := Rf r 9 0 4
  let w := fmtWidth fmt
  let nr := Rf r 20 0 9
  let h := Rf r 10 0 1
  let first := Rf r 11 0 8
  if accRows (fmtTag fmt) < first + nr then .error (0x02, s) else
  let base := Rf r 12 0 26
  let stride := Rf r 16 0 32
  needOwn s a base (spanEnd base stride nr (32 * w))
  let (rows, s) ← readRows a 2 base stride (32 * w) nr s
  let x := (List.range nr).foldl (fun x i => AccHalf.setRow x (first + i) (unpackElems w 256 (rows.getD i []))) ((s.half a h).retag (fmtTag fmt))
  .ok ((s.setHalf a h x).updFlight a n (fun f => { f with await := .nothing, reads := [] }))

/-- LOAD COPY: a remote source is asked for in packets cut as the destination's (R118); an own source is copied at once. -/
def runLoadCopy (s : State) (a n : Nat) (r : Record) : RX State := do
  let dst := Rf r 12 0 26
  let len := Rf r 16 0 32
  let src := gaddrOf (Rf r 24 0 64)
  needOwn s a dst (dst + len)
  if src.array = a then
    let (b, s) ← readOwn s a 2 src.off len
    let s ← writeOwn s a 2 dst b
    .ok (s.updFlight a n (fun f => { f with await := .nothing, reads := [] }))
  else if s.arrVacant src.array then .error (0x09, s)
  else
    let cuts := (packetsOf dst (List.replicate len 0)).map (fun p => (p.1, p.2.length))
    .ok (cuts.foldl (fun s p =>
      let tag := s.nextTag
      (s.request { src := .tile a, array := a, flight := n, loc := p.1 }
        { body := .readReq p.2, dst := .tile src.array, src := .tile a, off := src.off + (p.1 - dst) }).updFlight a n
          (fun f => { f with out := tag :: f.out, await := .replies })) s)

/-! ### STORE -/

/-- STORE ACC: each row converts once from the half's tag and goes to `DST` + i × `DST_STRIDE` (R125). Each row is a transfer of its own, with
its own packets and counter increments, also where rows are contiguous (log entry 81). -/
def runStoreAcc (s : State) (a n : Nat) (r : Record) : RX State := do
  let h := Rf r 10 0 1
  let first := Rf r 11 0 8
  let nr := Rf r 12 0 9
  let stride := Rf r 16 0 32
  let d := gaddrOf (Rf r 24 0 64)
  let x := s.half a h
  match ccwOf (Rf r 20 0 16) with
  | none => .error (0x03, s)
  | some c =>
    if accRows x.tag < first + nr then .error (0x02, s) else
    let w := fmtWidth c.fmt
    if d.array = a && !s.ownOk a d.off (spanEnd d.off stride nr (32 * w)) then .error (0x04, s) else
    let s := s.updFlight a n (fun f => { f with await := .nothing, accR := [] })
    (List.range nr).foldlM (fun s i =>
      let res := (List.range 256).map (fun e =>
        convertTo c c.md (if c.md = .sr then laneDraw (Rf r 32 0 32) e i else 0) (elemVal (accTagFmt x.tag) ((x.row (first + i)).getD e 0) 127))
      writeGlobal (s.raise a (joinFl (res.map (·.2)))) a n { d with off := d.off + i * stride } .write (packElems w (res.map (·.1)))) s

/-- STORE COPY. -/
def runStoreCopy (s : State) (a n : Nat) (r : Record) : RX State := do
  let (b, s) ← readOwn s a 2 (Rf r 12 0 26) (Rf r 16 0 32)
  let d := gaddrOf (Rf r 24 0 64)
  if d.array = a && !s.ownOk a d.off (d.off + b.length) then .error (0x04, s) else
  writeGlobal (s.updFlight a n (fun f => { f with await := .nothing, reads := [] })) a n d .write b

/-- STORE FLAGS: `ARR_FLAGS` as read, then `CLEAR` of the bits that were read as 1 (R125). -/
def runStoreFlags (s : State) (a n : Nat) (r : Record) : RX State := do
  let v := s.rdReg .arrFlags a
  let s ← writeOwn s a 3 (Rf r 12 0 26) (leBytes 4 v)
  .ok ((if Rf r 9 0 1 = 1 then s.clearFlags a (v % 512) else s).finish a n)

/-! ### MATMUL -/

/-- Exact products of one activation with a row of weights, added to running exact sums (R83, R84). -/
def addProducts (wf : Nat) (x : FV) (ws : List (Option Nat)) (acc : List (FV × Bool)) : List (FV × Bool) :=
  (acc.zip ws).map (fun p => match p.2 with
    | none => p.1
    | some w =>
      let pr := FV.mul x (elemVal wf w 127)
      let su := FV.add .rne p.1.1 pr.1
      (su.1, p.1.2 || pr.2 || su.2))

/-- One group result of R84: the exact sum, scaled exactly, rounded once to FP32; exact zero is +0. An invalid product or sum raises `INVALID`
also in a group whose scale byte is 0xFF (log entry 82). -/
def groupResult (sum : FV × Bool) (xa xw : Nat) : Nat × Fl :=
  if xa = 255 || xw = 255 then (fp32.nanEnc, { invalid := sum.2 })
  else match sum.1 with
    | .fin neg m e =>
      if m = 0 then (0, { invalid := sum.2 })
      else let p := fp32.round .rne {} 0 neg m (e + ((xa : Int) + xw - 254)); (p.1, { p.2 with invalid := sum.2 })
    | v => let p := fp32.pack .rne {} 0 v; (p.1, { p.2 with invalid := p.2.invalid || sum.2 })

/-- FP32 or FP64 addition of two encodings (R85). -/
def addEnc (f : FFmt) (md : RMode) (x y : Nat) : Nat × Fl :=
  let a := FV.add md (f.unpack x) (f.unpack y)
  let p := f.pack md {} 0 a.1
  (p.1, { p.2 with invalid := p.2.invalid || a.2 })

/-- Fused multiply and add of one activation and a row of weights (R86). -/
def fusedStep (f : FFmt) (md : RMode) (wf : Nat) (x : FV) (ws : List (Option Nat)) (acc : List (Nat × Fl)) : List (Nat × Fl) :=
  (acc.zip ws).map (fun p => match p.2 with
    | none => p.1
    | some w =>
      let pr := FV.mul x (elemVal wf w 127)
      let su := FV.add md (f.unpack p.1.1) pr.1
      let r := f.pack md {} 0 su.1
      (r.1, p.1.2.or { r.2 with invalid := r.2.invalid || pr.2 || su.2 }))

/-- Integer products of one activation, each addition saturating to INT32 (R87). -/
def intStep (wf : Nat) (x : Int) (ws : List (Option Nat)) (acc : List (Int × Nat)) : List (Int × Nat) :=
  (acc.zip ws).map (fun p => match p.2 with
    | none => p.1
    | some w =>
      let t := p.1.1 + x * sext (fmtWidth wf) w
      if t < -2147483648 then (-2147483648, p.1.2 + 1)
      else if 2147483647 < t then (2147483647, p.1.2 + 1)
      else (t, p.1.2))

/-- One vector through the tile: the new accumulator row and the flags, of which a product raises only `INVALID`, `OVERFLOW` and
saturations (R88). -/
def matRow (t : WTile) (af : Nat) (md : RMode) (acts ascale : List Nat) (old : List Nat) : List Nat × Fl :=
  let out (l : List (Nat × Fl)) : List Nat × Fl :=
    let f := joinFl (l.map (·.2))
    (l.map (·.1), { invalid := f.invalid, overflow := f.overflow })
  if isInt af then
    let res := (acts.zip t.rows).foldl (fun acc p => intStep t.fmt (sext (fmtWidth af) p.1) p.2 acc) (old.map (fun v => (sext 32 v, 0)))
    (res.map (fun p => toTwos 32 p.1), { sat := (res.map (·.2)).foldl (· + ·) 0 })
  else if t.cls = .c4 || t.cls = .c8 then
    out ((List.range (t.rows.length / 32)).foldl (fun acc b =>
      let prs := ((acts.drop (32 * b)).take 32).zip ((t.rows.drop (32 * b)).take 32)
      let sums := prs.foldl (fun acc p => addProducts t.fmt (elemVal af p.1 127) p.2 acc) (List.replicate 256 (FV.fin false 0 0, false))
      let xa := if isMx af then ascale.getD b 127 else 127
      (acc.zip (sums.zip (if isMx t.fmt then t.scale.getD b [] else List.replicate 256 127))).map (fun p =>
        let g := groupResult p.2.1 xa p.2.2
        let r := addEnc fp32 .rne p.1.1 g.1
        (r.1, (p.1.2.or g.2).or r.2))) (old.map (fun v => (v, {}))))
  else
    let f := if t.cls = .c64 then fp64 else fp32
    let m := if t.cls = .c64 then md else .rne
    out ((acts.zip t.rows).foldl (fun acc p => fusedStep f m t.fmt (elemVal af p.1 127) p.2 acc) (old.map (fun v => (v, {}))))

/-- The accumulator format of a class and operand kind (R82). -/
def accFmtOf (af : Nat) (cls : WClass) : Nat := if cls = .c64 then 0 else if isInt af then 14 else 1

/-- Exchange the shadow and active tiles (R58). -/
def ArrayState.swapTiles (x : ArrayState) : ArrayState := { x with active := x.shadow, shadow := x.active, shadowFresh := false }

/-- MATMUL, started: the swap if asked, then every vector in order. A tile whose metadata breaks R92 is computed with by no cell: the record
fails with the status that its load gave (log entry 83). -/
def runMatmul (s : State) (a n : Nat) (r : Record) : RX State := do
  let swap := Rf r 25 0 1 == 1
  let s := if swap then s.updArr a ArrayState.swapTiles else s
  match (s.arr a).active, ccwOf (Rf r 30 0 16) with
  | some t, some c =>
    if t.metaBad then .error (0x05, s) else
    let af := Rf r 24 0 4
    let k := t.rows.length
    let nv := Rf r 26 0 9
    let base := Rf r 8 0 26
    let stride := Rf r 16 0 32
    let sb := Rf r 12 0 26
    let ss := Rf r 20 0 32
    let h := Rf r 28 0 1
    let first := Rf r 29 0 8
    let len := k * fmtWidth af / 8
    needOwn s a base (spanEnd base stride nv len)
    if isMx af then needOwn s a sb (spanEnd sb ss nv (k / 32)) else .ok ()
    let (vecs, s) ← readRows a 1 base stride len nv s
    let (scs, s) ← if isMx af then readRows a 1 sb ss (k / 32) nv s else .ok ([], s)
    let x0 := (s.half a h).retag (fmtTag (accFmtOf af t.cls))
    let res := (List.range nv).foldl (fun (p : AccHalf × Fl) i =>
      let old := if Rf r 25 1 1 = 1 then zeroRow else p.1.row (first + i)
      let o := matRow t af c.md (unpackElems (fmtWidth af) k (vecs.getD i [])) ((scs.getD i []).map BitVec.toNat) old
      (p.1.setRow (first + i) o.1, p.2.or o.2)) (x0, {})
    .ok (((s.setHalf a h res.1).raise a res.2).updFlight a n (fun f => { f with await := .nothing, reads := [] }))
  | _, _ => .error (0x02, s)

/-- What a MATMUL must find in its tile (R127, R82, R86, R126), given the tile it will compute with; the status otherwise. -/
def matmulStatus (r : Record) (tile : Option (Nat × WClass)) : Option Nat :=
  match tile, ccwOf (Rf r 30 0 16) with
  | none, _ => some 0x02
  | some _, none => some 0x03
  | some (wf, cls), some c =>
    let af := Rf r 24 0 4
    if pairClass wf af ≠ some cls then some 0x03
    else if c.fmt ≠ accFmtOf af cls then some 0x03
    else if (if cls = .c64 then c.md = .sr else c.md ≠ .rne) then some 0x03
    else if accRows (fmtTag (accFmtOf af cls)) < Rf r 29 0 8 + Rf r 26 0 9 then some 0x02
    else none

end Sys2Proof.Machine
end

