-- ==== Sys2Proof/Machine/Vector.lean ====
section
/-! DEFINITION. The vector unit: VECOP (R98 to R101, R128, R129, R560). -/

namespace Sys2Proof.Machine

/-- Format code of a computation format. -/
def Comp.fmt : Comp → Nat
  | .f64 => 0
  | .f32 => 1
  | .i32 => 14

def Comp.flt : Comp → FFmt
  | .f64 => fp64
  | _ => fp32

/-! ### One element -/

/-- IEEE 754-2019 minimum and maximum: NaN propagates, −0 below +0. -/
def fvMin (x y : FV) : FV × Bool :=
  if x.isNan || y.isNan then (.nan false, x.sig || y.sig)
  else if FV.cmp x y < 0 then (x, false)
  else if FV.cmp y x < 0 then (y, false)
  else (if x.neg then x else y, false)

def fvMax (x y : FV) : FV × Bool :=
  if x.isNan || y.isNan then (.nan false, x.sig || y.sig)
  else if FV.cmp x y < 0 then (y, false)
  else if FV.cmp y x < 0 then (x, false)
  else (if x.neg then y else x, false)

/-- Pack a result in the computation format. -/
def packFl (f : FFmt) (md : RMode) (v : FV) (inv : Bool) : Nat × Fl :=
  let p := f.pack md {} 0 v
  (p.1, { p.2 with invalid := p.2.invalid || inv })

/-- The sign bit of an operand, which a NaN has too, as a value: the third operand of copysign (R99). -/
def signVal (fmt raw : Nat) : FV := .fin (raw.testBit (fmtWidth fmt - 1)) 0 0

/-- A float function of R99 in its computation format. -/
def floatOp (f : FFmt) (md : RMode) (fn : Nat) (a b c : FV) : Nat × Fl :=
  match fn with
  | 0x01 => let r := FV.add md a b; packFl f md r.1 r.2
  | 0x02 => let r := FV.add md a (b.flipSign true); packFl f md r.1 r.2
  | 0x03 => let r := FV.mul a b; packFl f md r.1 r.2
  | 0x04 => let p := FV.mul a b; let r := FV.add md p.1 c; packFl f md r.1 (p.2 || r.2)
  | 0x05 => let r := FV.div a b; let p := packFl f md r.1 false; (p.1, p.2.or r.2)
  | 0x06 => let r := FV.sqrt a; let p := packFl f md r.1 false; (p.1, p.2.or r.2)
  | 0x07 => let r := fvMin a b; packFl f md r.1 r.2
  | 0x08 => let r := fvMax a b; packFl f md r.1 r.2
  | 0x09 => packFl f md (a.flipSign a.neg) false
  | 0x0A => packFl f md (a.flipSign true) false
  | 0x0B => packFl f md (a.flipSign (a.neg ^^ c.neg)) b.sig
  | _ =>
    match a with
    | .nan sig => (fp32.nanEnc, { invalid := sig })
    | v => approxFn fn md (fp32.pack .rne {} 0 v).1

/-- Saturate to INT32 (R87, R100). -/
def sat32 (t : Int) : Int × Fl :=
  if t < -2147483648 then (-2147483648, { sat := 1 })
  else if 2147483647 < t then (2147483647, { sat := 1 })
  else (t, {})

/-- An INT32 function of R99 and R100. -/
def intOp (fn : Nat) (a b : Int) : Int × Fl :=
  let ua := toTwos 32 a
  let ub := toTwos 32 b
  let sh := ub % 32
  match fn with
  | 0x01 => (sext 32 (toTwos 32 (a + b)), {})
  | 0x02 => (sext 32 (toTwos 32 (a - b)), {})
  | 0x03 => (sext 32 (toTwos 32 (a * b)), {})
  | 0x07 => (min a b, {})
  | 0x08 => (max a b, {})
  | 0x09 => sat32 (a.natAbs : Int)
  | 0x0A => sat32 (-a)
  | 0x20 => (sext 32 (ua &&& ub), {})
  | 0x21 => (sext 32 (ua ||| ub), {})
  | 0x22 => (sext 32 (ua ^^^ ub), {})
  | 0x23 => (sext 32 (ua * 2 ^ sh % 2 ^ 32), {})
  | 0x24 => (a / 2 ^ sh, {})
  | 0x25 => (sext 32 (ua / 2 ^ sh), {})
  | 0x26 => sat32 (a + b)
  | _ => (a, {})

/-- The integer that an integer element's value is. -/
def fvInt : FV → Int
  | .fin n m _ => if n then -(m : Int) else m
  | _ => 0

/-- One element of an elementwise function: its encoding in the computation format. -/
def elemOp (c : Comp) (md : RMode) (fn : Nat) (x y z : FV) : Nat × Fl :=
  match c with
  | .i32 => let r := intOp fn (fvInt x) (fvInt y); (toTwos 32 r.1, r.2)
  | _ => floatOp c.flt md fn x y z

/-- A quiet compare (R99). -/
def cmpOp (fn : Nat) (x y : FV) : Bool × Fl :=
  let un := x.isNan || y.isNan
  let fl : Fl := { invalid := x.sig || y.sig }
  match fn with
  | 0x0C => (!un && FV.cmp x y == 0, fl)
  | 0x0D => (!un && FV.cmp x y < 0, fl)
  | 0x0E => (!un && FV.cmp x y ≤ 0, fl)
  | _ => (un, fl)

/-! ### Reductions (R101) -/

/-- One level of the fixed tree: neighbours combine, a last lane without a neighbour passes on. -/
def treeLevel (op : Nat → Nat → Nat × Fl) : List Nat → Fl → List Nat × Fl
  | x :: y :: t, f =>
    let r := op x y
    let q := treeLevel op t (f.or r.2)
    (r.1 :: q.1, q.2)
  | [x], f => ([x], f)
  | [], f => ([], f)

def treeReduce (op : Nat → Nat → Nat × Fl) : Nat → List Nat → Fl → List Nat × Fl
  | 0, l, f => (l, f)
  | n + 1, l, f => let q := treeLevel op l f; treeReduce op n q.1 q.2

/-- The combination of a reduction, on encodings of the computation format. -/
def reduceOp (c : Comp) (md : RMode) (fn : Nat) (x y : Nat) : Nat × Fl :=
  match c with
  | .i32 => let r := intOp (if fn = 0x30 then 0x26 else 0x08) (sext 32 x) (sext 32 y); (toTwos 32 r.1, r.2)
  | _ => floatOp c.flt md (if fn = 0x30 then 0x01 else 0x08) (c.flt.unpack x) (c.flt.unpack y) (.fin false 0 0)

/-! ### Operands and results -/

/-- Raw elements of an operand: rows of encodings. An accumulator operand's format must be the half's tag (R558). -/
def readOperand (s : State) (a port : Nat) (src : Src) (fmt stride nr ne : Nat) : RX (List (List Nat) × State) :=
  match src with
  | .acc h row =>
    let x := s.half a h
    if accTagFmt x.tag ≠ fmt then .error (0x03, s)
    else if accRows x.tag < row + nr then .error (0x02, s)
    else .ok ((List.range nr).map (fun i => (x.row (row + i)).take ne), s)
  | .mem addr => do
    let w := fmtWidth fmt
    let len := ceilDiv (ne * w) 8
    needOwn s a addr (spanEnd addr stride nr len)
    let (rows, s) ← readRows a port addr stride len nr s
    .ok (rows.map (unpackElems w ne), s)

/-- A B or C operand: rows, one broadcast element, or the immediate (R128). -/
def readArg (s : State) (a : Nat) (src : Src) (fmt stride nr ne : Nat) (scalar : Bool) (imm : Option Nat) : RX (List (List Nat) × State) :=
  match imm with
  | some v => .ok (List.replicate nr (List.replicate ne v), s)
  | none =>
    if scalar then do
      let (m, s) ← readOperand s a 3 src fmt 0 1 1
      .ok (List.replicate nr (List.replicate ne ((m.getD 0 []).getD 0 0)), s)
    else readOperand s a 3 src fmt stride nr ne

/-- Convert a row of values with one rounding each; under SR lane `i` draws for element `i`, where it converts one (R75): `keep` names elements
that are not converted. -/
def convertRow (c : Ccw) (lanes : List Nat) (vals : List FV) (keep : Nat → Bool := fun _ => false) : List Nat × Fl × List Nat :=
  let adv := if c.md = .sr then (lanes.zipIdx.map (fun p => if p.2 < vals.length && !keep p.2 then xorshift p.1 else p.1)) else lanes
  let res := vals.zipIdx.map (fun p => convertTo c c.md (if c.md = .sr then adv.getD p.2 0 % 65536 else 0) p.1)
  (res.map (·.1), joinFl (res.map (·.2)), adv)

/-- Lanes' generators at the start of a record that uses SR (R75). -/
def lanesOf (c : Ccw) (seed : Nat) : List Nat := if c.md = .sr then (List.range 256).map (laneSeed seed) else []

/-- Store one row of results. -/
def putRow (s : State) (a : Nat) (dst : Src) (stride i : Nat) (c : Ccw) (raws : List Nat) : RX State :=
  match dst with
  | .acc h row =>
    let x := (s.half a h).retag (fmtTag c.fmt)
    let old := x.row (row + i)
    .ok (s.setHalf a h (x.setRow (row + i) (raws ++ old.drop raws.length)))
  | .mem addr => writeOwn s a 3 (addr + i * stride) (packElems (fmtWidth c.fmt) raws)

/-- Quantise one block to an MX format (R81): scale byte, elements, flags, lanes. An infinite value gives the scale 0xFF for every MX format,
as R81 says, also where the table of R76 names ±448, ±57344 or NaN for the element (log entry 84). -/
def quantBlock (c : Ccw) (lanes : List Nat) (first : Nat) (vals : List FV) : Nat × List Nat × Fl × List Nat :=
  let zero := List.replicate vals.length 0
  if vals.any (fun v => v.isNan || v.isInf) then (255, zero, { invalid := vals.any FV.sig }, lanes)
  else
    let amax := vals.foldl (fun m v => (fvMax m (v.flipSign v.neg)).1) (.fin false 0 0)
    match amax, fmtFloat c.fmt with
    | .fin _ m e, some f =>
      if m = 0 then (0, zero, {}, lanes)
      else
        let emax : Int := if c.fmt = 7 then 2 else if c.fmt = 6 then 4 else if c.fmt = 12 then 8 else 15
        let x := min (max ((m.log2 : Int) + e - emax + 127) 0) 254
        let sh (v : FV) : FV := match v with
          | .fin n m e => .fin n m (e + (127 - x))
          | w => w
        let adv := if c.md = .sr then lanes.zipIdx.map (fun p => if first ≤ p.2 && p.2 < first + vals.length then xorshift p.1 else p.1) else lanes
        let res := vals.zipIdx.map (fun p => f.pack c.md c.ovf (if c.md = .sr then adv.getD (first + p.2) 0 % 65536 else 0) (sh p.1))
        (x.toNat, res.map (·.1), joinFl (res.map (·.2)), adv)
    | _, _ => (255, zero, {}, lanes)

/-- Quantise a row: scale bytes, elements, flags, lanes. -/
def quantRow (c : Ccw) (lanes : List Nat) (vals : List FV) : List Nat × List Nat × Fl × List Nat :=
  (List.range (ceilDiv vals.length 32)).foldl (fun p b =>
    let q := quantBlock c p.2.2.2 (32 * b) ((vals.drop (32 * b)).take 32)
    (p.1 ++ [q.1], p.2.1 ++ q.2.1, p.2.2.1.or q.2.2.1, q.2.2.2)) ([], [], {}, lanes)

/-- Values of a row, the scale bytes of its blocks applied for an MX format (R560). -/
def rowVals (fmt : Nat) (scale : List Nat) (raws : List Nat) : List FV :=
  raws.zipIdx.map (fun p => elemVal fmt p.1 (if isMx fmt then scale.getD (p.2 / 32) 127 else 127))

/-- Where the results of a VECOP go must be writable before anything is written. -/
def needDst (s : State) (a : Nat) (dst : Src) (stride nr len : Nat) (fmt : Nat) : RX Unit :=
  match dst with
  | .mem addr => needOwn s a addr (spanEnd addr stride nr len)
  | .acc _ row => if accRows (fmtTag fmt) < row + nr then .error (0x02, s) else .ok ()

/-- VECOP, started. Every operand is read, then every result is written, row by row. -/
def runVecop (s : State) (a n : Nat) (r : Record) : RX State := do
  let fn := Rf r 8 0 8
  let af := Rf r 9 0 4
  let bf := Rf r 9 4 4
  let cf := Rf r 10 0 4
  let comp := compOf af
  let nr := Rf r 36 0 16
  let ne := Rf r 38 0 16
  let dst := srcOf (Rf r 24 0 32)
  let dstr := Rf r 30 0 16 * 64
  let cstr := Rf r 34 0 16 * 64
  match ccwOf (Rf r 40 0 16) with
  | none => .error (0x03, s)
  | some c =>
    let md : RMode := if c.md = .sr then .rne else c.md
    let lanes0 := lanesOf c (Rf r 44 0 32)
    let imm := if Rf r 11 2 1 = 1 then some (Rf r 48 0 (fmtWidth comp.fmt)) else none
    let bfmt := if imm.isSome then comp.fmt else bf
    let w := fmtWidth c.fmt
    let caddr := Rf r 20 0 26
    let (ra, s) ← readOperand s a 3 (srcOf (Rf r 12 0 32)) af (Rf r 28 0 16 * 64) nr ne
    let (rb, s) ← if readsB fn then readArg s a (srcOf (Rf r 16 0 32)) bfmt (Rf r 32 0 16 * 64) nr ne (Rf r 11 0 1 == 1) imm else .ok ([], s)
    let (rc, s) ← if fn = 0x04 then readArg s a (srcOf (Rf r 20 0 32)) cf cstr nr ne (Rf r 11 1 1 == 1) none else .ok ([], s)
    let va (i : Nat) : List FV := rowVals af [] (ra.getD i [])
    let vb (i : Nat) : List FV := rowVals bfmt [] (rb.getD i [])
    let vc (i : Nat) : List FV := if fn = 0x0B then (rb.getD i []).map (signVal bfmt) else rowVals cf [] (rc.getD i [])
    let done (s : State) : State := s.updFlight a n (fun f => { f with await := .nothing, reads := [], accR := [] })
    if fn = 0x30 || fn = 0x31 then do
      needDst s a dst 0 1 (ceilDiv w 8) c.fmt
      let enc (i : Nat) : List (Nat × Fl) := (va i).map (fun v => match comp with
        | .i32 => (toTwos 32 (fvInt v), {})
        | _ => packFl comp.flt md v false)
      let res := (List.range nr).foldl (fun (p : Option Nat × Fl) i =>
        let e := enc i
        let t := treeReduce (reduceOp comp md fn) 8 (e.map (·.1)) (p.2.or (joinFl (e.map (·.2))))
        let v := t.1.getD 0 0
        match p.1 with
        | none => (some v, t.2)
        | some x => let q := reduceOp comp md fn x v; (some q.1, t.2.or q.2)) (none, {})
      let o := convertRow c lanes0 [elemVal comp.fmt (res.1.getD 0) 127]
      let s ← putRow (s.raise a (res.2.or o.2.1)) a dst 0 0 c o.1
      .ok (done s)
    else if 0x0C ≤ fn && fn ≤ 0x0F then do
      needDst s a dst dstr nr 32 1
      let s ← (List.range nr).foldlM (fun s i => do
        let res := ((va i).zip (vb i)).map (fun p => cmpOp fn p.1 p.2)
        let addr := match dst with | .mem x => x | .acc _ _ => 0
        writeOwn (s.raise a (joinFl (res.map (·.2)))) a 3 (addr + i * dstr)
          (leBytes 32 (listMask ((List.range ne).filter (fun e => (res.getD e (false, {})).1))))) s
      .ok (done s)
    else if fn = 0x38 then do
      needDst s a dst dstr nr (ceilDiv (ne * w) 8) c.fmt
      needOwn s a caddr (spanEnd caddr cstr nr (ceilDiv ne 32))
      let (s, _) ← (List.range nr).foldlM (fun (p : State × List Nat) i => do
        let q := quantRow c p.2 (va i)
        let s ← putRow (p.1.raise a q.2.2.1) a dst dstr i c q.2.1
        let s ← writeOwn s a 3 (caddr + i * cstr) (q.1.map (BitVec.ofNat 8))
        .ok (s, q.2.2.2)) (s, lanes0)
      .ok (done s)
    else if fn = 0x10 then do
      let cs := if Rf r 11 1 1 = 1 then 0 else cstr
      needOwn s a caddr (spanEnd caddr cs nr 32)
      let (masks, s) ← readRows a 3 caddr cs 32 nr s
      needDst s a dst dstr nr (ceilDiv (ne * w) 8) c.fmt
      let (s, _) ← (List.range nr).foldlM (fun (p : State × List Nat) i => do
        let m := leNat (masks.getD i [])
        let pick := (List.range ne).map (fun e => if m.testBit e then (af, (ra.getD i []).getD e 0) else (bfmt, (rb.getD i []).getD e 0))
        let quiet (v : FV) : FV := match v with | .nan _ => .nan false | w => w
        let o := convertRow c p.2 (pick.map (fun q => quiet (elemVal q.1 q.2 127))) (fun e => (pick.getD e (c.fmt, 0)).1 == c.fmt)
        let raws := (pick.zip o.1).map (fun q => if q.1.1 = c.fmt then q.1.2 else q.2)
        let s ← putRow (p.1.raise a (joinFl [o.2.1])) a dst dstr i c raws
        .ok (s, o.2.2)) (s, lanes0)
      .ok (done s)
    else do
      let slen := if fn = 0 && isMx af then ceilDiv ne 32 else 0
      if slen = 0 then .ok () else needOwn s a caddr (spanEnd caddr cstr nr slen)
      let (scs, s) ← if slen = 0 then .ok ([], s) else readRows a 3 caddr cstr slen nr s
      needDst s a dst dstr nr (ceilDiv (ne * w) 8) c.fmt
      let (s, _) ← (List.range nr).foldlM (fun (p : State × List Nat) i => do
        let x : List FV × Fl :=
          if fn = 0 then (rowVals af ((scs.getD i []).map BitVec.toNat) (ra.getD i []), {})
          else
            let zero := FV.fin false 0 0
            let rs := ((va i).zipIdx).map (fun q => elemOp comp md fn q.1 ((vb i).getD q.2 zero) ((vc i).getD q.2 zero))
            (rs.map (fun q => elemVal comp.fmt q.1 127), joinFl (rs.map (·.2)))
        let o := convertRow c p.2 x.1
        let s ← putRow (p.1.raise a (x.2.or o.2.1)) a dst dstr i c o.1
        .ok (s, o.2.2)) (s, lanes0)
      .ok (done s)

end Sys2Proof.Machine
end

