-- ==== Sys2Proof/Machine/Gate.lean ====
section
/-! DEFINITION. The gate unit: GATE (R102 to R107, R130, R559). -/

namespace Sys2Proof.Machine

/-- Parameters of a GATE record (R102, R130). -/
structure GateP where
  e : Nat
  k : Nat
  softmax : Bool
  renorm : Bool
  mask : Nat
  fallback : Nat
  capacity : Nat

/-- A routing-list slot (R105). -/
structure Slot where
  expert : Nat := 0
  valid : Bool := false
  redir : Bool := false
  merged : Bool := false
  pos : Nat := 0
  weight : Nat := 0
  deriving DecidableEq, Repr

/-- The 8 bytes of a slot; an invalid one is all zero. -/
def Slot.word (x : Slot) : Nat :=
  if x.valid then x.expert + 2 ^ 8 + b2n x.redir * 2 ^ 9 + b2n x.merged * 2 ^ 10 + x.pos * 2 ^ 16 + x.weight * 2 ^ 32 else 0

/-- What the gate raises (R109, R559). -/
structure GateFl where
  invalid : Bool := false
  overflow : Bool := false
  nonfin : Bool := false
  redirected : Bool := false
  deriving DecidableEq, Repr

def GateFl.or (a b : GateFl) : GateFl :=
  ⟨a.invalid || b.invalid, a.overflow || b.overflow, a.nonfin || b.nonfin, a.redirected || b.redirected⟩

def f32fin (x : Nat) : Bool := match fp32.unpack x with | .fin .. => true | _ => false
def f32sig (x : Nat) : Bool := (fp32.unpack x).sig

/-- `place` (R104): capacity, fallback, merging, position. -/
def place (p : GateP) (c : GateCounts) (slots : List Slot) (e w : Nat) : GateCounts × List Slot × GateFl :=
  let full := e ≠ p.fallback && p.capacity ≠ 0 && p.capacity ≤ mget c.slots e 0
  let x := if full then p.fallback else e
  let ovr (c : GateCounts) : GateCounts := if full then { c with overs := mput c.overs e 0 (mget c.overs e 0 + 1) } else c
  if slots.any (fun s => s.valid && s.expert == x) then
    let r (s : Slot) : Nat × Fl := addEnc fp32 .rne s.weight w
    let inv := slots.any (fun s => s.valid && s.expert == x && (r s).2.invalid)
    (ovr c, slots.map (fun s => if s.valid && s.expert == x then { s with weight := (r s).1, merged := true } else s) ++ [({} : Slot)],
      { redirected := full, invalid := inv })
  else
    let pos := mget c.slots x 0
    if 65535 < pos then ({ c with dropped := c.dropped + 1 }, slots ++ [({} : Slot)], { redirected := full })
    else
      ({ ovr c with slots := mput c.slots x 0 (pos + 1) }, slots ++ [{ expert := x, valid := true, redir := full, pos := pos, weight := w }],
        { redirected := full })

/-- Insert an expert behind those with a larger or equal key. -/
def insertKey (key : Nat → FV) (x : Nat) : List Nat → List Nat
  | [] => [x]
  | y :: t => if FV.cmp (key y) (key x) < 0 then x :: y :: t else y :: insertKey key x t

/-- Sum of FP32 encodings in list order (RNE). -/
def sumF32 : List Nat → Nat × Bool
  | [] => (0, false)
  | x :: t => t.foldl (fun p y => let r := addEnc fp32 .rne p.1 y; (r.1, p.2 || r.2.invalid)) (x, false)

/-- A correctly rounded FP32 quotient; only its `INVALID` counts in the gate (R559). -/
def divF32 (x y : Nat) : Nat × Bool :=
  let r := FV.div (fp32.unpack x) (fp32.unpack y)
  ((fp32.pack .rne {} 0 r.1).1, r.2.invalid)

/-- One token (R103): its slots, the counts after it, what it raises (R559; log entry 90). -/
def gateToken (p : GateP) (c : GateCounts) (xs bias : List Nat) : GateCounts × List Slot × GateFl :=
  let avail := maskList p.mask p.e
  let keyOf (e : Nat) : Nat × Fl :=
    if bias.isEmpty then (xs.getD e 0, {}) else addEnc fp32 .rne (xs.getD e 0) (bias.getD e 0)
  let keys := (List.range p.e).map keyOf
  let key (e : Nat) : Nat := (keys.getD e (0, {})).1
  let sigs := (List.range p.e).any (fun e => f32sig (xs.getD e 0) || (!bias.isEmpty && f32sig (bias.getD e 0)))
  let fl0 : GateFl := { invalid := sigs || avail.any (fun e => (keys.getD e (0, {})).2.invalid), overflow := avail.any (fun e => (keys.getD e (0, {})).2.overflow) }
  if avail.isEmpty || avail.any (fun e => !f32fin (xs.getD e 0) || !f32fin (key e)) then
    let q := place p { c with nonfinite := c.nonfinite + 1 } [] p.fallback 0x3F800000
    (q.1, q.2.1, (fl0.or q.2.2).or { nonfin := true })
  else
    let m := avail.foldl (fun m e => (fvMax m (fp32.unpack (xs.getD e 0))).1) (.inf true)
    let d (e : Nat) : Nat :=
      (gateExp (fp32.pack .rne {} 0 (FV.add .rne (fp32.unpack (xs.getD e 0)) (m.flipSign true)).1).1).1
    let ds := avail.map (fun e => (e, d e))
    let tot := sumF32 (ds.map (·.2))
    let score (e : Nat) : Nat × Bool :=
      if p.softmax then divF32 (((ds.find? (fun q => q.1 == e)).map (·.2)).getD 0) tot.1
      else let g := gateSigmoid (xs.getD e 0); (g.1, g.2.invalid)
    let sel := (avail.foldl (fun l e => insertKey (fun x => fp32.unpack (key x)) e l) []).take p.k
    let w0 := sel.map score
    let sw := sumF32 (w0.map (·.1))
    let ws := if p.renorm then w0.map (fun w => let r := divF32 w.1 sw.1; (r.1, w.2 || r.2)) else w0
    let fl1 : GateFl := { invalid := (p.softmax && tot.2) || ws.any (·.2) || (p.renorm && sw.2) }
    (sel.zip ws).foldl (fun q x =>
      let r := place p q.1 q.2.1 x.1 x.2.1
      (r.1, r.2.1, q.2.2.or r.2.2)) (c, [], fl0.or fl1)

/-- The count block of R106. -/
def countBlock (c : GateCounts) : List Byte :=
  (List.range 256).flatMap (fun e => leBytes 4 (mget c.slots e 0)) ++ (List.range 256).flatMap (fun e => leBytes 4 (mget c.overs e 0)) ++
    leBytes 4 c.nonfinite ++ leBytes 4 c.dropped ++ List.replicate 56 0

/-- GATE, started. -/
def runGate (s : State) (a n : Nat) (r : Record) : RX State := do
  let z (v d : Nat) : Nat := if v = 0 then d else v
  let t := z (Rf r 12 0 8) 256
  let e := z (Rf r 13 0 8) 256
  let k := Rf r 14 0 4
  let p : GateP := ⟨e, k, Rf r 14 4 1 == 0, Rf r 14 5 1 == 1, Rf r 32 0 256, Rf r 15 0 8, Rf r 16 0 16⟩
  let (rows, s) ← readOperand s a 4 (srcOf (Rf r 8 0 32)) 1 (ceilDiv (4 * e) 64 * 64) t e
  let (bias, s) ← if Rf r 14 7 1 = 1 then (do
      let (b, s) ← readOwn s a 4 (Rf r 20 0 26) (4 * e)
      .ok (unpackElems 32 e b, s)) else .ok ([], s)
  needOwn s a (Rf r 24 0 26) (Rf r 24 0 26 + 8 * t * k)
  needOwn s a (Rf r 28 0 26) (Rf r 28 0 26 + 2112)
  let c0 := if Rf r 14 6 1 = 1 then {} else (s.arr a).gate
  let res := rows.foldl (fun (q : GateCounts × List Nat × GateFl) xs =>
    let o := gateToken p q.1 xs bias
    (o.1, q.2.1 ++ (o.2.1 ++ List.replicate (k - o.2.1.length) ({} : Slot)).map Slot.word, q.2.2.or o.2.2)) (c0, [], {})
  let s ← writeOwn s a 4 (Rf r 24 0 26) (res.2.1.flatMap (leBytes 8))
  let s ← writeOwn s a 4 (Rf r 28 0 26) (countBlock res.1)
  let f := res.2.2
  let s := s.raise a { invalid := f.invalid, overflow := f.overflow }
  let s := if f.nonfin then s.wr F.arrFlags_gateNonfinite a 1 else s
  let s := if f.redirected then s.wr F.arrFlags_gateOverflow a 1 else s
  .ok ((s.updArr a (fun x => { x with gate := res.1 })).updFlight a n (fun f => { f with await := .nothing, reads := [], accR := [] }))

end Sys2Proof.Machine
end

