-- ==== Sys2Proof/Machine/Channels.lean ====
section
/-! DEFINITION. Channel endpoints: queues, spill, answers, notices, opening and closing, combining (R278 to R312). An endpoint is named
by its array and number; its registers lie at index array × 64 + number. -/

namespace Sys2Proof.Machine

def epKey (a e : Nat) : Nat := a * 64 + e

def State.ep (s : State) (a e : Nat) : Ep := mget s.eps (epKey a e) {}
def State.setEp (s : State) (a e : Nat) (x : Ep) : State := { s with eps := mput s.eps (epKey a e) {} x }
def State.updEp (s : State) (a e : Nat) (f : Ep → Ep) : State := s.setEp a e (f (s.ep a e))

def State.epRole (s : State) (a e : Nat) : Nat := s.rd F.chEp_role (epKey a e)
def State.epOpen (s : State) (a e : Nat) : Bool := s.rd F.chEpState_state (epKey a e) == 1
def State.epPeer (s : State) (a e : Nat) : Nat × Nat := (s.rd F.chEp_peerArray (epKey a e), s.rd F.chEp_peerEp (epKey a e))
def State.epEpoch (s : State) (a e : Nat) : Nat := s.rd F.chEpState_epoch (epKey a e)

/-- Roles that receive queue or legacy items. -/
def roleReceives (r : Nat) : Bool := r == 3 || r == 4 || r == 6
/-- Roles that send. -/
def roleSends (r : Nat) : Bool := r == 1 || r == 2 || r == 6

/-- Entries of 256 bytes that an item occupies (R281). -/
def itemEntries (len : Nat) : Nat := ceilDiv len 256

/-- `QUEUED` follows the queue. -/
def State.syncQueue (s : State) (a e : Nat) : State :=
  s.wr F.chEpState_queued (epKey a e) (((s.ep a e).queue.map (fun i => itemEntries i.data.length)).sum)

def State.countDiscard (s : State) (a e : Nat) (n : Nat := 1) : State := s.cnt F.chEpCnt_discard (epKey a e) n

/-! ### The spill region (R289, R290) -/

/-- Spill region of a tile: descriptor, first byte, size, number of slots. -/
def State.spillArea (s : State) (a : Nat) : Option (Nat × Nat × Nat × Nat) :=
  match s.spillRgn a with
  | none => none
  | some n =>
    let size := s.rgnHi a n - s.rgnLo a n
    some (n, s.rgnLo a n, size, 63 * size / 64 / 4096)

/-- A number in the header of slot `i`, as the channel hardware wrote it: which slots are in use, of which endpoints and in which order, it
knows without a read that could fail (log entry 79). -/
def State.slotHdr (s : State) (a base i byte len : Nat) : Nat :=
  leNat (Memory.tileRead s.mem (s.siteOf a) (base + 64 * i + byte) len)

def State.slotUsed (s : State) (a base i : Nat) : Bool := (s.slotHdr a base i 0 1).testBit 0

/-- The slot that an item of a kind may take: the lowest free one, while its kind may have one more (R290). -/
def State.freeSlot (s : State) (a : Nat) (reply : Bool) : Option Nat :=
  match s.spillArea a with
  | none => none
  | some (_, base, _, n) =>
    let used := (List.range n).filter (s.slotUsed a base)
    let rep := (used.filter (fun i => (s.slotHdr a base i 0 1).testBit 1)).length
    let req := used.length - rep
    let held := n / 8
    if (if reply then used.length < n else req + (rep - held) + held < n)
    then (List.range n).find? (fun i => !s.slotUsed a base i) else none

/-- Write an item into a spill slot, its header first (R289). False: a partial write met an uncorrectable word, and the slot stays free (R191). -/
def State.spillItem (s : State) (a e slot : Nat) (it : Item) : Bool × State :=
  match s.spillArea a with
  | none => (true, s)
  | some (n, base, size, _) =>
    let reply := s.epRole a e == 4
    let hdr := leBytes 1 (1 + 2 * b2n reply) ++ leBytes 1 e ++ leBytes 2 it.data.length ++ leBytes 2 it.epoch ++ leBytes 2 it.src ++
      leBytes 8 s.now ++ leBytes 4 (s.ep a e).order ++ List.replicate 44 0
    let s1 := (s.writeTile a n 6 (base + 64 * slot) hdr).2
    let w := s1.writeTile a n 6 (base + size / 64 + 4096 * slot) it.data
    if w.1 then (true, (w.2.updEp a e (fun x => { x with order := (x.order + 1) % 2 ^ 32 })).cnt F.chEpState_spilled (epKey a e))
    else (false, (w.2.writeTile a n 6 (base + 64 * slot) (List.replicate 64 0)).2)

/-- Slots that hold items of an endpoint. -/
def State.epSlots (s : State) (a e : Nat) : List Nat :=
  match s.spillArea a with
  | none => []
  | some (_, base, _, n) => (List.range n).filter (fun i => s.slotUsed a base i && s.slotHdr a base i 1 1 % 64 == e)

/-- Slot of an endpoint's oldest spilled item. -/
def State.oldestSlot (s : State) (a e : Nat) : Option Nat :=
  match s.spillArea a with
  | none => none
  | some (_, base, _, _) =>
    (s.epSlots a e).foldl (fun m i => match m with
      | none => some i
      | some j => if s.slotHdr a base i 16 4 < s.slotHdr a base j 16 4 then some i else some j) none

/-- Free a slot: its header is written all zero. -/
def State.clearSlot (s : State) (a slot : Nat) : State :=
  match s.spillArea a with
  | none => s
  | some (n, base, _, _) => (s.writeTile a n 6 (base + 64 * slot) (List.replicate 64 0)).2

/-! ### Notices (R288, R292) -/

/-- A CHANNEL_CREDIT from endpoint `e` of array `a`. -/
def State.credit (s : State) (a e : Nat) (toU : Nat × Nat) (op epoch : Nat) : State :=
  s.send { body := .channelCredit toU.2 e op epoch, reply := true, noack := true, dst := .tile toU.1, src := .tile a }

/-- Space notices to every refused sender of one endpoint. -/
def State.spaceNotices (s : State) (a e : Nat) : State :=
  (s.each (s.ep a e).refused (fun s p => s.credit a e p 0 (s.epEpoch a e))).updEp a e (fun x => { x with refused := [] })

/-- A spill slot has become free: every refused sender of a kind that may take one now is told (R290, R292). -/
def State.slotNotices (s : State) (a : Nat) : State :=
  s.each (List.range 64) (fun s e =>
    let r := s.epRole a e
    if (s.ep a e).refused == [] || !(r == 3 || r == 4) || (s.freeSlot a (r == 4)).isNone then s else s.spaceNotices a e)

/-! ### Placing and taking items (R283, R284, R291) -/

/-- Entries in use. -/
def Ep.used (x : Ep) : Nat := (x.queue.map (fun i => itemEntries i.data.length)).sum

/-- Queue, spill or refuse an item at an open endpoint: the `CH_RESULT` 0, 1 or 2; 0xFF where its spill met an uncorrectable word (R191). -/
def State.placeItem (s : State) (a e : Nat) (it : Item) (sender : Option (Nat × Nat)) : Nat × State :=
  let x := s.ep a e
  let i := epKey a e
  if s.rd F.chEpState_spilled i == 0 && x.used + itemEntries it.data.length ≤ 32 then
    (0, (s.setEp a e { x with queue := x.queue ++ [it] }).syncQueue a e)
  else
    match if s.epRole a e == 6 then none else s.freeSlot a (s.epRole a e == 4) with
    | some slot => let w := s.spillItem a e slot it; (if w.1 then 1 else 0xFF, w.2)
    | none => (2, match sender with
        | none => s
        | some p => s.setEp a e { x with refused := if x.refused.contains p then x.refused else x.refused ++ [p] })

/-- The spill region is being initialised: what would write or read it waits (R175). -/
def State.spillBusy (s : State) (a : Nat) : Bool := match s.spillRgn a with
  | none => false
  | some n => s.on F.tmRgn_initBusy (a * 16 + n)

/-- An item at an open endpoint would be spilled, and the spill region is being initialised (R175). -/
def State.placeWaits (s : State) (a e len : Nat) : Bool :=
  s.spillBusy a && s.epRole a e != 6 &&
    !(s.rd F.chEpState_spilled (epKey a e) == 0 && decide ((s.ep a e).used + itemEntries len ≤ 32))

/-- Move the oldest spilled item into the queue, if it fits: header and data are read, and an uncorrectable word in either makes the item
bad (R191, R291). -/
def State.refill (s : State) (a e : Nat) : State :=
  match s.oldestSlot a e, s.spillArea a with
  | some slot, some (n, base, size, _) =>
    let len := s.slotHdr a base slot 2 2
    if !s.spillBusy a && (s.ep a e).used + itemEntries len ≤ 32 then
      let h := s.readTile a n 6 (base + 64 * slot) 64
      let r := h.2.readTile a n 6 (base + size / 64 + 4096 * slot) len
      let it : Item := { data := r.1.getD (List.replicate len 0), src := s.slotHdr a base slot 6 2, epoch := s.slotHdr a base slot 4 2,
                         spilled := true, bad := h.1.isNone || r.1.isNone }
      let s1 := (r.2.clearSlot a slot).updEp a e (fun x => { x with queue := x.queue ++ [it] })
      let s2 := (s1.syncQueue a e).wr F.chEpState_spilled (epKey a e) (s1.rd F.chEpState_spilled (epKey a e) - 1)
      s2.slotNotices a
    else s
  | _, _ => s

/-! ### Status words (R306) -/

def statusWord (code : Nat) (spilled suspect : Bool) (len epoch peer : Nat) : Nat :=
  code + b2n spilled * 2 ^ 8 + b2n suspect * 2 ^ 9 + len * 2 ^ 16 + epoch * 2 ^ 32 + peer * 2 ^ 48

/-- A SEND or RECV ends: its status word is written, and the record fails with channel-error where it asked to (R138). -/
def State.endIO (s : State) (a n w : Nat) : State :=
  match s.flight a n with
  | none => s
  | some f =>
    let r := s.tryWrite a 5 .own (Rf f.record 20 0 26) (leBytes 8 w)
    let st := if r.1 = 1 then 0x04 else if r.1 = 3 then 0x06 else if w % 256 != 0 && Rf f.record 9 0 1 == 1 then 0x0F else 0
    (r.2.finish a n).failFlight a n st

/-- A SEND ends (R282): the item leaves the endpoint. -/
def State.endSend (s : State) (a e n code : Nat) (spilled : Bool) (epoch peer : Nat) : State :=
  let x := s.ep a e
  let sus := (x.outs.filter (fun o => o.flight == n)).any (·.suspect)
  let len := match s.flight a n with
    | none => 0
    | some f => Rf f.record 16 0 32
  let s1 := s.setEp a e { x with outs := x.outs.filter (fun o => o.flight != n) }
  let s2 := if (s1.ep a e).outs.any (fun o => o.since.isSome) then s1 else s1.wr F.chEpState_blocked (epKey a e) 0
  s2.endIO a n (statusWord code spilled sus (if code = 0 then len else 0) epoch peer)

/-- A RECV that waits on an endpoint, if one does. -/
def State.recvWaiting (s : State) (a e : Nat) : Option Flight :=
  (s.arr a).flights.find? (fun f => f.await == .item e)

/-- Some range of a record lies in a region that is being initialised: its unit's accesses stall (R175). -/
def State.rangesStall (s : State) (a : Nat) (l : List (Nat × Nat)) : Bool := l.any (fun x => s.initStalls a x.1 x.2)

/-- A waiting RECV takes the oldest item (R284). -/
def State.deliver (s : State) (a e : Nat) : State :=
  match s.recvWaiting a e, (s.ep a e).queue with
  | some f, it :: rest =>
    if s.rangesStall a f.writes then s else
    let s1 := ((s.updEp a e (fun x => { x with queue := rest })).syncQueue a e).cntW F.chEpCnt_items (epKey a e)
    let max := Rf f.record 16 0 32
    let bytes := it.data.take max
    let s2 :=
      if it.bad then s1.endIO a f.n (statusWord 0x09 it.spilled false 0 it.epoch it.src)
      else
        let r := s1.tryWrite a 6 .own (Rf f.record 12 0 26) bytes
        if r.1 = 1 then (r.2.finish a f.n).failFlight a f.n 0x04
        else if r.1 = 3 then (r.2.finish a f.n).failFlight a f.n 0x06
        else r.2.endIO a f.n (statusWord (if max < it.data.length then 0x04 else 0) it.spilled false bytes.length it.epoch it.src)
    s2.spaceNotices a e
  | _, _ => s

/-! ### Combining endpoints (R301 to R304) -/

def State.combElems (s : State) (a e : Nat) : Nat := s.rd F.chEp_elems16 (epKey a e) * 16
def State.combBase (s : State) (a e : Nat) : Nat := s.rd F.chEp_accLine (epKey a e) * 64

/-- Every slot with a non-zero expected count has arrived in full. -/
def Ep.batchDone (x : Ep) : Bool := x.expected.all (fun p => mget x.arrived p.1 0 == p.2)

/-- The endpoint returns to idle; what it had accumulated is forgotten. -/
def State.combIdle (s : State) (a e : Nat) : State :=
  (s.updEp a e (fun x => { x with expected := [], arrived := [] })).wr F.chEpState_batch (epKey a e) 0

/-- A RECV that waits on a combining endpoint completes once the batch is done, or at once on an idle endpoint. -/
def State.combCheck (s : State) (a e : Nat) : State :=
  match s.recvWaiting a e with
  | none => s
  | some f =>
    if s.epRole a e != 5 then s
    else if s.rd F.chEpState_batch (epKey a e) == 0 then s.endIO a f.n (statusWord 0 false false 0 (s.epEpoch a e) 0)
    else if (s.ep a e).batchDone then
      (s.combIdle a e).endIO a f.n (statusWord 0 false false ((s.ep a e).expected.length) (s.epEpoch a e) 0)
    else s

/-- Register expected counts, by token (R302): false when a count would pass 255, and then nothing changes. -/
def State.combRegister (s : State) (a e : Nat) (counts : NMap Nat) : Bool × State :=
  let idle := s.rd F.chEpState_batch (epKey a e) == 0
  let x := s.ep a e
  let exp0 := if idle then [] else x.expected
  let sum := counts.foldl (fun m p => mput m p.1 0 (mget m p.1 0 + p.2)) exp0
  if sum.any (fun p => decide (255 < p.2)) then (false, s)
  else
    let s1 := s.setEp a e { x with expected := sum, arrived := if idle then [] else x.arrived }
    let s2 := if idle then
        let base := s.combBase a e
        match s.region a base (256 * 4 * s.combElems a e) with
        | none => s1
        | some n => (s1.writeTile a n 6 base (List.replicate (256 * 4 * s.combElems a e) 0)).2
      else s1
    (true, s2.wr F.chEpState_batch (epKey a e) 1)

/-- Add 4-byte elements to memory, the atomic operation of R184: 1 FP32, 2 INT32 saturating. -/
def atomicAdd (op : Nat) (old new : List Nat) : List Nat :=
  (old.zip new).map (fun p =>
    if op = 1 then
      let v := FV.add .rne (fp32.unpack p.1) (fp32.unpack p.2)
      (fp32.pack .rne {} 0 v.1).1
    else toTwos 32 (max (-2147483648) (min 2147483647 (sext 32 p.1 + sext 32 p.2))))

/-- An atomic operation on a range of a tile (R185): the status of a checked access. -/
def State.atomicTile (s : State) (a : Nat) (w : Who) (addr op : Nat) (bytes : List Byte) : Nat × State :=
  match s.region a addr bytes.length with
  | none => (1, s)
  | some n =>
    if !s.mayWrite a n w addr bytes.length then (1, s)
    else
      let r := s.readTile a n 6 addr bytes.length
      match r.1 with
      | none => (3, r.2)
      | some old =>
        let k := bytes.length / 4
        let w := r.2.writeTile a n 6 addr (packElems 32 (atomicAdd op (unpackElems 32 k old) (unpackElems 32 k bytes)))
        (if w.1 then 0 else 3, w.2)

/-- The `CH_RESULT` of an endpoint that is not open; closed-by-reset passes to closed (R297). -/
def State.closedAnswer (s : State) (a e : Nat) : Nat × State :=
  if s.rd F.chEpState_state (epKey a e) == 2 then (3, s.wr F.chEpState_state (epKey a e) 0) else (4, s)

/-- A contribution to slot `t` (R303): NACK status, `CH_RESULT`, state. -/
def State.contribute (s : State) (a e t fmt : Nat) (bytes : List Byte) : Nat × Nat × State :=
  let i := epKey a e
  if s.epRole a e != 5 then (6, 0, s.countDiscard a e)
  else if !s.epOpen a e then
    let r := (s.countDiscard a e).closedAnswer a e
    (0, r.1, r.2)
  else if s.rd F.chEpState_batch i == 0 then (0, 4, s.countDiscard a e)
  else
    let x := s.ep a e
    let el := s.combElems a e
    let inf := s.rd F.chEp_inFmt i
    if bytes.length != el * fmtWidth inf / 8 || fmt != inf || mget x.expected t 0 ≤ mget x.arrived t 0 then
      (6, 0, s.cnt F.chEpCnt_tmo i)
    else
      let vals := unpackElems (fmtWidth inf) el bytes
      let wide := if inf = 2 || inf = 3 then vals.map (fun v => (fp32.pack .rne {} 0 (elemVal inf v 127)).1) else vals
      let r := s.atomicTile a .channel (s.combBase a e + t * el * 4) (if inf = 14 then 2 else 1) (packElems 32 wide)
      if r.1 != 0 then (r.1, 0, r.2)
      else
        let s1 := (r.2.updEp a e (fun x => { x with arrived := mput x.arrived t 0 (mget x.arrived t 0 + 1) })).cntW F.chEpCnt_items i
        (0, 0, s1.combCheck a e)

/-- A contribution to slot `t` waits while the slot's region is being initialised (R175). -/
def State.combWaits (s : State) (a e t : Nat) : Bool :=
  let lo := s.combBase a e + t * s.combElems a e * 4
  s.epRole a e == 5 && s.initStalls a lo (lo + s.combElems a e * 4)

/-! ### Opening and closing (R295, R296) -/

/-- An endpoint bound to a field die or a link die has no peer (R351, R380). -/
def State.fieldBind (s : State) (a e : Nat) : Option Nat :=
  (List.range 256).find? (fun j => s.on F.fldSptBind_valid j && s.rd F.fldSptBind_array j == a && s.rd F.fldSptBind_ep j == e)
def State.linkBind (s : State) (a e : Nat) : Option Nat :=
  (List.range 256).find? (fun j => s.on F.lnkBind_valid j && s.rd F.lnkBind_array j == a && s.rd F.lnkBind_ep j == e)
def State.epBound (s : State) (a e : Nat) : Bool := (s.fieldBind a e).isSome || (s.linkBind a e).isSome

/-- Open an endpoint. A receiver's epoch rises and it tells its peer; a sender asks its reader. -/
def State.openEp (s : State) (a e : Nat) : State :=
  let i := epKey a e
  let r := s.epRole a e
  let s1 := (s.wr F.chEpState_state i 1).updEp a e (fun x => { x with order := 0, wasOpen := false })
  let s2 := if roleReceives r || r == 5 then s1.cntW F.chEpState_epoch i else s1
  let s3 := if r == 3 || r == 4 || r == 6 then s2.credit a e (s2.epPeer a e) 1 (s2.epEpoch a e) else s2
  if (r == 1 || r == 2 || r == 6) && !s3.epBound a e then
    (s3.credit a e (s3.epPeer a e) 3 0).updEp a e (fun x => { x with queried := true })
  else s3

/-- Discard what a receiver holds (R296); the senders it had refused learn of the room (R292). -/
def State.discardHeld (s : State) (a e : Nat) : State :=
  let n := (s.ep a e).queue.length + s.rd F.chEpState_spilled (epKey a e)
  let had := s.epSlots a e
  let s1 := s.each had (fun s i => s.clearSlot a i)
  let s2 := ((s1.updEp a e (fun x => { x with queue := [] })).syncQueue a e).wr F.chEpState_spilled (epKey a e) 0
  let s3 := s2.countDiscard a e n
  let s4 := if (s.ep a e).queue == [] then s3 else s3.spaceNotices a e
  if had == [] then s4 else s4.slotNotices a

/-- Close an endpoint, by `CLOSE` (state 0) or by a reset (state 2). -/
def State.closeEp (s : State) (a e st : Nat) : State :=
  let r := s.epRole a e
  if !s.epOpen a e then s
  else
    let s1 := (s.wr F.chEpState_state (epKey a e) st).updEp a e (fun x => { x with wasOpen := st == 2, queried := false })
    let s2 := if roleReceives r then (s1.discardHeld a e).credit a e (s1.epPeer a e) 2 (s1.epEpoch a e) else s1
    let s3 := if r == 5 then s2.combIdle a e else s2
    match s3.recvWaiting a e with
    | some f => if st = 0 then s3.endIO a f.n (statusWord 0x05 false false 0 (s3.epEpoch a e) 0) else s3
    | none => s3

/-- `CH_EP_STATE_n.OPEN` is set: any endpoint opens (R295), but one that is open does not open again (log entry 25). -/
def State.setOpen (s : State) (a e : Nat) : State := if s.epOpen a e then s else s.openEp a e

/-- `CH_EP_STATE_n.CLOSE` is set. A closed-by-reset endpoint becomes closed. -/
def State.setClose (s : State) (a e : Nat) : State :=
  if s.epOpen a e then s.closeEp a e 0
  else (s.wr F.chEpState_state (epKey a e) 0).updEp a e (fun x => { x with wasOpen := false })

/-- CH_EP_OPEN (R295). -/
def execChEpOpen (port : Fin 2) (a : Fin 512) (n : Fin 64) (s : State) : Out := s.barArr port a (fun s => s.setOpen a n)

/-- CH_EP_CLOSE (R296). -/
def execChEpClose (port : Fin 2) (a : Fin 512) (n : Fin 64) (s : State) : Out := s.barArr port a (fun s => s.setClose a n)

/-- What R314 refuses. -/
def State.chEpBad (s : State) (a n v : Nat) : Bool :=
  let role := bitsAt v 0 3
  let base := bitsAt v 32 20 * 64
  let el := bitsAt v 52 8
  let fmt := bitsAt v 60 4
  s.epOpen a n || s.isMember a ||
  (role == 5 && (!between el 1 64 || !([1, 2, 3, 14].contains fmt) || !s.ownOk a base (base + 256 * 16 * 4 * el)))

/-- Store the fields of `CH_EP_n`. -/
def State.putChEp (s : State) (i v : Nat) : State :=
  ((((((((s.wr F.chEp_role i (bitsAt v 0 3)).wr F.chEp_autoOpen i (bitsAt v 3 1)).wr F.chEp_hostOk i (bitsAt v 4 1)).wr
    F.chEp_peerArray i (bitsAt v 8 9)).wr F.chEp_peerEp i (bitsAt v 17 6)).wr F.chEp_accLine i (bitsAt v 32 20)).wr
    F.chEp_elems16 i (bitsAt v 52 8)).wr F.chEp_inFmt i (bitsAt v 60 4))

/-- A write of `v` to `CH_EP_n` (R314). The reserved `ROLE` keeps the one there was, and a reserved-write record names the register (R20). -/
def State.wrChEp (s : State) (a n v : Nat) : State :=
  let keep := bitsAt v 0 3 == 7
  let v1 := if keep then v - 7 + s.epRole a n else v
  if s.chEpBad a n v1 then s.bark 0x0007 { kind := .array, num := a } [(24, n)]
  else (s.putChEp (epKey a n) v1).when keep (fun s => s.reservedWrite (regOff .chEp (epKey a n)))

/-- CH_EP_WRITE (R314). -/
def execChEpWrite (port : Fin 2) (a : Fin 512) (n : Fin 64) (value : BitVec 64) (s : State) : Out :=
  s.barArr port a (fun s => s.wrChEp a n value.toNat)

/-! ### Channel packets -/

def isItem (p : Packet) : Bool := match p.body with
  | .channelItem .. => true
  | _ => false

/-- A packet reaches its tile: it leaves the net; a vacant number, a fenced array and a bad flit refuse it (R259, R273, R180), and so does a
reset in progress (R473), but for an item, which its closed endpoint answers (R299). -/
def State.atTile (s : State) (p : Packet) (k : Nat → State → State) : Out :=
  s.arrive p (fun s1 =>
      match p.dst with
      | .tile a =>
        if !classOk p then s1.absorb (s1.siteOf a) p 6
        else if s1.arrVacant a then s1.nack p 4
        else if s1.arrFenced a then s1.absorb (s1.siteOf a) p 2
        else if s1.inReset a && !isItem p then s1.absorb (s1.siteOf a) p 5
        else if p.bad then s1.nack p 3
        else k a (if s1.inReset a then s1.cnt F.fabRtrCnt_absorbed (s1.siteOf a) else s1)
      | _ => s1.nack p 6)

def State.ackItem (s : State) (p : Packet) (result epoch : Nat) : State :=
  if p.noack then s else s.send (replyTo p (.ack 1 result epoch) 0)

/-- Does an item fit the endpoint's role, kind and peer (R279)? -/
def State.itemFits (s : State) (a e mode srcArray srcEp : Nat) (reply : Bool) : Bool :=
  let r := s.epRole a e
  roleReceives r && (r == 6) == (mode == 2) && (r == 6 || (r == 4) == reply) && s.epPeer a e == (srcArray, srcEp)

/-- CHANNEL_ITEM (R279, R283, R297, R298). -/
def execChannelItem (pkt : Packet) (s : State) : Out :=
  match pkt.body with
  | .channelItem e mode srcEp epoch _ _ =>
    if (match pkt.dst with | .tile a => s.epOpen a e && s.placeWaits a e pkt.payload.length | _ => false) then .next s
    else s.atTile pkt (fun a s =>
      let b := match pkt.src with | .tile b => b | _ => 512
      if mode == 1 || mode == 3 then s.nack pkt 6
      else if !s.itemFits a e mode b srcEp pkt.reply then s.ackItem pkt 5 (s.epEpoch a e)
      else if !s.epOpen a e then
        let r := s.closedAnswer a e
        r.2.ackItem pkt r.1 (r.2.epEpoch a e)
      else if epoch != s.epEpoch a e then s.ackItem pkt 3 (s.epEpoch a e)
      else
        let r := s.placeItem a e { data := pkt.payload, src := b, epoch := epoch } (some (b, srcEp))
        if r.1 = 0xFF then r.2.nack pkt 3 else r.2.ackItem pkt r.1 (r.2.epEpoch a e))
  | _ => .next s

/-- COMBINING_CONTRIBUTION (R303). -/
def execCombiningContribution (pkt : Packet) (s : State) : Out :=
  match pkt.body with
  | .channelItem e mode _ _ slot fmt =>
    if mode != 1 || (match pkt.dst with | .tile a => s.combWaits a e slot | _ => false) then .next s else
    s.atTile pkt (fun a s =>
      let r := s.contribute a e slot fmt pkt.payload
      if r.1 = 1 then (r.2.2.deny a (srcUnit pkt.src)).nack pkt 1
      else if r.1 != 0 then r.2.2.nack pkt r.1 else r.2.2.ackItem pkt r.2.1 (r.2.2.epEpoch a e))
  | _ => .next s

/-- Send the item of an outstanding SEND (R282, R286). -/
def State.transmitItem (s : State) (a e : Nat) (o : OutItem) : State :=
  let peer := s.epPeer a e
  let role := s.epRole a e
  let tag := s.nextTag
  let p : Packet := { body := .channelItem peer.2 (if role = 6 then 2 else 0) e (s.ep a e).peerEpoch 0 0,
                      reply := role == 2, pinned := role == 6, dst := .tile peer.1, src := .tile a, payload := o.data }
  ((s.request { src := .tile a, array := a, flight := o.flight } p).updEp a e
    (fun x => { x with outs := x.outs.map (fun q => if q.flight = o.flight then { q with rtag := tag } else q) })).updFlight a o.flight
    (fun f => { f with reads := [] })

/-- Resend every blocked item of an endpoint that has no packet on its way. -/
def State.resendBlocked (s : State) (a e : Nat) : State :=
  s.each ((s.ep a e).outs.filter (fun o => o.since.isSome && o.rtag == 0)) (fun s o => s.transmitItem a e o)

/-- Send the items that waited for the answer to an epoch query (R295). -/
def State.sendWaiting (s : State) (a e : Nat) : State :=
  s.each ((s.ep a e).outs.filter (fun o => o.since.isNone && o.rtag == 0)) (fun s o => s.transmitItem a e o)

/-- A notice reaches the endpoint it addresses; notices carry `NOACK`, so nothing answers one that meets no endpoint. -/
def State.atNotice (s : State) (p : Packet) (op : Nat) (k : Nat → Nat → Nat × Nat → Nat → State → State) : Out :=
  match p.body, p.src with
  | .channelCredit e srcEp o epoch, .tile b =>
    if o != op then .next s else s.atTile p (fun a s => k a e (b, srcEp) epoch s)
  | _, _ => .next s

/-- SPACE_NOTICE (R292). -/
def execSpaceNotice (pkt : Packet) (s : State) : Out :=
  s.atNotice pkt 0 (fun a e b epoch s =>
    if s.epPeer a e == b then (s.updEp a e (fun x => { x with peerEpoch := epoch })).resendBlocked a e else s)

/-- OPEN_NOTICE (R295). -/
def execOpenNotice (pkt : Packet) (s : State) : Out :=
  s.atNotice pkt 1 (fun a e b epoch s =>
    if s.epPeer a e == b && roleSends (s.epRole a e) then
      (s.updEp a e (fun x => { x with peerEpoch := epoch, queried := false })).sendWaiting a e
    else s)

/-- CLOSE_NOTICE (R296). -/
def execCloseNotice (pkt : Packet) (s : State) : Out :=
  s.atNotice pkt 2 (fun a e b epoch s =>
    if s.epPeer a e == b && roleSends (s.epRole a e) then
      (s.updEp a e (fun x => { x with peerEpoch := epoch, queried := false })).sendWaiting a e
    else s)

/-- EPOCH_QUERY (R295): the reader answers with an open or a close notice. -/
def execEpochQuery (pkt : Packet) (s : State) : Out :=
  s.atNotice pkt 3 (fun a e b _ s => s.credit a e b (if s.epOpen a e then 1 else 2) (s.epEpoch a e))

/-- BLOCK_NOTICE (R293). -/
def execBlockNotice (pkt : Packet) (s : State) : Out :=
  s.atNotice pkt 4 (fun a e b _ s => if s.epPeer a e == b then s.wr F.chEpState_suspect (epKey a e) 1 else s)

/-- What the array's own channel unit does at a time of its choosing; an array on a stopped island does nothing (R539). -/
def State.chanDoes (s : State) (a : Nat) (f : State → State) : Out := .next (if s.halted (s.arrIsland a) then s else f s)

/-- SPILL_REFILL (R291). -/
def execSpillRefill (a : Fin 512) (ep : Fin 64) (s : State) : Out := s.chanDoes a (fun s => s.refill a ep)

/-- RECV_DELIVER (R284). Spilled items that now fit are taken in by SPILL_REFILL. -/
def execRecvDeliver (a : Fin 512) (ep : Fin 64) (s : State) : Out := s.chanDoes a (fun s => s.deliver a ep)

/-- CHANNEL_RESEND (R292): 10 µs have passed since the last refusal. -/
def execChannelResend (a : Fin 512) (ep : Fin 64) (s : State) : Out := s.chanDoes a (fun s => s.resendBlocked a ep)

/-- CHANNEL_SUSPECT (R293): a SEND has been blocked for `SUSPECT_US`. -/
def execChannelSuspect (a : Fin 512) (ep : Fin 64) (s : State) : Out :=
  s.chanDoes a (fun s =>
    let x := s.ep a ep
    if x.outs.any (fun o => o.since.isSome && !o.suspect) then
      let peer := s.epPeer a ep
      let s1 := s.setEp a ep { x with outs := x.outs.map (fun o => if o.since.isSome then { o with suspect := true } else o) }
      ((s1.wr F.chEpState_suspect (epKey a ep) 1).credit a ep peer 4 0).bark 0x0008 { kind := .array, num := a }
        [(24, a), (26, ep), (28, peer.1), (30, peer.2)]
    else s)

/-- CHANNEL_SEND_TIMEOUT (R294): a SEND has been blocked for `TMO_10US` × 10 µs. The answer to a copy on its way is ignored. -/
def execChannelSendTimeout (a : Fin 512) (ep : Fin 64) (s : State) : Out :=
  s.chanDoes a (fun s =>
    match (s.ep a ep).outs.find? (fun o => o.since.isSome) with
    | none => s
    | some o =>
      if s.rd F.chCfg_tmo10us a == 0 then s
      else (s.cnt F.chEpCnt_tmo (epKey a ep)).endSend a ep o.flight 0x03 false (s.ep a ep).peerEpoch (s.epPeer a ep).1)

/-- The answer to an item (R287, R292, R297, R307, R561): `st` is a NACK status or 0. -/
def State.itemAnswered (s : State) (a n st result epoch : Nat) : State :=
  match (List.range 64).find? (fun e => (s.ep a e).outs.any (fun o => o.flight == n)) with
  | none => s
  | some e =>
    let peer := (s.epPeer a e).1
    let done (s : State) (code : Nat) (sp : Bool) : State := s.endSend a e n code sp epoch peer
    if st != 0 then
      let code := match st with
        | 1 => 0x07
        | 3 => 0x09
        | 6 => 0x06
        | _ => 0x08
      (done s code false)
    else
      let s1 := s.updEp a e (fun x => { x with peerEpoch := epoch })
      match result with
      | 0 => done (s1.cntW F.chEpCnt_items (epKey a e)) 0 false
      | 1 => done (s1.cntW F.chEpCnt_items (epKey a e)) 0 true
      | 2 =>
        (s1.wr F.chEpState_blocked (epKey a e) 1).updEp a e (fun x => { x with outs := x.outs.map (fun o =>
          if o.flight = n then { o with rtag := 0, since := match o.since with | none => some s.now | some t => some t } else o) })
      | 3 => done (s1.countDiscard a e) 0x01 false
      | 4 => done (s1.countDiscard a e) 0x02 false
      | _ => done (s1.countDiscard a e) 0x07 false

end Sys2Proof.Machine
end

