-- ==== Sys2Proof/Machine/Stack.lean ====
section
/-! DEFINITION. A hub's stack and cache: places, the hub code, reads and writes of blocks, cache lines, fetch units (R196 to R203, R220 to
R225, R231). -/

namespace Sys2Proof.Machine

/-! ### Where a stack keeps a byte (R198) -/

/-- Pseudo-channel of a 256-byte granule. -/
def pseudoChannel (g : Nat) : Nat := g % 64 ^^^ g / 64 % 64

/-- Where a byte of a stack is stored: pack, pseudo-channel, place in it. The order within a pseudo-channel is the model's own. -/
def stackKey (p off : Nat) : Nat :=
  p * 68719476736 + pseudoChannel (off / 256) * 1073741824 + off / 16384 * 256 + off % 256

/-- The stack offset of a stored byte, which `stackKey` places there. -/
def stackOff (key : Nat) : Nat :=
  let row := key / 256 % 4194304
  row * 16384 + (key / 1073741824 % 64 ^^^ row % 64) * 256 + key % 256

def blockKey (p b : Nat) : Nat := stackKey p (64 * b) / 64

def State.stackBytes (s : State) (p off len : Nat) : List Byte := Memory.readBytes s.stack (stackKey p) off len

/-! ### The hub code (R200, R201) -/

/-- Multiplication by α in GF(2^16) with field polynomial 0x1_100B. -/
def gfX (v : Nat) : Nat := if v.testBit 15 then (2 * v) ^^^ 0x1100B else 2 * v

/-- `v` · α^k. -/
def gfPow (v : Nat) : Nat → Nat
  | 0 => v
  | k + 1 => gfX (gfPow v k)

/-- The data symbols d_0 to d_31 of a block. -/
def dataSyms (bytes : List Byte) : List Nat := (List.range 32).map (fun i => leNat ((bytes.drop (2 * i)).take 2))

/-- The check symbols p_0, p_1, p_2: D(x) mod g(x), taken from the highest data symbol down. Here
g(x) = x³ + (1 + α + α²) x² + (α + α² + α³) x + α³. -/
def checkSyms (d : List Nat) : List Nat :=
  d.foldr (fun x r =>
    let f := x ^^^ r.getD 2 0
    [gfPow f 3, r.getD 0 0 ^^^ gfPow f 1 ^^^ gfPow f 2 ^^^ gfPow f 3, r.getD 1 0 ^^^ f ^^^ gfPow f 1 ^^^ gfPow f 2]) [0, 0, 0]

/-- C(α^j) of a codeword, its symbol of degree 0 first. -/
def syndrome (c : List Nat) (j : Nat) : Nat := c.zipIdx.foldl (fun x e => x ^^^ gfPow e.1 (e.2 * j)) 0

/-- What the code makes of a block. -/
inductive BlockSt where
  | good
  | corrected (degree value : Nat)
  | bad
  deriving DecidableEq, Repr

def checkBlock (c : List Nat) : BlockSt :=
  let s0 := syndrome c 0
  let s1 := syndrome c 1
  let s2 := syndrome c 2
  if s0 == 0 && s1 == 0 && s2 == 0 then .good
  else if s0 == 0 then .bad
  else match (List.range 35).find? (fun k => gfPow s0 k == s1 && gfPow s1 k == s2) with
    | some k => .corrected k s0
    | none => .bad

def State.blockErrs (s : State) (p b : Nat) : List (Nat × Nat) := mget s.stackErr (blockKey p b) []

/-- The codeword as stored: the check symbols and the data symbols that were written, with the errors since. -/
def State.codeword (s : State) (p b : Nat) : List Nat :=
  let d := dataSyms (s.stackBytes p (64 * b) 64)
  (s.blockErrs p b).foldl (fun c e => c.set e.1 (c.getD e.1 0 ^^^ e.2)) (checkSyms d ++ d)

/-- The sideband bytes of a block: p_0, p_1 and p_2, then two bytes 0. -/
def State.sideband (s : State) (p b : Nat) : List Byte := ((s.codeword p b).take 3).flatMap (leBytes 2) ++ [0, 0]

/-- What a read of a block finds. -/
def State.blockSt (s : State) (p b : Nat) : BlockSt := if s.blockErrs p b == [] then .good else checkBlock (s.codeword p b)

/-- The data bytes of a codeword. -/
def codeBytes (c : List Nat) : List Byte := (c.drop 3).flatMap (leBytes 2)

/-- A block's bytes as delivered when its code finds it good or corrects it (R201). -/
def State.blockBytes (s : State) (p b : Nat) : List Byte :=
  if s.blockErrs p b == [] then s.stackBytes p (64 * b) 64
  else
    let c := s.codeword p b
    match checkBlock c with
    | .corrected k v => codeBytes (c.set k (c.getD k 0 ^^^ v))
    | _ => codeBytes c

/-- The words of cached lines that hold bytes `off` to `off + len` - 1 are written with them (R222). A line holds no other bytes than the
stack's, so what it keeps of its own are the wrong bits of its words (R203). -/
def State.cacheWrite (s : State) (p off len : Nat) : State :=
  if s.cache.isEmpty then s else
  { s with cache := s.cache.map (fun x =>
      if x.1 / 1048576 != p then x
      else (x.1, { x.2 with flips := x.2.flips.filter (fun f =>
        let o := 256 * x.2.granule + 8 * f.1
        !(decide (off ≤ o) && decide (o < off + len))) })) }

/-- Store bytes in a stack with good check symbols, and in its cached lines; blocks covered whole lose their errors, others were corrected
first. -/
def State.pokeStack (s : State) (p off : Nat) (bytes : List Byte) : State :=
  let b0 := off / 64
  let n := ceilDiv (off % 64 + bytes.length) 64
  let clear {α : Type} (m : NMap α) : NMap α := if m.isEmpty then m else (List.range n).foldl (fun m j => mdel m (blockKey p (b0 + j))) m
  { s with stack := Memory.writeBytes s.stack (stackKey p) off bytes, stackErr := clear s.stackErr, odecc := clear s.odecc }.cacheWrite p
    (64 * b0) (64 * n)

/-- Count an uncorrectable block (R201, R504). -/
def State.hubUncorr (s : State) (p : Nat) : State := (s.cnt F.hubErrCnt_uncorrCnt p).penalize (576 + p) 16384

/-- Log an uncorrectable block: its stack is degraded (R232). -/
def State.hubLog (s : State) (p b kind : Nat) : State :=
  let s := if s.rd F.hubState_stackState p = 1 then s.wr F.hubState_stackState p 2 else s
  if s.on F.hubErrLog_valid p then s
  else (((s.wr F.hubErrLog_valid p 1).wr F.hubErrLog_kind p kind).wr F.hubErrLog_block p b).wr F.hubErrTime_time p s.now

/-- A read of one block from the stack: what the code finds is counted, with what the stack's own ECC corrected (R196, R201). Its bytes,
unless it is uncorrectable. -/
def State.checkedBlock (s : State) (p b : Nat) : Option (List Byte) × State :=
  let n := mget s.odecc (blockKey p b) 0
  let s1 := (s.cnt F.hubErrCnt2_odeccCnt p n).penalizeFine (576 + p) (16 * n)
  match s.blockSt p b with
  | .good => (some (s.blockBytes p b), s1)
  | .corrected _ _ => (some (s.blockBytes p b), (s1.cnt F.hubErrCnt_corrCnt p).penalize (576 + p) 4)
  | .bad => (none, s1.hubUncorr p)

/-- Read one block, and log it where it is uncorrectable. -/
def State.readBlock (s : State) (p b kind : Nat) : Option (List Byte) × State :=
  let r := s.checkedBlock p b
  (r.1, if r.1.isSome then r.2 else r.2.hubLog p b kind)

/-- Read a block, with the other copy to fall back on: pack and block of that copy (R219). The home block is rewritten with it. -/
def State.readBlockAlt (s : State) (p b kind : Nat) (alt : Option (Nat × Nat)) : Option (List Byte) × State :=
  let r := s.readBlock p b kind
  match r.1, alt with
  | none, some (q, c) =>
    let r2 := r.2.readBlock q c kind
    match r2.1 with
    | some bytes => (some bytes, (r2.2.pokeStack p (64 * b) bytes).cnt F.hubErrCnt_mirrorFix p)
    | none => (none, r2.2)
  | x, _ => (x, r.2)

/-- Write a range: blocks covered in part are read, corrected and merged (R202). False when such a block is uncorrectable; nothing is
written to it. -/
def State.writeStack (s : State) (p off : Nat) (bytes : List Byte) : Bool × State :=
  let b0 := off / 64
  let n := ceilDiv (off % 64 + bytes.length) 64
  (List.range n).foldl (fun (q : Bool × State) j =>
    let b := b0 + j
    let lo := max off (64 * b)
    let hi := min (off + bytes.length) (64 * b + 64)
    let part := (bytes.drop (lo - off)).take (hi - lo)
    if hi - lo = 64 then (q.1, q.2.pokeStack p lo part)
    else
      let r := q.2.readBlock p b 2
      match r.1 with
      | none => (false, r.2)
      | some old => (q.1, r.2.pokeStack p (64 * b) (old.take (lo - 64 * b) ++ part ++ old.drop (hi - 64 * b)))) (true, s)

/-! ### Cache lines (R220, R221) -/

def cacheSet (g : Nat) : Nat := (g % 16384) ^^^ (g / 16384 % 16384)
def cacheKey (p g w : Nat) : Nat := p * 1048576 + cacheSet g * 32 + w

/-- Ways of a granule's set that hold a line. -/
def State.cacheWays (s : State) (p g : Nat) : List (Nat × CacheLine) :=
  (List.range 24).filterMap (fun w => (mfind s.cache (cacheKey p g w)).map (fun l => (w, l)))

/-- A word of a line that holds a byte from `lo` to `hi` has more wrong bits than SECDED corrects (R203). -/
def CacheLine.spoilt (l : CacheLine) (lo hi : Nat) : Bool :=
  l.flips.any (fun f =>
    let o := 256 * l.granule + 8 * f.1
    decide (2 ≤ f.2) && decide (lo < o + 8) && decide (o < hi))

def State.cacheFind (s : State) (p g : Nat) : Option (Nat × CacheLine) := (s.cacheWays p g).find? (fun x => x.2.granule == g)

/-- A hit sets the re-reference value to 0; a prefetched line's first hit is counted. -/
def State.cacheHit (s : State) (p g w : Nat) (l : CacheLine) : State :=
  let s1 := { s with cache := mset s.cache (cacheKey p g w) { l with rrpv := 0, prefetched := false, hint := false } }
  let s2 := s1.cntW F.hubHits_hits p
  if l.prefetched then s2.cntW F.hubPfUsed_used p else s2

/-- An access to bytes `lo` to `hi` of a granule: whether a line delivers them. Single wrong bits are corrected on delivery; a line with an
uncorrectable error is invalidated and counted, and the access goes on to the stack (R203). -/
def State.cacheLook (s : State) (p g lo hi : Nat) : Bool × State :=
  match s.cacheFind p g with
  | none => (false, s)
  | some (w, l) =>
    if l.spoilt lo hi then (false, { s with cache := mdel s.cache (cacheKey p g w) }.cnt F.hubErrCnt2_cacheUncorr p |>.penalize (576 + p) 1024)
    else (true, s.cacheHit p g w l)

/-- Kinds of line of R221. -/
inductive FillKind where | codebook | normal | low | none | trained | hint
  deriving DecidableEq, Repr

/-- Insert a granule: into a free way, else the lowest way at 3, values of the set rising until there is one (R221). A trained prefetch
does not evict a line that a hint filled and nothing has hit (R224). -/
def State.cacheFill (s : State) (p g : Nat) (k : FillKind) : State :=
  if k = .none || (s.cacheFind p g).isSome then s
  else
    let ways := s.cacheWays p g
    let free := (List.range 24).find? (fun w => !ways.any (fun x => x.1 == w))
    let cand := if k = .trained then ways.filter (fun x => !(x.2.hint && x.2.prefetched)) else ways
    let top := cand.foldl (fun m x => max m x.2.rrpv) 0
    let line : CacheLine := { granule := g, rrpv := (if k = .codebook then 0 else if k = .low then 3 else 2),
                              prefetched := k = .trained || k = .hint, hint := k = .hint, codebook := k = .codebook }
    match free with
    | some w => { s with cache := mset s.cache (cacheKey p g w) line }
    | none =>
      match cand.find? (fun x => x.2.rrpv == top) with
      | none => s
      | some v =>
        let c1 := ways.foldl (fun c x => mset c (cacheKey p g x.1) { x.2 with rrpv := min 3 (x.2.rrpv + (3 - top)) }) s.cache
        let s1 := { s with cache := mset c1 (cacheKey p g v.1) line }
        if v.2.prefetched then s1.cntW F.hubPfWasted_wasted p else s1

/-- Read bytes through the cache. A line in the cache is served from there; a missing one is read from the stack and inserted when its
four blocks are good. `alt` maps a block to its other copy. -/
def State.cachedRead (s : State) (p off len : Nat) (k : FillKind) (alt : Nat → Option (Nat × Nat)) : Option (List Byte) × State :=
  let g0 := off / 256
  let n := ceilDiv (off % 256 + len) 256
  (List.range n).foldl (fun (q : Option (List Byte) × State) j =>
    let g := g0 + j
    let lo := max off (256 * g)
    let hi := min (off + len) (256 * g + 256)
    let put (b : Option (List Byte)) : Option (List Byte) := match q.1, b with
      | some x, some y => some (x ++ y)
      | _, _ => none
    let look := q.2.cacheLook p g lo hi
    if look.1 then (put (some (q.2.stackBytes p lo (hi - lo))), look.2)
    else
      let s1 := look.2.cntW F.hubMisses_misses p
      let blocks := (List.range 4).foldl (fun (r : List (Option (List Byte)) × State) i =>
        let b := r.2.readBlockAlt p (4 * g + i) 0 (alt (4 * g + i))
        (r.1 ++ [b.1], b.2)) ([], s1)
      let s2 := if blocks.1.contains none then blocks.2 else blocks.2.cacheFill p g k
      let need := (List.range 4).filter (fun i => decide (256 * g + 64 * i < hi) && decide (lo < 256 * g + 64 * i + 64))
      let bytes := need.foldl (fun (x : Option (List Byte)) i => match x, blocks.1.getD i none with
        | some x, some y => some (x ++ y)
        | _, _ => none) (some [])
      let first := 256 * g + 64 * (need.headD 0)
      (put (bytes.map (fun b => (b.drop (lo - first)).take (hi - lo))), s2)) (some [], s)

/-- Prefetch the lines of a range; a line that reads badly fills nothing (R225). -/
def State.prefetch (s : State) (p off len : Nat) (hint : Bool) : State :=
  (List.range (ceilDiv (off % 256 + len) 256)).foldl (fun s j =>
    let g := off / 256 + j
    if (s.cacheFind p g).isSome then s
    else
      let r := (List.range 4).foldl (fun (r : Bool × State) i =>
        let b := r.2.readBlock p (4 * g + i) 0
        (r.1 && b.1.isSome, b.2)) (true, s)
      if r.1 then r.2.cacheFill p g (if hint then .hint else .trained) else r.2) s

/-- Drop a hub's cache and free its fetch units (R194, R232). -/
def State.clearCache (s : State) (p : Nat) : State :=
  { s with cache := s.cache.filter (fun c => c.1 / 1048576 != p), fetch := s.fetch.filter (fun c => c.1 / 32 != p),
           missed := s.missed.filter (fun c => c.1 / 65536 != p) }

/-- Zero a stack (R199). -/
def State.zeroStack (s : State) (p : Nat) : State :=
  { s with stack := s.stack.filter (fun c => c.1 / 68719476736 != p), stackErr := s.stackErr.filter (fun c => c.1 / 1073741824 != p),
           odecc := s.odecc.filter (fun c => c.1 / 1073741824 != p) }

/-! ### Fetch units (R223, R224) -/

/-- The unit a hub claims: a free one, else the one used least recently. -/
def State.claimUnit (s : State) (p : Nat) : Nat :=
  match (List.range 32).find? (fun u => (mfind s.fetch (p * 32 + u)).isNone) with
  | some u => u
  | none => (List.range 32).foldl (fun b u =>
      if (mget s.fetch (p * 32 + u) {}).used < (mget s.fetch (p * 32 + b) {}).used then u else b) 0

/-- A use stamp for the units of a hub, newer than every other. -/
def State.unitStamp (s : State) (p : Nat) : Nat :=
  (List.range 32).foldl (fun m u => max m ((mget s.fetch (p * 32 + u) {}).used + 1)) 1

/-- Units that train on a table at a hub. -/
def State.unitsOf (s : State) (p h : Nat) : List Nat :=
  (List.range 32).filter (fun u => match mfind s.fetch (p * 32 + u) with
    | some f => f.handle == h && !f.hint
    | none => false)

/-- A stream predicts a miss: the row is one of those that it keeps ahead, or the one after them (R223). -/
def FetchUnit.predicts (f : FetchUnit) (r : Nat) : Bool :=
  (List.range (f.dist + 1)).any (fun i => (r : Int) == f.row + f.stride * (i + 1))

/-- The `n` rows that follow row `r` of a stream. -/
def streamRows (r : Nat) (d : Int) (n : Nat) : List Int := (List.range n).map (fun (i : Nat) => (r : Int) + d * (i + 1))

/-- A demand miss of row `r` of table `h` at hub `p`: the rows that its stream now prefetches, and the units' new state (R223). A miss that
no stream of the table predicts breaks the one used last, and may complete a new stream (log entry 92). -/
def State.train (s : State) (p h r : Nat) : List Int × State :=
  let last := mget s.missed (p * 65536 + h) []     -- newest first
  let s0 := { s with missed := mset s.missed (p * 65536 + h) (r :: last.take 1) }
  let units := s.unitsOf p h
  match units.find? (fun u => (mget s.fetch (p * 32 + u) {}).predicts r) with
  | some u =>
    let f := mget s.fetch (p * 32 + u) {}
    let d := min 32 (f.dist + 4)
    (streamRows r f.stride d, { s0 with fetch := mset s.fetch (p * 32 + u) { f with row := r, dist := d, used := s.unitStamp p } })
  | none =>
    let s1 := match units with
      | [] => s0
      | v :: t =>
        let u := t.foldl (fun b u => if (mget s.fetch (p * 32 + b) {}).used < (mget s.fetch (p * 32 + u) {}).used then u else b) v
        let f := mget s.fetch (p * 32 + u) {}
        { s0 with fetch := if f.dist / 2 < 4 then mdel s.fetch (p * 32 + u) else mset s.fetch (p * 32 + u) { f with dist := f.dist / 2 } }
    match last with
    | [b, c] =>
      let d := (r : Int) - b
      if d == (b : Int) - c && 1 ≤ d.natAbs && d.natAbs ≤ 64 then
        let u := s1.claimUnit p
        (streamRows r d 4,
          { s1 with fetch := mset s1.fetch (p * 32 + u) { handle := h, row := r, stride := d, dist := 4, used := s1.unitStamp p } })
      else ([], s1)
    | _ => ([], s1)

/-- HUB_CORRECTED_WRITEBACK (R201): a block that the code corrects is written back; one changed since reads good and stays. -/
def execHubCorrectedWriteback (p : Fin 64) (block : Nat) (s : State) : Out :=
  match s.blockSt p block with
  | .corrected _ _ => .next (s.pokeStack p (64 * block) (s.blockBytes p block))
  | _ => .next s

end Sys2Proof.Machine
end

