-- ==== Sys2Proof/Machine/Tables.lean ====
section
/-! DEFINITION. Tables: descriptors, directories, mirrored segments, the operations of `PCK_TBL_CMD`, table writes and reads, scrub (R204 to
R210, R226 to R231). -/

namespace Sys2Proof.Machine

/-- A descriptor from its 64 bytes as a number (R204). -/
def descOf (v : Nat) : TableDesc where
  handle := bitsAt v 0 16
  fmt := bitsAt v 16 4
  mirror := v.testBit 24
  cclass := bitsAt v 25 2
  fetchDis := v.testBit 27
  elems := bitsAt v 32 16
  rowStride := bitsAt v 48 8
  mirrorDist := bitsAt v 56 8
  homeMask := bitsAt v 64 64
  rowsPerPack := bitsAt v 128 32
  totalRows := bitsAt v 160 32
  segBase := bitsAt v 192 64
  cbOff := bitsAt v 256 32
  segUnits := bitsAt v 288 32
  mirrorBase := bitsAt v 320 64
  reserved := bitsAt v 20 4 + bitsAt v 28 4 + bitsAt v 384 128

namespace Table

def homes (d : TableDesc) : List Nat := maskList d.homeMask 64
def mirrorOf (d : TableDesc) (p : Nat) : Nat := (p + d.mirrorDist) % 64
/-- Hubs that hold the table's descriptor. -/
def hubs (d : TableDesc) : List Nat :=
  (List.range 64).filter (fun p => (homes d).contains p || (d.mirror && (homes d).any (fun h => mirrorOf d h == p)))
def isCb (d : TableDesc) : Bool := d.fmt == 10 || d.fmt == 11
/-- Width of a stored element. -/
def bits (d : TableDesc) : Nat := if d.fmt = 10 then 8 else if d.fmt = 11 then 4 else fmtWidth d.fmt
def rowBytes (d : TableDesc) : Nat := d.elems * bits d / 8
def rowArea (d : TableDesc) : Nat := d.rowsPerPack * d.rowStride * 64
/-- Bytes of the codebook area (R211). -/
def cbArea (d : TableDesc) : Nat :=
  if d.fmt = 10 then ceilDiv d.rowsPerPack 65536 * 512 else if d.fmt = 11 then ceilDiv d.rowsPerPack 64 * 32 else 0
def extent (d : TableDesc) : Nat := d.segUnits * 64

/-- Ranges and consistency of R204, R205 and R211. -/
def fieldsOk (d : TableDesc) : Bool :=
  d.handle != 0xFFFF && [1, 2, 3, 4, 5, 8, 10, 11].contains d.fmt && d.reserved == 0 && d.cclass != 3 &&
  between d.elems 8 1024 && mult d.elems 8 && between d.rowStride 1 64 && decide (rowBytes d ≤ d.rowStride * 64) &&
  (!d.mirror || between d.mirrorDist 1 63) && d.homeMask != 0 && decide (1 ≤ d.rowsPerPack) &&
  decide (d.totalRows ≤ d.rowsPerPack * (homes d).length) && mult d.segBase 64 && decide (d.segBase < 2 ^ 36) && mult d.cbOff 64 &&
  (isCb d || d.cbOff == 0) && (!isCb d || decide (rowArea d ≤ d.cbOff)) && mult d.mirrorBase 64 && decide (d.mirrorBase < 2 ^ 36) &&
  decide (max (rowArea d) (if isCb d then d.cbOff + cbArea d else 0) ≤ extent d)

/-- Stack ranges that a table takes: pack, first byte, one past the last. -/
def spans (d : TableDesc) : List (Nat × Nat × Nat) :=
  (homes d).map (fun p => (p, d.segBase, d.segBase + extent d)) ++
  (if d.mirror then (homes d).map (fun p => (mirrorOf d p, d.mirrorBase, d.mirrorBase + extent d)) else [])

def overlap (x y : Nat × Nat × Nat) : Bool := x.1 == y.1 && decide (x.2.1 < y.2.2) && decide (y.2.1 < x.2.2)

/-- Two entries of a list overlap. -/
def selfOverlap : List (Nat × Nat × Nat) → Bool
  | [] => false
  | x :: t => t.any (overlap x) || selfOverlap t

end Table

/-! ### States of stacks and segments -/

def State.stackState (s : State) (p : Nat) : Nat := s.rd F.hubState_stackState p
/-- The stack can be read and written. -/
def State.stackLive (s : State) (p : Nat) : Bool := s.packFitted p && (s.stackState p == 1 || s.stackState p == 2)

def segKey (h p : Nat) : Nat := h * 64 + p
def State.seg (s : State) (h p : Nat) : Seg := mget s.segs (segKey h p) {}
def State.updSeg (s : State) (h p : Nat) (f : Seg → Seg) : State := { s with segs := mput s.segs (segKey h p) {} (f (s.seg h p)) }

/-- Mirrored segments homed in a pack: handle and descriptor. -/
def State.mirrored (s : State) (p : Nat) : List (Nat × TableDesc) :=
  s.tables.filter (fun t => t.2.mirror && (Table.homes t.2).contains p)

/-- Mirrored segments whose copy pack `q` holds: handle, home pack, descriptor. -/
def State.copiesIn (s : State) (q : Nat) : List (Nat × Nat × TableDesc) :=
  s.tables.flatMap (fun t => if t.2.mirror then ((Table.homes t.2).filter (fun p => Table.mirrorOf t.2 p == q)).map (fun p => (t.1, p, t.2)) else [])

/-- The segment is served by its mirror pack (R227). -/
def Seg.away (x : Seg) : Bool := x.promoted || x.resyncing

/-- Hub that serves home pack `p` of a table, with the base of the copy it reads (R207). -/
def State.servedAt (s : State) (d : TableDesc) (p : Nat) : Nat × Nat :=
  if (s.seg d.handle p).away then (Table.mirrorOf d p, d.mirrorBase) else (p, d.segBase)

/-- Serving mask of a table (R207). -/
def State.servingMask (s : State) (d : TableDesc) : Nat := listMask ((Table.homes d).map (fun p => (s.servedAt d p).1))

/-- The descriptor of a handle at a hub. -/
def State.dirAt (s : State) (p h : Nat) : Option TableDesc := mfind s.dir (p * 65536 + h)

/-- A hub that answers nothing: dark, not fitted, fenced, in reset, or cut off (R219, R473, R510). -/
def State.hubGone (s : State) (p : Nat) : Bool :=
  !s.packFitted p || s.packDark p || s.faults.hubFenced.contains p || s.packInReset p || s.siteDead (packSite p 2)

/-- Hub `p` has its accesses to the stack of hub `q` answered: both stacks live, both hubs answering, a route between them (R195, R226). -/
def State.hubServes (s : State) (p q : Nat) : Bool :=
  s.stackLive q && !s.hubGone q && (p == q || s.connected (packSite p 2) (packSite q 2))

/-- A stack block lies in a segment that starts at `base`. -/
def Table.holds (d : TableDesc) (base b : Nat) : Bool := decide (base ≤ 64 * b) && decide (64 * b < base + Table.extent d)

/-- Other copy of a stack block of a served segment, where R219 allows it. -/
def State.altOf (s : State) (d : TableDesc) (p b : Nat) : Option (Nat × Nat) :=
  let x := s.seg d.handle p
  let q := Table.mirrorOf d p
  if d.mirror && !x.away && !x.unmirrored && s.on F.hubCfg_mirrorReadEn p && Table.holds d d.segBase b && s.hubServes p q
  then some (q, b - d.segBase / 64 + d.mirrorBase / 64) else none

/-- `PROMOTED` counts the segments promoted at a hub. -/
def State.syncPromoted (s : State) (q : Nat) : State :=
  s.wr F.hubState_promoted q (((s.copiesIn q).filter (fun t => (s.seg t.1 t.2.1).away)).length)

/-- Promote a segment. -/
def State.promoteSeg (s : State) (h p : Nat) (d : TableDesc) : State :=
  (s.updSeg h p (fun x => { x with promoted := true, resynced := false })).syncPromoted (Table.mirrorOf d p)

/-- A normal mirrored segment whose copy can serve. -/
def State.canPromote (s : State) (h p : Nat) (d : TableDesc) : Bool :=
  let x := s.seg h p
  !x.away && !x.unmirrored && s.stackLive (Table.mirrorOf d p)

/-! ### `PCK_TBL_CMD` (R208 to R210) -/

def State.tblStatus (s : State) (st : Nat) : State := (s.wr F.pckTblCmd_status 0 st).wr F.pckTblCmd_go 0 0

/-- The staged descriptor. -/
def State.stagedDesc (s : State) : TableDesc :=
  descOf ((List.range 8).foldl (fun v n => v + s.rd F.pckTblDesc_desc n * 2 ^ (64 * n)) 0)

/-- A gather in progress: its reserve has reached the first hub (R210). -/
def Gather.inProgress (g : Gather) : Bool := g.entered

/-- Start a change that takes effect once the gathers in progress on the handles concerned have finished. -/
def State.startChange (s : State) (op pack : Nat) (d : TableDesc) (handles : List Nat) : State :=
  let before := (s.gathers.filter (fun g => handles.contains g.2.table && g.2.inProgress)).map (·.1)
  { s.wr F.pckTblCmd_go 0 1 with tblCmd := some { op := op, pack := pack, desc := d, before := before } }

/-- Handles whose table concerns a pack. -/
def State.handlesOf (s : State) (p : Nat) : List Nat := (s.tables.filter (fun t => (Table.hubs t.2).contains p)).map (·.1)

/-- Descriptors of other handles in a hub's directory. -/
def State.dirCount (s : State) (p h : Nat) : Nat := (s.dir.filter (fun x => x.1 / 65536 == p && x.1 % 65536 != h)).length

/-- What R209 refuses of an install. A directory with no room for a descriptor refuses it (R193, log entry 91). -/
def State.installStatus (s : State) (d : TableDesc) : Nat :=
  let sp := Table.spans d
  let others := (s.tables.filter (fun t => t.1 != d.handle)).flatMap (fun t => Table.spans t.2)
  if !Table.fieldsOk d then 1
  else if (Table.hubs d).any (fun p => !s.packFitted p || s.packDark p) then 2
  else if sp.any (fun x => decide (2 ^ 36 < x.2.2) || others.any (Table.overlap x)) || Table.selfOverlap sp then 3
  else if (Table.hubs d).any (fun p => decide (1024 ≤ s.dirCount p d.handle)) then 5
  else 0

/-- A write to `PCK_TBL_CMD` with `GO` set: while an operation is under way, it changes nothing. -/
def State.tblCommand (s : State) (op p : Nat) (k : State → State) : State :=
  if s.tblCmd.isSome then s else k ((s.wr F.pckTblCmd_op 0 op).wr F.pckTblCmd_pack 0 p)

/-- `OP` 0 (R210). -/
def State.tblInstall (s : State) : State :=
  let d := s.stagedDesc
  let st := s.installStatus d
  if st != 0 then s.tblStatus st else s.startChange 0 0 d [d.handle]

/-- `OP` 1 (R210). -/
def State.tblRemove (s : State) : State :=
  let d := s.stagedDesc
  if (mfind s.tables d.handle).isNone then s.tblStatus 4 else s.startChange 1 0 d [d.handle]

/-- `OP` 2 (R228). -/
def State.tblPromote (s : State) (p : Nat) : State :=
  let l := s.mirrored p
  if l == [] then s.tblStatus 4
  else if s.stackState p != 3 || l.any (fun t => !(s.seg t.1 p).away && !s.canPromote t.1 p t.2) then s.tblStatus 5
  else s.startChange 2 p {} (s.handlesOf p)

/-- Segments that a resync of `p` brings home, and copies in `p` that it rebuilds (R230). -/
def State.resyncHomes (s : State) (p : Nat) : List (Nat × TableDesc) :=
  (s.mirrored p).filter (fun t => !(s.seg t.1 p).unmirrored && s.stackLive (Table.mirrorOf t.2 p))
def State.resyncCopies (s : State) (p : Nat) : List (Nat × Nat × TableDesc) :=
  (s.copiesIn p).filter (fun t => (s.seg t.1 t.2.1).unmirrored && !(s.seg t.1 t.2.1).away && s.stackLive t.2.1)

/-- `OP` 3 (R230). -/
def State.tblResync (s : State) (p : Nat) : State :=
  if !s.packFitted p || s.packDark p then s.tblStatus 2
  else if s.mirrored p == [] && !(s.copiesIn p).any (fun t => (s.seg t.1 t.2.1).unmirrored) then s.tblStatus 4
  else if !s.stackLive p then s.tblStatus 5
  else
    let homes := s.resyncHomes p
    let copies := s.resyncCopies p
    let s1 := s.each homes (fun s t => s.updSeg t.1 p (fun x => { x with promoted := true, was := x.promoted, resyncing := true, resynced := false }))
    let s2 := s1.each copies (fun s t => s.updSeg t.1 t.2.1 (fun x => { x with rebuilding := true }))
    let s3 := s2.each homes (fun s t => s.syncPromoted (Table.mirrorOf t.2 p))
    { ((s3.wr F.hubState_resyncBusy p 1).wr F.pckTblCmd_go 0 1) with resync := some p, tblCmd := some { op := 3, pack := p } }

/-- `OP` 4 (R230). -/
def State.tblDemote (s : State) (p : Nat) : State :=
  let l := s.mirrored p
  if l == [] then s.tblStatus 4
  else if !l.any (fun t => (s.seg t.1 p).resynced) then s.tblStatus 5
  else s.startChange 4 p {} (s.handlesOf p)

/-- `OP` 5 (R229). -/
def State.tblDeclare (s : State) (p : Nat) : State := if !s.stackLive p then s.tblStatus 5 else s.startChange 5 p {} (s.handlesOf p)

/-- `OP` 6 (R229). -/
def State.tblReturn (s : State) (p : Nat) : State := if s.stackState p != 3 then s.tblStatus 5 else s.startChange 6 p {} (s.handlesOf p)

/-- TABLE_INSTALL (R210). -/
def execTableInstall (port : Fin 2) (s : State) : Out := s.bar port .unit (fun s => s.tblCommand 0 (s.rd F.pckTblCmd_pack) State.tblInstall)

/-- TABLE_REMOVE (R210). -/
def execTableRemove (port : Fin 2) (s : State) : Out := s.bar port .unit (fun s => s.tblCommand 1 (s.rd F.pckTblCmd_pack) State.tblRemove)

/-- TABLE_PROMOTE (R228). -/
def execTablePromote (port : Fin 2) (p : Fin 64) (s : State) : Out := s.bar port .unit (fun s => s.tblCommand 2 p (fun s => s.tblPromote p))

/-- TABLE_RESYNC (R230). -/
def execTableResync (port : Fin 2) (p : Fin 64) (s : State) : Out := s.bar port .unit (fun s => s.tblCommand 3 p (fun s => s.tblResync p))

/-- TABLE_DEMOTE (R230). -/
def execTableDemote (port : Fin 2) (p : Fin 64) (s : State) : Out := s.bar port .unit (fun s => s.tblCommand 4 p (fun s => s.tblDemote p))

/-- STACK_DECLARE_FAILED (R229). -/
def execStackDeclareFailed (port : Fin 2) (p : Fin 64) (s : State) : Out :=
  s.bar port .unit (fun s => s.tblCommand 5 p (fun s => s.tblDeclare p))

/-- STACK_RETURN (R229). -/
def execStackReturn (port : Fin 2) (p : Fin 64) (s : State) : Out := s.bar port .unit (fun s => s.tblCommand 6 p (fun s => s.tblReturn p))

/-- Put a descriptor into the directories of its hubs, or take it out. -/
def State.dirSet (s : State) (d : TableDesc) : State :=
  { s with dir := (Table.hubs d).foldl (fun m p => mset m (p * 65536 + d.handle) d) s.dir, tables := mset s.tables d.handle d }
def State.dirDel (s : State) (h : Nat) : State :=
  let hubs := match mfind s.tables h with
    | some d => Table.hubs d
    | none => []
  { s with dir := s.dir.filter (fun x => x.1 % 65536 != h), tables := mdel s.tables h,
           segs := s.segs.filter (fun x => x.1 / 64 != h) }.each hubs State.syncPromoted

/-- The stack of a pack starts again: zeroed, cache empty, its copies unmirrored; the directory keeps the mirrored tables that name the
pack, but for those in `lost` (R199, R229). -/
def State.restartStack (s : State) (p : Nat) (lost : List Nat) : State :=
  let s1 := ((s.zeroStack p).clearCache p).wr F.hubState_stackState p 0
  let keep := s1.tables.filter (fun t => t.2.mirror && (Table.hubs t.2).contains p && !lost.contains t.1)
  let s2 := { s1 with dir := keep.foldl (fun m (t : Nat × TableDesc) => mset m (p * 65536 + t.1) t.2) (s1.dir.filter (fun x => x.1 / 65536 != p)) }
  let s3 := s2.each (s2.mirrored p) (fun s t => s.updSeg t.1 p (fun x => { x with resynced := false, behind := false }))
  s3.each (s3.copiesIn p) (fun s t => s.updSeg t.1 t.2.1 (fun x => { x with unmirrored := true, rebuilding := false }))

/-- What takes effect at every hub as one event (R210, R228 to R230). -/
def State.applyChange (s : State) (c : TblCmd) : State :=
  match c.op with
  | 0 => (((s.dirDel c.desc.handle).dirSet c.desc).tblStatus 0)
  | 1 => ((s.dirDel c.desc.handle).tblStatus 0)
  | 2 => (s.each (s.mirrored c.pack) (fun s t => if (s.seg t.1 c.pack).away then s else s.promoteSeg t.1 c.pack t.2)).tblStatus 0
  | 4 => (s.each (s.mirrored c.pack) (fun s t => if (s.seg t.1 c.pack).resynced then
      (s.updSeg t.1 c.pack (fun _ => {})).syncPromoted (Table.mirrorOf t.2 c.pack) else s)).tblStatus 0
  | 5 => ((s.wr F.hubState_stackState c.pack 3).clearCache c.pack).tblStatus 0
  | 6 =>
    let lost := ((s.mirrored c.pack).filter (fun t => !(s.seg t.1 c.pack).away && !s.canPromote t.1 c.pack t.2)).map (·.1)
    let s1 := s.each (s.mirrored c.pack) (fun s t => if s.canPromote t.1 c.pack t.2 then s.promoteSeg t.1 c.pack t.2
      else if (s.seg t.1 c.pack).away then s else s.updSeg t.1 c.pack (fun x => { x with lost := true }))
    s1.restartStack c.pack lost
  | _ => s

/-- STACK_READY (R199): every block is zero with valid check symbols, and the stack is in service. -/
def execStackReady (p : Fin 64) (s : State) : Out :=
  if s.stackState p != 0 || s.packDark p || !s.packFitted p then .next s
  else
    let s1 := (s.zeroStack p).wr F.hubState_stackState p 1
    .next (match s1.tblCmd with
      | some c => if c.op = 6 && c.pack = p && c.effected then { (s1.tblStatus 0) with tblCmd := none } else s1
      | none => s1)

/-- Copy an extent from one stack to another: every block is read and checked, and one that the source cannot supply stays as it is and is
counted (R230). Blocks with nothing to check for move together. -/
def State.copyExtent (s : State) (q qo p po len : Nat) : State :=
  let special :=
    ((s.stackErr.map (·.1) ++ s.odecc.map (·.1)).filterMap (fun k =>
      let o := stackOff (64 * k)
      if k / 1073741824 == q && qo ≤ o && o < qo + len then some ((o - qo) / 64) else none)).eraseDups
  let inside (key pack base : Nat) : Bool :=
    key / 68719476736 == pack && decide (base ≤ stackOff key) && decide (stackOff key < base + len) &&
    !special.contains ((stackOff key - base) / 64)
  let moved := (s.stack.filter (fun c => inside c.1 q qo)).map (fun c => (stackKey p (po + (stackOff c.1 - qo)), c.2))
  let s1 := { s with
    stack := moved.foldl (fun m (c : Host.Cell) => Memory.write m c.1 c.2) (s.stack.filter (fun c => !inside c.1 p po)),
    stackErr := s.stackErr.filter (fun e => !inside (64 * e.1) p po), odecc := s.odecc.filter (fun e => !inside (64 * e.1) p po) }
  (s1.each special (fun s b =>
    let r := s.readBlock q (qo / 64 + b) 3
    match r.1 with
    | some bytes => r.2.pokeStack p (po + 64 * b) bytes
    | none => (r.2.cnt F.hubErrCnt2_mirrorLost p).penalize (576 + p) 16384)).cacheWrite p po len

/-- RESYNC_COMPLETE (R230). A segment whose mirror cannot be read keeps the state it had before. -/
def execResyncComplete (s : State) : Out :=
  match s.resync with
  | none => .next s
  | some p =>
    let lost0 := s.rd F.hubErrCnt2_mirrorLost p
    let homes := (s.mirrored p).filter (fun t => (s.seg t.1 p).resyncing)
    let copies := (s.copiesIn p).filter (fun t => (s.seg t.1 t.2.1).rebuilding)
    let s1 := s.each homes (fun s t =>
      let q := Table.mirrorOf t.2 p
      if s.hubServes p q then
        (s.copyExtent q t.2.mirrorBase p t.2.segBase (Table.extent t.2)).updSeg t.1 p
          (fun x => { x with promoted := true, resyncing := false, resynced := true, behind := false })
      else (s.updSeg t.1 p (fun x => { x with promoted := x.was, resyncing := false })).syncPromoted q)
    let s2 := s1.each copies (fun s t =>
      if s.hubServes p t.2.1 && !(s.seg t.1 t.2.1).away then
        (s.copyExtent t.2.1 t.2.2.segBase p t.2.2.mirrorBase (Table.extent t.2.2)).updSeg t.1 t.2.1
          (fun x => { x with unmirrored := false, rebuilding := false })
      else s.updSeg t.1 t.2.1 (fun x => { x with rebuilding := false }))
    let st := if s2.rd F.hubErrCnt2_mirrorLost p = lost0 then 0 else 6
    .next { ((s2.wr F.hubState_resyncBusy p 0).tblStatus st) with resync := none, tblCmd := none }

/-! ### Table writes and reads (R226, R219) -/

/-- What a table descriptor's access meets. -/
inductive TblRes where | ok | address | unreachable | degraded | data
  deriving DecidableEq, Repr

/-- Pack `p` is no home of the table, or the range leaves the extent. -/
def State.tblRangeBad (s : State) (h p off len : Nat) : Bool :=
  match mfind s.tables h with
  | none => true
  | some d => !(Table.homes d).contains p || decide (Table.extent d < off + len)

/-- Stacks that a write goes to, and whether the mirror is degraded. -/
def State.writeTargets (s : State) (d : TableDesc) (p : Nat) : List (Nat × Nat) × Bool :=
  let x := s.seg d.handle p
  let q := Table.mirrorOf d p
  if !d.mirror then ([(p, d.segBase)], false)
  else if x.resyncing then ((q, d.mirrorBase) :: (if s.stackLive p then [(p, d.segBase)] else []), false)
  else if x.promoted then ([(q, d.mirrorBase)], false)
  else if x.rebuilding then ([(p, d.segBase), (q, d.mirrorBase)], false)
  else if x.unmirrored || !s.hubServes p q || (s.dirAt q d.handle).isNone then ([(p, d.segBase)], true)
  else ([(p, d.segBase), (q, d.mirrorBase)], false)

/-- Write a range of a segment. -/
def State.tblWrite (s : State) (h p off : Nat) (bytes : List Byte) : TblRes × State :=
  match mfind s.tables h with
  | none => (.address, s)
  | some d =>
    if s.tblRangeBad h p off bytes.length then (.address, s)
    else
      let t := s.writeTargets d p
      let first := t.1.headD (p, 0)
      if !s.stackLive first.1 then (.unreachable, s)
      else if (s.dirAt first.1 h).isNone then (.address, s)
      else
        let r := s.writeStack first.1 (first.2 + off) bytes
        let c := t.1.tail.foldl (fun (q : Bool × State) x => let w := q.2.writeStack x.1 (x.2 + off) bytes; (q.1 && w.1, w.2)) (true, r.2)
        -- a mirror that cannot merge a block refuses the write; a copy that is being rebuilt is written again by its rebuild
        let x := s.seg h p
        let short := t.2 || (!c.1 && !x.resyncing && !x.rebuilding)
        let s1 := if short then c.2.updSeg h p (fun x => { x with unmirrored := true })
          else if x.promoted && !x.resyncing then c.2.updSeg h p (fun x => { x with behind := true }) else c.2
        if !r.1 then (.data, s1) else (if short then .degraded else .ok, s1)

/-- Read a range from the serving copy. -/
def State.tblRead (s : State) (h p off len : Nat) : TblRes × List Byte × State :=
  match mfind s.tables h with
  | none => (.address, [], s)
  | some d =>
    if s.tblRangeBad h p off len then (.address, [], s)
    else
      let a := s.servedAt d p
      if !s.stackLive a.1 then (.unreachable, [], s)
      else if (s.dirAt a.1 h).isNone then (.address, [], s)
      else
        let lo := a.2 + off
        let b0 := lo / 64
        let r := (List.range (ceilDiv (lo % 64 + len) 64)).foldl (fun (q : Option (List Byte) × State) j =>
          let x := q.2.readBlockAlt a.1 (b0 + j) 0 (s.altOf d p (b0 + j))
          (match q.1, x.1 with | some u, some v => some (u ++ v) | _, _ => none, x.2)) (some [], s)
        match r.1 with
        | some bytes => (.ok, (bytes.drop (lo % 64)).take len, r.2)
        | none => (.data, [], r.2)

/-! ### Scrub (R231) -/

/-- The other copy of a stack block that lies in a mirrored segment or a mirror copy, where that copy holds the segment's data. -/
def State.otherCopy (s : State) (p b : Nat) : Option (Nat × Nat) :=
  match (s.mirrored p).find? (fun t => Table.holds t.2 t.2.segBase b) with
  | some t => if (s.seg t.1 p).unmirrored then none else some (Table.mirrorOf t.2 p, b - t.2.segBase / 64 + t.2.mirrorBase / 64)
  | none =>
    match (s.copiesIn p).find? (fun t => Table.holds t.2.2 t.2.2.mirrorBase b) with
    | none => none
    | some t =>
      let x := s.seg t.1 t.2.1
      if x.unmirrored || (x.away && (!x.resynced || x.behind)) then none
      else some (t.2.1, b - t.2.2.mirrorBase / 64 + t.2.2.segBase / 64)

/-- HUB_SCRUB (R231): one block of the pass. -/
def execHubScrub (p : Fin 64) (block : Nat) (s : State) : Out :=
  if !s.on F.hubCfg_scrubEn p || !s.stackLive p || 1073741824 ≤ block then .next s
  else
    let r := s.checkedBlock p block
    match r.1 with
    | some bytes => .next (if s.blockSt p block == .good then r.2 else r.2.pokeStack p (64 * block) bytes)
    | none =>
      let fix : Option (List Byte) × State := match s.otherCopy p block with
        | some (q, c) => if s.hubServes p q then r.2.readBlock q c 1 else (none, r.2)
        | none => (none, r.2)
      match fix.1 with
      | some bytes => .next ((fix.2.cnt F.hubErrCnt_mirrorFix p).pokeStack p (64 * block) bytes)
      | none => .next ((fix.2.hubLog p block 1).bark 0x0006 { kind := .pack, num := p } [(24, 64 * block), (32, 1)])

end Sys2Proof.Machine
end

