-- ==== Sys2Proof/Machine/Hubs.lean ====
section
/-! DEFINITION. Gathers: reserves, lists, pooling at the hubs, bag partial sums through the fabric, delivery (R131, R132, R213 to R219, R266,
R269). -/

namespace Sys2Proof.Machine

def State.gather (s : State) (g : Nat) : Gather := mget s.gathers g {}
def State.updGather (s : State) (g : Nat) (f : Gather → Gather) : State := { s with gathers := mput s.gathers g {} (f (s.gather g)) }

/-- A hub that cannot serve a GATHER (R132, R215). -/
def State.hubOut (s : State) (p : Nat) : Bool := !s.packFitted p || s.packDark p || !s.stackLive p

/-- Tags of a gather: the home packs of its table (R217). -/
def State.tagsOf (s : State) (g : Gather) : List Nat :=
  match mfind s.tables g.table with
  | some d => Table.homes d
  | none => maskList g.packs 64

/-- Hub that serves a tag. -/
def State.tagHub (s : State) (g : Gather) (t : Nat) : Nat :=
  match mfind s.tables g.table with
  | some d => (s.servedAt d t).1
  | none => t

/-- Highest level whose node tag `t` leads, of the six over the 64 tags. -/
def tagTop (tags : List Nat) (t : Nat) : Nat :=
  (List.range 7).foldl (fun m k => if tags.any (fun x => decide (t / 2 ^ k * 2 ^ k ≤ x) && decide (x < t)) then m else k) 0

/-- Right sibling of `t`'s node at level `k`, where it has tags. -/
def tagSibling (tags : List Nat) (t k : Nat) : Option Nat :=
  if t / 2 ^ k % 2 = 0 && tags.any (fun x => x / 2 ^ k == t / 2 ^ k + 1) then some ((t / 2 ^ k + 1) * 2 ^ k) else none

/-- Combining storage that a hub reserves for a gather (R269). -/
def State.hubBytes (s : State) (p : Nat) (g : Gather) : Nat :=
  let tags := s.tagsOf g
  let levels := ((tags.filter (fun t => s.tagHub g t == p)).map (fun t =>
    ((List.range (tagTop tags t)).filter (fun k => (tagSibling tags t k).isSome)).length)).sum
  let elems := match mfind s.tables g.table with | some d => d.elems | none => 0
  4 * levels * elems * 4

/-- A change of a table's handle is pending and has not taken effect. -/
def State.tblPending (s : State) (h : Nat) : Bool :=
  match s.tblCmd with
  | none => false
  | some c => c.op != 3 && !c.effected && (if c.op ≤ 1 then c.desc.handle == h else (s.handlesOf c.pack).contains h)

/-- A change of the table is pending and this gather is not one that it waits for (R210). -/
def State.tblHeld (s : State) (gid : Nat) : Bool :=
  match s.tblCmd with
  | none => false
  | some c => !c.before.contains gid && s.tblPending (s.gather gid).table

/-- The reserve of a gather on its way to hub `p`. -/
def Gather.reserve (g : Gather) (gid p : Nat) : Packet :=
  { body := .gatherReserve gid (popCount (g.packs % 2 ^ p) 64) g.packs, src := .tile g.array, dst := .hub p, rtag := g.rtag }

/-- The reserve moves from hub `p` to the next hub of the walk; the last hub acknowledges it. -/
def State.passReserve (s : State) (p gid : Nat) : State :=
  let g := s.gather gid
  match (maskList g.packs 64).find? (fun x => decide (p < x)) with
  | some x => s.relay (.hub p) (g.reserve gid x)
  | none => s.send (replyTo (g.reserve gid p) (.ack 1 0 0) 0)

/-- A hub takes a reserve, or says that it cannot yet. -/
def State.tryReserve (s : State) (p gid : Nat) : Option State :=
  let g := s.gather gid
  let need := s.hubBytes p g
  if s.tblHeld gid || (need != 0 && 4194304 < mget s.hubUsed p 0 + need) then none
  else
    let s1 := { s with hubUsed := mput s.hubUsed p 0 (mget s.hubUsed p 0 + need) }
    some ((s1.updGather gid (fun g => { g with reserved := setBit g.reserved p true })).passReserve p gid)

/-- Reserves waiting at a hub go on in order while they can; one that a table change holds lets the others pass. -/
def State.retryHub (s : State) (p : Nat) : Nat → State
  | 0 => s
  | fuel + 1 =>
    let live := (mget s.hubWait p []).filter (fun g => (mfind s.gathers g).isSome)
    match live.find? (fun g => !s.tblHeld g) with
    | none => s
    | some g =>
      match s.tryReserve p g with
      | none => s
      | some s1 => ({ s1 with hubWait := mput s1.hubWait p [] (live.erase g) }).retryHub p fuel

/-- GATHER, started: the reserve sets out for the first hub (R132, R269). -/
def runGather (s : State) (a n : Nat) (r : Record) : RX State := do
  let packs := Rf r 40 0 64
  let d := gaddrOf (Rf r 20 0 64)
  if packs = 0 then .error (0x02, s) else
  if (maskList packs 64).any s.hubOut then .error (0x08, s) else
  if s.arrVacant d.array then .error (0x09, s) else
  needOwn s a (Rf r 8 0 26) (Rf r 8 0 26 + 8 * Rf r 12 0 32)
  let gid := s.nextGather
  let tag := s.nextTag
  let g : Gather := { array := a, flight := n, table := Rf r 16 0 16, nbags := Rf r 18 0 16, pool := Rf r 34 0 8, ccw := Rf r 32 0 16,
                      seed := Rf r 36 0 32, packs := packs, dst := d, dstStride := Rf r 28 0 32, rtag := tag }
  let s := { s with gathers := mset s.gathers gid g, nextGather := gid + 1 }
  let s := s.request { src := .tile a, array := a, flight := n }
    { body := .gatherReserve gid 0 packs, dst := .hub ((maskList packs 64).headD 0), src := .tile a }
  .ok (s.updFlight a n (fun f => { f with await := .gather gid }))

/-- A packet reaches its hub. -/
def State.atHub (s : State) (p : Packet) (k : Nat → State → State) : Out :=
  s.arrive p (fun s1 =>
      match p.dst with
      | .hub h =>
        if !classOk p then s1.absorb (packSite h 2) p 6
        else if !s1.packFitted h || s1.packDark h || s1.faults.hubFenced.contains h then s1.absorb (packSite h 2) p 2
        else if s1.packInReset h then s1.absorb (packSite h 2) p 5
        else if p.bad then s1.nack p 3
        else k h s1
      | _ => s1.nack p 6)

/-- GATHER_RESERVE (R269). -/
def execGatherReserve (pkt : Packet) (s : State) : Out :=
  match pkt.body with
  | .gatherReserve gid _ _ =>
    s.atHub pkt (fun p s =>
      if (mfind s.gathers gid).isNone then s.nack pkt 6
      else
        let s1 := s.updGather gid (fun g => { g with entered := true })
        ({ s1 with hubWait := mset s1.hubWait p (mget s1.hubWait p [] ++ [gid]) }).retryHub p 2048)
  | _ => .next s

/-- The issuer sends the list to every hub, in chunks of 4096 bytes, and its source range is free (R149, R269). -/
def State.sendLists (s : State) (gid : Nat) : State :=
  let g := s.gather gid
  match s.flight g.array g.flight with
  | none => s
  | some f =>
    match readOwn s g.array 5 (Rf f.record 8 0 26) (8 * Rf f.record 12 0 32) with
    | .error e => (e.2.finish g.array g.flight).failFlight g.array g.flight e.1
    | .ok (b, s1) =>
      let words := unpackElems 64 (Rf f.record 12 0 32) b
      let s2 := s1.updGather gid (fun g => { g with list := words.map (fun w => (bitsAt w 0 32, bitsAt w 32 16, bitsAt w 48 16)) })
      let s3 := s2.each (maskList g.packs 64) (fun s p =>
        (List.range (ceilDiv b.length 4096)).foldl (fun s c =>
          s.request { src := .tile g.array, array := g.array, flight := g.flight }
            { body := .gatherList gid c, dst := .hub p, src := .tile g.array, payload := (b.drop (4096 * c)).take 4096 }) s)
      s3.updFlight g.array g.flight (fun f => { f with reads := [] })

/-- Entries that are no hints, with their bags: for `POOL` 0 each is its own bag (R214). -/
def Gather.entries (g : Gather) : List (Nat × Nat × Nat) :=
  let l := g.list.filter (fun e => e.2.1 != 0xFFFF)
  if g.pool = 0 then (List.range l.length).map (fun i => let e := l.getD i (0, 0, 0); (e.1, i, e.2.2)) else l

/-- The first status that the checks of R215 find at a hub, 0 for none. -/
def State.hubStatus (s : State) (p : Nat) (g : Gather) : Nat :=
  if (maskList g.packs 64).any s.hubOut then 0x08
  else match s.dirAt p g.table with
    | none => 0x04
    | some d =>
      let es := g.entries
      if s.servingMask d != g.packs then 0x02
      else if es.any (fun e => decide (d.totalRows ≤ e.1)) then 0x04
      else if (if g.pool = 0 then g.nbags != es.length else es.any (fun e => decide (g.nbags ≤ e.2.1))) then 0x02
      else match ccwOf g.ccw with
        | none => 0x03
        | some c =>
          if !([1, 2, 3, 4, 5, 8].contains c.fmt) then 0x03
          else if !mult g.dstStride 8 || decide (g.dstStride < d.elems * fmtWidth c.fmt / 8) then 0x02
          else 0

/-- Bytes that a stored row takes, and its place for home pack `p`. -/
def State.rowAt (s : State) (d : TableDesc) (p r : Nat) : Nat := (s.servedAt d p).2 + r % d.rowsPerPack * d.rowStride * 64

/-- Home pack of a row (R205). -/
def rowHome (d : TableDesc) (r : Nat) : Nat := (Table.homes d).getD (r / d.rowsPerPack) 64

def fillOf (d : TableDesc) : FillKind := if d.cclass = 1 then .low else if d.cclass = 2 then .none else .normal

/-- A row's elements as FP32 encodings (R212, R216), read through the cache of hub `p`; nothing when no good copy exists. -/
def State.fetchRow (s : State) (p : Nat) (d : TableDesc) (r : Nat) : Option (List Nat) × State :=
  let t := rowHome d r
  let base := s.rowAt d t r
  let alt := s.altOf d t
  let miss := (List.range (ceilDiv (base % 256 + Table.rowBytes d) 256)).any (fun j => (s.cacheFind p (base / 256 + j)).isNone)
  let q := s.cachedRead p base (Table.rowBytes d) (fillOf d) alt
  let s1 :=
    if miss && !d.fetchDis && s.on F.hubCfg_fetchEn p then
      let tr := q.2.train p d.handle r
      tr.1.foldl (fun s (x : Int) =>
        if x < 0 || (d.totalRows : Int) ≤ x || rowHome d x.toNat != t then s
        else s.prefetch p (s.rowAt d t x.toNat) (Table.rowBytes d) false) tr.2
    else q.2
  match q.1 with
  | none => (none, s1)
  | some bytes =>
    let raw := unpackElems (Table.bits d) d.elems bytes
    if Table.isCb d then
      let rl := r % d.rowsPerPack
      let cb := (s1.servedAt d t).2 + d.cbOff + (if d.fmt = 10 then rl / 65536 * 512 else rl / 64 * 32)
      let c := s1.cachedRead p cb (if d.fmt = 10 then 512 else 32) .codebook alt
      match c.1 with
      | none => (none, c.2)
      | some cbytes =>
        let ents := unpackElems 16 (cbytes.length / 2) cbytes
        (some (raw.map (fun i => ents.getD i 0 * 65536)), c.2)
    else (some (raw.map (fun v => (fp32.pack .rne {} 0 (elemVal d.fmt v 127)).1)), s1)

/-- Add a row to a running sum (R216). -/
def poolRow (pool : Nat) (weight : Nat) (sum row : List Nat) : List Nat :=
  (sum.zip row).map (fun p =>
    if pool = 0 then p.2
    else
      let x := fp32.unpack p.2
      let y := if pool = 2 then (FV.mul x (bf16.unpack weight)).1 else x
      (fp32.pack .rne {} 0 (FV.add .rne (fp32.unpack p.1) y).1).1)

/-- Fetch a hint's rows that the hub serves; the least recently used fetch unit is taken for it (R214, R224). -/
def State.runHint (s : State) (p : Nat) (d : TableDesc) (row n : Nat) : State :=
  if s.on F.hubCfg_hintDis p || n = 0 then s
  else
    let s1 := { s with fetch := mdel s.fetch (p * 32 + s.claimUnit p) }
    (List.range n).foldl (fun s i =>
      let r := row + i
      if d.totalRows ≤ r || (s.servedAt d (rowHome d r)).1 != p then s
      else s.prefetch p (s.rowAt d (rowHome d r) r) (Table.rowBytes d) true) s1

/-- A hub pools the rows it serves: one partial sum for each tag and bag, or the status that stops it (R216, R219). -/
def State.poolHub (s : State) (p : Nat) (gid : Nat) (d : TableDesc) : State :=
  let g := s.gather gid
  let s0 := s.each (g.list.filter (fun e => e.2.1 == 0xFFFF)) (fun s e => s.runHint p d e.1 e.2.2)
  let tags := (Table.homes d).filter (fun t => (s.servedAt d t).1 == p)
  let zero := List.replicate d.elems 0
  let r := g.entries.foldl (fun (q : Bool × NMap (Nat × List Nat) × State) e =>
    let t := rowHome d e.1
    if !q.1 || !tags.contains t then q
    else
      let x := q.2.2.fetchRow p d e.1
      match x.1 with
      | none => (false, q.2.1, x.2)
      | some row =>
        let k := t * 65536 + e.2.1
        let old := mget q.2.1 k (0, zero)
        (true, mset q.2.1 k (old.1 + 1, poolRow g.pool e.2.2 old.2 row), x.2)) (true, [], s0)
  if !r.1 then r.2.2.updGather gid (fun g => { g with failed := g.failed ++ [(p, 0x06)] })
  else
    let parts := tags.flatMap (fun t => (List.range g.nbags).map (fun b =>
      let v := mget r.2.1 (t * 65536 + b) (0, zero)
      ({ tag := t, own := true, bag := b, count := v.1, vals := v.2 } : Part)))
    r.2.2.updGather gid (fun g => { g with parts := g.parts ++ parts, pooled := g.pooled ++ [p] })

/-- Left value with right value (R266). Without pooling, a sum of no row is no contribution. -/
def bagCombine (pool : Nat) (l r : Nat × List Nat) : Nat × List Nat :=
  if pool = 0 then (l.1 + r.1, if l.1 = 0 then r.2 else l.2)
  else (l.1 + r.1, (l.2.zip r.2).map (fun p => (fp32.pack .rne {} 0 (FV.add .rne (fp32.unpack p.1) (fp32.unpack p.2)).1).1))

/-- Value of the node of level `k` that tag `t` leads, for a bag, when its parts are there. -/
def bagNode (g : Gather) (tags : List Nat) (t b : Nat) : Nat → Option (Nat × List Nat)
  | 0 => (g.parts.find? (fun x => x.own && x.tag == t && x.bag == b)).map (fun x => (x.count, x.vals))
  | k + 1 =>
    match bagNode g tags t b k with
    | none => none
    | some v =>
      match tagSibling tags t k with
      | none => some v
      | some lo => (g.parts.find? (fun x => !x.own && x.tag == lo && x.bag == b)).map (fun x => bagCombine g.pool v (x.count, x.vals))

/-- Leader of the node above tag `t`'s highest. -/
def tagAbove (tags : List Nat) (t : Nat) : Option Nat :=
  let k := tagTop tags t + 1
  tags.find? (fun x => x / 2 ^ k == t / 2 ^ k)

/-- Ranges whose parts a node value of tag `t` takes in: the right siblings below it. -/
def bagUsed (tags : List Nat) (t : Nat) : List Nat := (List.range (tagTop tags t)).filterMap (tagSibling tags t)

/-- A bag credit returns to the node that tag `c` leads. -/
def Gather.credit (g : Gather) (c n : Nat) : Gather := { g with credits := mset g.credits c (mget g.credits c 4 + n) }

/-- Node values of tag `t` go up in rising bag number: to the leader above while the node holds a credit, or as the bag's final value to `DST`
(R217, R267, R269). The parts that went into a value return one credit each to the nodes that sent them. -/
def State.sendBag (s : State) (gid t b : Nat) (v : Nat × List Nat) : State :=
  let g := s.gather gid
  let tags := s.tagsOf g
  let k := tagTop tags t
  let lo := t / 2 ^ k * 2 ^ k
  let me := s.tagHub g t
  let body : PktBody := .bagPart gid b lo (lo + 2 ^ k) v.1
  let s1 := s.updGather gid (fun g => { g with sent := mset g.sent t (b + 1) })
  let s2 :=
    if k = 6 then
      s1.request { src := .hub me, array := g.array, flight := g.flight }
        { body := body, dst := .tile g.dst.array, src := .hub me, off := g.dst.off + b * g.dstStride, ctr := g.dst.ctr,
          ctrEn := g.dst.ctrEn, payload := packElems 32 v.2 }
    else match tagAbove tags t with
      | none => s1
      | some u =>
        let s2 := s1.updGather gid (fun g => { g with credits := mset g.credits t (mget g.credits t 4 - 1) })
        if s.tagHub g u == me then
          s2.updGather gid (fun g => { g with parts := g.parts ++ [({ tag := lo, bag := b, count := v.1, vals := v.2 } : Part)] })
        else s2.send { body := body, noack := true, dst := .hub (s.tagHub g u), src := .hub me, payload := packElems 32 v.2 }
  s2.each (bagUsed tags t) (fun s lo =>
    match tags.find? (fun c => decide (lo ≤ c)) with
    | none => s
    | some c =>
      if s.tagHub g c == me then s.updGather gid (fun g => g.credit c 1)
      else s.send { body := .redCredit gid 1, noack := true, dst := .hub (s.tagHub g c), src := .hub me, rtag := c })

/-- Send up every node value that is ready and may go. -/
def State.pumpBags (s : State) (gid : Nat) : Nat → State
  | 0 => s
  | fuel + 1 =>
    let g := s.gather gid
    let tags := s.tagsOf g
    let ready := tags.filterMap (fun t =>
      let b := mget g.sent t 0
      if g.nbags ≤ b || (tagTop tags t != 6 && mget g.credits t 4 = 0) then none
      else (bagNode g tags t b (tagTop tags t)).map (fun v => (t, b, v)))
    if ready == [] then s else (s.each ready (fun s x => s.sendBag gid x.1 x.2.1 x.2.2)).pumpBags gid fuel

/-- Enough rounds for every bag of every tag. -/
def bagFuel (g : Gather) : Nat := 8 * (g.nbags + 1)

/-- The hubs of a gather give back its storage; waiting reserves and the table change may go on. -/
def State.endGather (s : State) (gid : Nat) : State :=
  let g := s.gather gid
  let s1 := s.each (maskList g.reserved 64) (fun s p =>
    { s with hubUsed := mput s.hubUsed p 0 (mget s.hubUsed p 0 - s.hubBytes p g) })
  let s2 := { s1 with gathers := mdel s1.gathers gid,
                      tblCmd := s1.tblCmd.map (fun (c : TblCmd) => { c with before := c.before.filter (· != gid) }) }
  s2.each (maskList g.packs 64) (fun s p => s.retryHub p 2048)

/-- Complete the gather once every bag is acknowledged, or once every hub has pooled or failed when one failed (R132, R219). -/
def State.checkGather (s : State) (gid : Nat) : State :=
  let g := s.gather gid
  if (mfind s.gathers gid).isNone then s
  else if g.failed != [] then
    if (maskList g.packs 64).all (fun p => g.pooled.contains p || g.failed.any (fun f => f.1 == p)) then
      let low := g.failed.foldl (fun (m : Nat × Nat) f => if f.1 < m.1 then f else m) (64, 0)
      ((s.endGather gid).updFlight g.array g.flight (fun f => { f with await := .nothing, reads := [] })).failFlight g.array g.flight low.2
    else s
  else if g.nbags ≤ g.bagsDone then
    (s.endGather gid).updFlight g.array g.flight (fun f => { f with await := .nothing, reads := [] })
  else s

/-- A hub fails a gather. -/
def State.failGather (s : State) (gid p st : Nat) : State :=
  if (mfind s.gathers gid).isNone then s
  else (s.updGather gid (fun g => { g with failed := g.failed ++ [(p, st)] })).checkGather gid

/-- A pack whose hub served gathers goes dark: they fail with unreachable (R132). -/
def State.darkGathers (s : State) (p : Nat) : State :=
  s.each (s.gathers.map (·.1)) (fun s gid =>
    if (s.gather gid).packs.testBit p then
      (maskList (s.gather gid).packs 64).foldl (fun s q => if (s.gather gid).pooled.contains q then s else s.failGather gid q 0x08)
        (s.updGather gid (fun g => { g with failed := g.failed ++ [(p, 0x08)], pooled := g.pooled.filter (· != p) }))
    else s)

/-- GATHER_LIST (R215, R216): with the last chunk the hub checks the list and pools its rows. -/
def execGatherList (pkt : Packet) (s : State) : Out :=
  match pkt.body with
  | .gatherList gid _ =>
    s.atHub pkt (fun p s =>
      if (mfind s.gathers gid).isNone then s.nack pkt 6
      else
        let s1 := (s.ack pkt).updGather gid (fun g => { g with got := mset g.got p (mget g.got p 0 + 1) })
        let g := s1.gather gid
        if mget g.got p 0 < ceilDiv (8 * g.list.length) 4096 then s1
        else
          let st := s1.hubStatus p g
          if st != 0 then s1.failGather gid p st
          else match s1.dirAt p g.table with
            | none => s1.failGather gid p 0x04
            | some d => ((s1.poolHub p gid d).pumpBags gid (bagFuel g)).checkGather gid)
  | _ => .next s

/-- The random value of element `e` of bag `b` (R218). -/
def bagDraw (seed b e : Nat) : Nat :=
  let v := seed ^^^ ((b * 1024 + e + 1) * 0x9E3779B9 % 2 ^ 32)
  xorshift (if v = 0 then 0x6D2B79F5 else v) % 65536

/-- The final value of a bag, divided for the mean and converted once (R217): its bytes. -/
def bagBytes (g : Gather) (b count : Nat) (vals : List Nat) : List Byte :=
  match ccwOf g.ccw with
  | none => []
  | some c =>
    let v := if g.pool = 3 then vals.map (fun x =>
      if count = 0 then 0 else (fp32.pack .rne {} 0 (FV.div (fp32.unpack x) (.fin false count 0)).1).1) else vals
    packElems (fmtWidth c.fmt) ((List.range v.length).map (fun e =>
      (convertTo c c.md (if c.md = .sr then bagDraw g.seed b e else 0) (fp32.unpack (v.getD e 0))).1))

/-- A range at a tile is being initialised: packets for it wait at the ejection port (R175). -/
def State.initWaits (s : State) (p : Packet) (len : Nat) : Bool := match p.dst with
  | .tile a => !s.arrVacant a && !s.arrFenced a && s.initStalls a p.off (p.off + len)
  | _ => false

/-- A bag credit comes back to the node that its RTAG names (R269, log entry 93). -/
def State.bagCredit (s : State) (gid c n : Nat) : State :=
  if (mfind s.gathers gid).isNone then s
  else ((s.updGather gid (fun g => g.credit c n)).pumpBags gid (bagFuel (s.gather gid))).checkGather gid

/-- BAG_PART (R217): at a hub a partial sum joins its node; at a tile the final value is written as by the issuing array (R173). -/
def execBagPart (pkt : Packet) (s : State) : Out :=
  match pkt.body with
  | .bagPart gid bag lo _ count =>
    match pkt.dst with
    | .hub _ =>
      s.atHub pkt (fun _ s =>
        if (mfind s.gathers gid).isNone then s
        else ((s.updGather gid (fun g => { g with
          parts := g.parts ++ [({ tag := lo, bag := bag, count := count, vals := unpackElems 32 (pkt.payload.length / 4) pkt.payload } : Part)] })).pumpBags
            gid (bagFuel (s.gather gid))).checkGather gid)
    | _ =>
      let bytes := match mfind s.gathers gid with
        | some g => bagBytes g bag count (unpackElems 32 (pkt.payload.length / 4) pkt.payload)
        | none => []
      if s.initWaits pkt bytes.length then .next s
      else s.atTile pkt (fun a s =>
        match mfind s.gathers gid with
        | none => s.nack pkt 6
        | some g =>
          let who : Who := if g.array = a then .own else .array g.array
          let r := s.tryWrite a 6 who pkt.off bytes
          if r.1 = 0 then ((if pkt.ctrEn then r.2.ctrAdd a pkt.ctr 1 else r.2).ack pkt)
          else if r.1 = 1 then (r.2.deny a g.array).nack pkt 1
          else r.2.nack pkt 3)
  | _ => .next s

/-- TABLE_CHANGE_EFFECT (R210): no gather that was in progress remains; the change takes effect everywhere and waiting reserves go on. -/
def execTableChangeEffect (s : State) : Out :=
  match s.tblCmd with
  | none => .next s
  | some c =>
    if c.op = 3 || c.effected || c.before != [] then .next s
    else
      let s1 := s.applyChange c
      let s2 := if c.op = 6 then { s1 with tblCmd := some { c with effected := true } } else { s1 with tblCmd := none }
      .next (s2.each (List.range 64) (fun s p => s.retryHub p 2048))

end Sys2Proof.Machine
end

