-- ==== Sys2Proof/Machine/Reduce.lean ====
section
/-! DEFINITION. In-network reductions: the canonical tree, chunks and credits, the end of a round, fences (R135, R136, R266 to R270). -/

namespace Sys2Proof.Machine

def State.round (s : State) (g : Nat) : RedRound := mget s.rounds g {}
def State.setRound (s : State) (g : Nat) (x : RedRound) : State := { s with rounds := mput s.rounds g {} x }
def State.updRound (s : State) (g : Nat) (f : RedRound → RedRound) : State := s.setRound g (f (s.round g))

/-- Members of a group that no fence has removed from the round, ascending. -/
def State.redAlive (s : State) (g : Nat) : List Nat :=
  (maskList (mget s.redGroups g 0) 512).filter (fun m => !(s.round g).gone.contains m)

/-- Members whose contribution can still reach the result. -/
def State.redLive (s : State) (g : Nat) : List Nat := (s.redAlive g).filter (fun m => !(s.round g).lost.contains m)

/-- The levels at which `m` leads the node of its range: no member of a lower rank is in it (R267). -/
def redTop (alive : List Nat) (m : Nat) : Nat :=
  (List.range 10).foldl (fun t k => if alive.any (fun x => decide (m / 2 ^ k * 2 ^ k ≤ x) && decide (x < m)) then t else k) 0

/-- Leader of the node of level `k` that holds rank `m`. -/
def redLeader (alive : List Nat) (m k : Nat) : Option Nat := alive.find? (fun x => x / 2 ^ k == m / 2 ^ k)

/-- First rank of the right sibling of `m`'s node at level `k`, when `m`'s node is a left child. -/
def redSibling (m k : Nat) : Option Nat := if m / 2 ^ k % 2 = 0 then some ((m / 2 ^ k + 1) * 2 ^ k) else none

/-- One operation of the reduction (R135, R266): 0 FP32 sum, 1 INT32 saturating sum, 2 FP32 maximum. -/
def redCombine (op : Nat) (x y : List Nat) : List Nat :=
  (x.zip y).map (fun p =>
    if op = 1 then toTwos 32 (max (-2147483648) (min 2147483647 (sext 32 p.1 + sext 32 p.2)))
    else if op = 2 then
      let a := fp32.unpack p.1
      let b := fp32.unpack p.2
      if a.isNan || b.isNan then fp32.nanEnc
      else if a.isZero && b.isZero then (if a.neg then p.2 else p.1)
      else if FV.cmp a b < 0 then p.2 else p.1
    else
      let v := FV.add .rne (fp32.unpack p.1) (fp32.unpack p.2)
      (fp32.pack .rne {} 0 v.1).1)

/-- Elements of chunk `c` of a contribution. -/
def redChunk (v : List Nat) (c : Nat) : List Nat := (v.drop (1024 * c)).take 1024

/-- Number of chunks of a member's contribution. -/
def RedRound.chunks (x : RedRound) (m : Nat) : Nat := ceilDiv ((mget x.contrib m []).length) 1024

/-- The value of the highest node that `m` leads, for chunk `c`: nothing while a part is missing; then the value, absent where every
contribution below is lost, with the ranges consumed. -/
def redNode (x : RedRound) (live : List Nat) (m c : Nat) : Nat → Option (Option (List Nat) × List Nat)
  | 0 => if !live.contains m then some (none, []) else
      match mfind x.contrib m with
      | none => none
      | some v => some (some (redChunk v c), [])
  | k + 1 =>
    match redNode x live m c k with
    | none => none
    | some (cur, used) =>
      match redSibling m k with
      | none => some (cur, used)
      | some lo =>
        if !live.any (fun r => r / 2 ^ k * 2 ^ k == lo) then some (cur, used)
        else match x.parts.find? (fun p => p.1 == lo && p.2.2.1 == c) with
          | none => none
          | some p => some (some (match cur with | none => p.2.2.2 | some v => redCombine x.op v p.2.2.2), lo :: used)

/-- A packet of a round between two members' routers. Its RTAG is the round's number, so that one of an earlier round is told apart (log
entry 94). -/
def State.redPacket (s : State) (g from_ toU : Nat) (b : PktBody) (pl : List Byte) : State :=
  s.send { body := b, noack := true, dst := .tile toU, src := .tile from_, payload := pl, rtag := (s.round g).serial }

/-- Every contributor that still stands is told how the round ended, and the round is over (R136, R268). -/
def State.redEnd (s : State) (g from_ counted : Nat) (short mismatch : Bool) : State :=
  let s1 := s.each (s.redAlive g) (fun s m => s.redPacket g from_ m (.redDone g counted short mismatch) [])
  { s1 with rounds := mdel s1.rounds g }

/-- Chunk `c` of the whole range goes to `DST` (R267). -/
def State.redWrite (s : State) (m c : Nat) (v : List Nat) (d : GAddr) (n : Nat) (g : Nat) : State :=
  let r := writeGlobal s m n { d with off := d.off + 4096 * c } .write (packElems 32 v)
  (match r with
    | .ok s1 => s1
    | .error e => e.2.failFlight m n e.1).updFlight m n
      (fun f => { f with await := .reduce g })

/-- One member's router does what it can for its next chunk. -/
def State.redMember (s : State) (g m : Nat) : State :=
  let x := s.round g
  let alive := s.redAlive g
  let live := s.redLive g
  let c := mget x.sent m 0
  if (mfind x.contrib m).isNone || x.chunks m ≤ c || x.differs then s
  else
    let top := redTop alive m
    match redNode x live m c top with
    | none => s
    | some (v, used) =>
      let back (s : State) : State := s.each used (fun s lo =>
        match alive.find? (fun r => decide (lo ≤ r)) with
        | some r => s.redPacket g m r (.redCredit g 1) []
        | none => s)
      let drop (y : RedRound) : RedRound :=
        { y with sent := mset y.sent m (c + 1), parts := y.parts.filter (fun p => !(used.contains p.1 && p.2.2.1 == c)) }
      let rel (s : State) : State := if c + 1 = x.chunks m then s.updFlight m (mget x.flights m 0) (fun f => { f with reads := [] }) else s
      if top = 9 then
        match v, mfind x.params m with
        | some v, some p => back (rel ((s.redWrite m c v p.1 (mget x.flights m 0) g).updRound g drop))
        | _, _ => s
      else if mget x.credits m 0 = 0 then s
      else
        match redLeader alive m (top + 1) with
        | none => s
        | some p =>
          let lo := m / 2 ^ top * 2 ^ top
          let n := (live.filter (fun r => r / 2 ^ top == m / 2 ^ top)).length
          let s1 := match v with
            | none => s
            | some v => s.redPacket g m p (.reducePart g x.op lo (lo + 2 ^ top) c n) (packElems 32 v)
          back (rel (s1.updRound g (fun y => { drop y with credits := mset y.credits m (mget y.credits m 0 - 1) })))

/-- A leader's report of a difference has reached the top leader, and every member that stands has issued, so that each can be told (R136,
R268, log entry 94). -/
def State.redMismatch (s : State) (g : Nat) : Bool :=
  let x := s.round g
  x.differs && (s.redAlive g).all (fun m => (mfind x.params m).isSome)

/-- A leader compares what a child reports with its own (R268). -/
def RedRound.compare (x : RedRound) (leader child : Nat) : RedRound :=
  match mfind x.params leader, mfind x.params child with
  | some p, some q => if p == q then x else { x with differs := true }
  | _, _ => x

/-- Let a round go on: every member does what it can, until nothing moves; then the round ends if it is over. -/
def State.redPump (s : State) (g : Nat) : Nat → State
  | 0 => s
  | fuel + 1 =>
    if (mfind s.rounds g).isNone then s
    else if s.redMismatch g then s.redEnd g ((s.redAlive g).headD 0) 0 false true
    else if s.redLive g == [] then s.redEnd g ((s.redAlive g).headD 0) 0 true false
    else
      let s1 := s.each (s.redAlive g) (fun s m => s.redMember g m)
      if s1.round g == s.round g then
        let x := s1.round g
        match (s1.redAlive g).head? with
        | none => s1
        | some m =>
          let open_ := match s1.flight m (mget x.flights m 0) with
            | some f => f.out != []
            | none => false
          if (mfind x.contrib m).isSome && x.chunks m ≤ mget x.sent m 0 && !open_ then
            let counted := (s1.redLive g).length
            let expect := ((mfind x.params m).map (fun p => p.2.2.2)).getD 0
            s1.redEnd g m counted (decide (counted < expect)) false
          else s1
      else s1.redPump g fuel

/-- Enough rounds of `redPump` for every chunk of every level. -/
def redFuel : Nat := 4096

/-- REDUCE, started: the contribution is read, the router becomes leader of its nodes and grants its children two credits each (R268). -/
def runReduce (s : State) (a n : Nat) (r : Record) : RX State := do
  let g := Rf r 16 0 16
  let len := Rf r 12 0 32
  let d := gaddrOf (Rf r 20 0 64)
  if !(mget s.redGroups g 0).testBit a then .error (0x02, s) else
  if s.arrVacant d.array then .error (0x09, s) else
  let (b, s) ← readOwn s a 5 (Rf r 8 0 26) len
  let s := if (mfind s.rounds g).isSome then s
    else { s.updRound g (fun x => { x with serial := s.nextTag }) with nextTag := s.nextTag + 1 }
  let s := s.updRound g (fun x => { x with
    op := Rf r 18 0 8, contrib := mset x.contrib a (unpackElems 32 (len / 4) b),
    params := mset x.params a (d, Rf r 18 0 8, len, Rf r 28 0 16), flights := mset x.flights a n })
  let alive := s.redAlive g
  let top := redTop alive a
  let s := s.each (List.range top) (fun s k =>
    match redSibling a k with
    | none => s
    | some lo => match alive.find? (fun r => r / 2 ^ k * 2 ^ k == lo) with
      | none => s
      | some r => s.redPacket g a r (.redCredit g 2) [])
  .ok ((s.updFlight a n (fun f => { f with await := .reduce g })).redPump g redFuel)

/-- REDUCE_PART: a chunk reaches the leader of the node above (R266, R268). -/
def execReducePart (pkt : Packet) (s : State) : Out :=
  match pkt.body with
  | .reducePart g _ lo hi c _ =>
    s.atTile pkt (fun a s =>
      if (mfind s.rounds g).isNone || (s.round g).serial != pkt.rtag then s
      else (s.updRound g (fun x => { x.compare a (srcUnit pkt.src) with parts := x.parts ++ [(lo, hi, c, unpackElems 32 (pkt.payload.length / 4) pkt.payload)] })).redPump g
        redFuel)
  | _ => .next s

/-- RED_CREDIT (R268, R269): a member takes credits from the leader above it, of the round under way. -/
def execRedCredit (pkt : Packet) (s : State) : Out :=
  match pkt.body with
  | .redCredit g k =>
    match pkt.dst with
    | .hub _ => s.atHub pkt (fun _ s => s.bagCredit g pkt.rtag k)
    | _ =>
      s.atTile pkt (fun a s =>
        let alive := s.redAlive g
        if (s.round g).serial != pkt.rtag || redLeader alive a (redTop alive a + 1) != some (srcUnit pkt.src) then s
        else (s.updRound g (fun x => { x with credits := mset x.credits a (mget x.credits a 0 + k) })).redPump g redFuel)
  | _ => .next s

/-- RED_DONE: the completion word is written and the REDUCE completes (R135, R136). -/
def execRedDone (pkt : Packet) (s : State) : Out :=
  match pkt.body with
  | .redDone g counted short mismatch =>
    s.atTile pkt (fun a s =>
      match (s.arr a).flights.find? (fun f => f.await == .reduce g) with
      | none => s
      | some f =>
        if (s.round g).serial != pkt.rtag && (mfind (s.round g).contrib a).isSome then s else
        let w := counted + b2n short * 2 ^ 16 + b2n mismatch * 2 ^ 17
        let r := s.tryWrite a 6 .own (Rf f.record 32 0 26) (leBytes 8 w)
        let st := if mismatch then 0x02 else if r.1 = 1 then 0x04 else if r.1 = 3 then 0x06
          else if short && Rf f.record 19 0 1 == 1 then 0x0A else 0
        (r.2.finish a f.n).failFlight a f.n st)
  | _ => .next s

/-- A contributor is fenced (R270): what had been sent toward it is lost with it, the rest goes to the next leader. -/
def State.redFence (s : State) (a : Nat) : State :=
  s.each (s.rounds.map (·.1)) (fun s g =>
    if !(mget s.redGroups g 0).testBit a || (s.round g).gone.contains a then s
    else
      let alive := s.redAlive g
      let x := s.round g
      -- children of `a` that have sent it a chunk: every contribution in their node is lost
      let hit (m : Nat) : Bool := alive.any (fun c =>
        c != a && decide (0 < mget x.sent c 0) && redLeader alive c (redTop alive c + 1) == some a &&
        m / 2 ^ redTop alive c == c / 2 ^ redTop alive c)
      let lost := alive.filter (fun m => m == a || hit m)
      let s1 := s.updRound g (fun x => { x with
        gone := a :: x.gone, lost := x.lost ++ lost,
        parts := x.parts.filter (fun p => !lost.any (fun m => decide (p.1 ≤ m) && decide (m < p.2.1))),
        -- a member whose contribution is lost has sent nothing of what its node still holds
        sent := x.sent.filter (fun e => !lost.contains e.1) })
      -- those below the fenced leader start again at their new one, which grants two credits
      let s2 := s1.each (s1.redAlive g) (fun s m =>
        if redLeader alive m (redTop alive m + 1) == some a then
          let now := s.redAlive g
          let s := s.updRound g (fun y => { y with credits := mdel y.credits m })
          match redLeader now m (redTop now m + 1) with
          | some p => if redTop now m = 9 || (mfind x.contrib p).isNone then s else s.redPacket g p m (.redCredit g 2) []
          | none => s
        else s)
      s2.redPump g redFuel)

/-- A member's record ends without its round (a cancel): its contribution is withdrawn; the last to go ends the round. -/
def State.redLeave (s : State) (a g : Nat) : State :=
  let x := s.round g
  let c := mdel x.contrib a
  if c == [] then { s with rounds := mdel s.rounds g }
  else s.setRound g { x with contrib := c, params := mdel x.params a, flights := mdel x.flights a, sent := mdel x.sent a }

end Sys2Proof.Machine
end

