-- ==== Sys2Proof/Machine/Plan.lean ====
section
/-! DEFINITION. What a record takes part in the hazard checks with (R60, R148), and the stalls that its issue meets (R111). -/

namespace Sys2Proof.Machine

/-- Ranges, accumulator halves and fabric scopes of a record. -/
structure Plan where
  reads : List (Nat × Nat) := []
  writes : List (Nat × Nat) := []
  accR : List Nat := []
  accW : List Nat := []
  fabric : Bool := false         -- it sends fabric traffic (`B_REMOTE`)
  scopes : List Nat := []        -- scopes of R275 whose hold stalls it
  deriving DecidableEq, Repr

def scopeMcast (g : Nat) : Nat := 100 + g
def scopeRed (g : Nat) : Nat := 10000 + g

/-- What a MATMUL will find: the active and the shadow tile, the tiles of loads that wait for a swap, in order, and whether the shadow tile is
one that no swap has made active. -/
structure Ahead where
  active : Option (Nat × WClass × Nat)
  shadow : Option (Nat × WClass × Nat)
  fresh : Bool
  waiting : List (Nat × WClass × Nat) := []

/-- Format, class and dense K of the tiles that a MATMUL issued now will find: the active and the shadow one, after the loads and swaps
queued before it, each load in the shadow registers once they are free of the one before (R122, R148). -/
def ArrayState.tilesAhead (x : ArrayState) : Option (Nat × WClass × Nat) × Option (Nat × WClass × Nat) :=
  let of (t : WTile) : Nat × WClass × Nat := (t.fmt, t.cls, t.rows.length)
  let go (p : Ahead) (f : Flight) : Ahead :=
    if f.await != .start then p
    else if f.isLoad then
      let cls := wClass (Rf f.record 9 0 4) (Rf f.record 9 6 1 == 1)
      let t := (Rf f.record 9 0 4, cls, wDenseK cls (Rf f.record 9 4 2))
      if p.fresh then { p with waiting := p.waiting ++ [t] } else { p with shadow := some t, fresh := true }
    else if f.isSwap then
      match p.waiting with
      | [] => { active := p.shadow, shadow := p.active, fresh := false }
      | t :: rest => { active := p.shadow, shadow := some t, fresh := true, waiting := rest }
    else p
  let p := x.flights.foldl go { active := x.active.map of, shadow := x.shadow.map of, fresh := x.shadowFresh }
  (p.active, p.shadow)

/-- Rows of `len` bytes from a local address. -/
def rowsRange (base stride n len : Nat) : List (Nat × Nat) := if n = 0 then [] else [(base, spanEnd base stride n len)]

/-- The local range of a global destination that names the own array (R148). -/
def ownDst (a : Nat) (d : GAddr) (len : Nat) : List (Nat × Nat) := if d.array = a then [(d.off, d.off + len)] else []

def srcRange (v stride n len : Nat) : List (Nat × Nat) := match srcOf v with
  | .mem x => rowsRange x stride n len
  | .acc _ _ => []
def srcHalf (v : Nat) : List Nat := match srcOf v with
  | .mem _ => []
  | .acc h _ => [h]

/-- An expert map entry (R140). -/
structure MapEntry where
  array : Nat
  ctr : Nat
  valid : Bool
  rps : Nat
  inBase : Nat
  tagBase : Nat
  cntBase : Nat

def mapEntry (v : Nat) : MapEntry :=
  ⟨bitsAt v 0 9, bitsAt v 9 6, v.testBit 15, bitsAt v 16 16, bitsAt v 32 32, bitsAt v 64 32, bitsAt v 96 32⟩

/-- The expert map of 256 entries of 16 bytes (R140). -/
def mapEntries (v : Nat) : List MapEntry := (List.range 256).map (fun i => mapEntry (bitsAt v (128 * i) 128))

/-- The local ranges that an entry naming the issuing array may make a DISPATCH SEND of source `src` write (R141, R148; log entry 87). -/
def MapEntry.ownRanges (m : MapEntry) (a src rowBytes : Nat) : List (Nat × Nat) :=
  if !m.valid || m.array != a then []
  else
    let n := src * m.rps
    [(m.inBase + n * rowBytes, m.inBase + (n + m.rps) * rowBytes), (m.tagBase + 8 * n, m.tagBase + 8 * (n + m.rps)),
     (m.cntBase + 4 * src, m.cntBase + 4 * src + 4)]

/-- Scopes of a destination array. -/
def dstScopes (a : Nat) (d : GAddr) : List Nat := if d.array = a then [] else [arrPack a, arrPack d.array]

/-- The plan of a record that passes the static checks, or the status that its tile's state gives it (R127). -/
def State.plan (s : State) (a : Nat) (r : Record) (k : RecKind) : Except Nat Plan :=
  match k with
  | .loadWeight =>
    let fmt := Rf r 9 0 4
    let sp := Rf r 9 4 2
    let kd := wDenseK (wClass fmt (Rf r 9 6 1 == 1)) sp
    let nst := if sp = 0 then kd else if sp = 1 then kd / 2 else kd / 4
    .ok { reads := rowsRange (Rf r 12 0 26) (Rf r 16 0 32) nst (32 * fmtWidth fmt) ++
      (if sp = 0 then [] else [(Rf r 20 0 26, Rf r 20 0 26 + kd / 4 * (if sp = 1 then 128 else 64))]) ++
      (if isMx fmt then [(Rf r 24 0 26, Rf r 24 0 26 + kd / 32 * 256)] else []) }
  | .loadAcc => .ok { reads := rowsRange (Rf r 12 0 26) (Rf r 16 0 32) (Rf r 20 0 9) (32 * fmtWidth (Rf r 9 0 4)), accW := [Rf r 10 0 1] }
  | .loadCopy =>
    let g := gaddrOf (Rf r 24 0 64)
    .ok { reads := ownDst a g (Rf r 16 0 32), writes := [(Rf r 12 0 26, Rf r 12 0 26 + Rf r 16 0 32)], fabric := g.array != a,
          scopes := dstScopes a g }
  | .storeAcc =>
    let g := gaddrOf (Rf r 24 0 64)
    .ok { writes := ownDst a g (spanEnd 0 (Rf r 16 0 32) (Rf r 12 0 9) (32 * fmtWidth (Rf r 20 0 4))), accR := [Rf r 10 0 1],
          fabric := g.array != a, scopes := dstScopes a g }
  | .storeCopy =>
    let g := gaddrOf (Rf r 24 0 64)
    .ok { reads := [(Rf r 12 0 26, Rf r 12 0 26 + Rf r 16 0 32)], writes := ownDst a g (Rf r 16 0 32), fabric := g.array != a,
          scopes := dstScopes a g }
  | .storeFlags => .ok { writes := [(Rf r 12 0 26, Rf r 12 0 26 + 4)] }
  | .matmul =>
    let t := (s.arr a).tilesAhead
    let tile := if Rf r 25 0 1 = 1 then t.2 else t.1
    match matmulStatus r (tile.map (fun t => (t.1, t.2.1))) with
    | some st => .error st
    | none =>
      let kd := (tile.map (·.2.2)).getD 0
      let af := Rf r 24 0 4
      .ok { reads := rowsRange (Rf r 8 0 26) (Rf r 16 0 32) (Rf r 26 0 9) (kd * fmtWidth af / 8) ++
              (if isMx af then rowsRange (Rf r 12 0 26) (Rf r 20 0 32) (Rf r 26 0 9) (kd / 32) else []),
            accW := [Rf r 28 0 1] }
  | .vecop =>
    let f := Rf r 8 0 8
    let nr := Rf r 36 0 16
    let ne := Rf r 38 0 16
    let len (fmt : Nat) : Nat := ceilDiv (ne * fmtWidth fmt) 8
    let scaleLen := ceilDiv ne 32
    let c := Rf r 20 0 32
    let cst := Rf r 34 0 16 * 64
    let arg (v st fmt : Nat) (scalar : Bool) : List (Nat × Nat) :=
      if scalar then srcRange v 0 1 (ceilDiv (fmtWidth fmt) 8) else srcRange v st nr (len fmt)
    let useB := readsB f && Rf r 11 2 1 == 0
    let d := Rf r 24 0 32
    let dlen := if 0x0C ≤ f && f ≤ 0x0F then 32 else len (Rf r 40 0 4)
    .ok { reads := srcRange (Rf r 12 0 32) (Rf r 28 0 16 * 64) nr (len (Rf r 9 0 4)) ++
            (if useB then arg (Rf r 16 0 32) (Rf r 32 0 16 * 64) (Rf r 9 4 4) (Rf r 11 0 1 == 1) else []) ++
            (if f = 0x04 then arg c cst (Rf r 10 0 4) (Rf r 11 1 1 == 1) else []) ++
            (if f = 0x10 then rowsRange (c % 2 ^ 26) cst nr 32 else []) ++
            (if f = 0 && isMx (Rf r 9 0 4) then rowsRange (c % 2 ^ 26) cst nr scaleLen else []),
          writes := (if f = 0x30 || f = 0x31 then srcRange d 0 1 (ceilDiv (fmtWidth (Rf r 40 0 4)) 8) else srcRange d (Rf r 30 0 16 * 64) nr dlen) ++
            (if f = 0x38 then rowsRange (c % 2 ^ 26) cst nr scaleLen else []),
          accR := srcHalf (Rf r 12 0 32) ++ (if useB then srcHalf (Rf r 16 0 32) else []) ++ (if f = 0x04 then srcHalf c else []),
          accW := srcHalf d }
  | .gate =>
    let z (v : Nat) : Nat := if v = 0 then 256 else v
    let t := z (Rf r 12 0 8)
    let e := z (Rf r 13 0 8)
    .ok { reads := srcRange (Rf r 8 0 32) (ceilDiv (4 * e) 64 * 64) t (4 * e) ++
            (if Rf r 14 7 1 = 1 then [(Rf r 20 0 26, Rf r 20 0 26 + 4 * e)] else []),
          writes := [(Rf r 24 0 26, Rf r 24 0 26 + 8 * t * Rf r 14 0 4), (Rf r 28 0 26, Rf r 28 0 26 + 2112)],
          accR := srcHalf (Rf r 8 0 32) }
  | .gather =>
    let g := gaddrOf (Rf r 20 0 64)
    .ok { reads := [(Rf r 8 0 26, Rf r 8 0 26 + 8 * Rf r 12 0 32)], writes := ownDst a g (Rf r 18 0 16 * Rf r 28 0 32), fabric := true,
          scopes := arrPack a :: arrPack g.array :: maskList (Rf r 40 0 64) 64 }
  | .scatter =>
    let g := gaddrOf (Rf r 24 0 64)
    .ok { reads := rowsRange (Rf r 8 0 26) (Rf r 12 0 32) (Rf r 20 0 32) (Rf r 36 0 16) ++ [(Rf r 16 0 26, Rf r 16 0 26 + 4 * Rf r 20 0 32)],
          writes := if g.array = a then [(g.off, 67108864)] else [], fabric := g.array != a, scopes := dstScopes a g }
  | .reduce =>
    let g := gaddrOf (Rf r 20 0 64)
    .ok { reads := [(Rf r 8 0 26, Rf r 8 0 26 + Rf r 12 0 32)],
          writes := (Rf r 32 0 26, Rf r 32 0 26 + 8) :: ownDst a g (Rf r 12 0 32), fabric := true,
          scopes := [arrPack a, arrPack g.array, scopeRed (Rf r 16 0 16)] }
  | .send =>
    .ok { reads := [(Rf r 12 0 26, Rf r 12 0 26 + Rf r 16 0 32)], writes := [(Rf r 20 0 26, Rf r 20 0 26 + 8)], fabric := true,
          scopes := [arrPack a, arrPack (s.epPeer a (Rf r 8 0 6)).1] }
  | .recv =>
    let e := Rf r 8 0 6
    let len := if s.epRole a e = 5 then 1024 * s.combElems a e else Rf r 16 0 32
    .ok { writes := [(Rf r 12 0 26, Rf r 12 0 26 + len), (Rf r 20 0 26, Rf r 20 0 26 + 8)] }
  | .dispatchSend =>
    let t := if Rf r 10 0 8 = 0 then 256 else Rf r 10 0 8
    .ok { reads := [(Rf r 12 0 26, Rf r 12 0 26 + 8 * t * Rf r 11 0 8), (Rf r 24 0 26, Rf r 24 0 26 + 4096)] ++
            rowsRange (Rf r 16 0 26) (Rf r 22 0 16 * 64) t (Rf r 20 0 16),
          writes := (if Rf r 32 0 26 = 0 then [] else [(Rf r 32 0 26, Rf r 32 0 26 + 4)]) ++
            (mapEntries (leNat (Memory.tileRead s.mem (s.siteOf a) (Rf r 24 0 26) 4096))).flatMap (fun m => m.ownRanges a (Rf r 9 0 8) (Rf r 20 0 16)),
          fabric := true, scopes := [arrPack a] }
  | .dispatchReturn =>
    let n := if Rf r 9 0 8 = 0 then 256 else Rf r 9 0 8
    let m := n * Rf r 28 0 16
    .ok { reads := [(Rf r 12 0 26, Rf r 12 0 26 + 8 * m), (Rf r 24 0 26, Rf r 24 0 26 + 4 * n)] ++
            rowsRange (Rf r 16 0 26) (Rf r 22 0 16 * 64) m (Rf r 20 0 16), fabric := true, scopes := [arrPack a] }
  | .waitCount => .ok {}
  | .signal =>
    let x := Rf r 10 0 9
    .ok { fabric := true, scopes := if Rf r 9 0 1 = 1 then [arrPack a, scopeMcast x] else dstScopes a { array := x } }
  | .fence => .ok {}
  | .commit =>
    let ps := (List.range (Rf r 11 0 8)).map (fun i => (Rf r (16 + 16 * i) 0 26, Rf r (20 + 16 * i) 0 32, gaddrOf (Rf r (24 + 16 * i) 0 64)))
    .ok { reads := ps.map (fun p => (p.1, p.1 + p.2.1)), writes := ps.flatMap (fun p => ownDst a p.2.2 p.2.1), fabric := true,
          scopes := ps.flatMap (fun p => dstScopes a p.2.2) }
  | .endStep => .ok {}

def meets (x y : Nat × Nat) : Bool := decide (x.1 < y.2) && decide (y.1 < x.2)
def anyMeet (x y : List (Nat × Nat)) : Bool := x.any (fun p => y.any (meets p))

/-- A hazard of R148 or R60 with a record in flight. -/
def Plan.hazard (p : Plan) (k : RecKind) (f : Flight) : Bool :=
  anyMeet p.reads f.writes || anyMeet p.writes f.writes || anyMeet p.writes f.reads ||
  p.accR.any f.accW.contains || p.accW.any f.accR.contains ||
  (p.accW.any f.accW.contains && !(k == .matmul && recKind f.record == some .matmul))

/-- Units that the bits of `B_MATRIX` to `B_FABRIC` name, and the remote bit (R114). -/
def barrierHolds (bits : Nat) (l : List Flight) : Bool :=
  l.any (fun f => (bits.testBit 0 && f.unit == .matrix) || (bits.testBit 1 && f.unit == .vector) || (bits.testBit 2 && f.unit == .gate) ||
    (bits.testBit 3 && f.unit == .mover) || (bits.testBit 4 && f.unit == .fabric) || (bits.testBit 5 && f.fabric))

/-- Does issue of a record stall (R111, R175, R275), or a failure ahead of it forbid it (R151)? -/
def State.stalls (s : State) (a : Nat) (r : Record) (k : RecKind) (p : Plan) : Bool :=
  let fl := (s.arr a).flights
  barrierHolds (Rf r 1 0 6) fl ||
  (k.unit != .control && k.unit.depth ≤ (fl.filter (fun f => f.unit == k.unit)).length) || decide (32 ≤ fl.length) ||
  fl.any (p.hazard k) || fl.any (fun f => f.status != 0) || s.rangesStall a (p.reads ++ p.writes) ||
  p.scopes.any s.holds.contains

end Sys2Proof.Machine
end

