-- ==== Sys2Proof/Machine/FabricRecs.lean ====
section
/-! DEFINITION. What the fabric unit's records do once started: SCATTER, SEND, RECV, DISPATCH, SIGNAL, COMMIT (R133 to R146, R153). -/

namespace Sys2Proof.Machine

/-- SCATTER (R133, R134). -/
def runScatter (s : State) (a n : Nat) (r : Record) : RX State := do
  let cnt := Rf r 20 0 32
  let len := Rf r 36 0 16
  let op := Rf r 38 0 8
  let d := gaddrOf (Rf r 24 0 64)
  if d.array != a && s.arrVacant d.array then .error (0x09, s) else
  let (ib, s) ← readOwn s a 5 (Rf r 16 0 26) (4 * cnt)
  let idx := unpackElems 32 cnt ib
  needOwn s a (Rf r 8 0 26) (spanEnd (Rf r 8 0 26) (Rf r 12 0 32) cnt len)
  let (rows, s) ← readRows a 5 (Rf r 8 0 26) (Rf r 12 0 32) len cnt s
  let s := s.updFlight a n (fun f => { f with await := .nothing, reads := [] })
  (List.range cnt).foldlM (fun s i => do
    let off := d.off + idx.getD i 0 * Rf r 32 0 32
    let bytes := rows.getD i []
    if 67108864 < off + len then .error (0x04, s)
    else if d.array = a then
      let w := if op = 0 then s.tryWrite a 2 .own off bytes else s.atomicTile a .own off op bytes
      if w.1 = 1 then .error (0x04, w.2)
      else if w.1 = 3 then .error (0x06, w.2)
      else .ok (if d.ctrEn then w.2.ctrAdd a d.ctr 1 else w.2)
    else
      let tag := s.nextTag
      .ok ((s.request { src := .tile a, array := a, flight := n }
        { body := if op = 0 then .write else .atomic op, dst := .tile d.array, src := .tile a, off := off, ctr := d.ctr, ctrEn := d.ctrEn,
          payload := bytes }).updFlight a n (fun f => { f with out := tag :: f.out, await := .replies }))) s

/-! ### SEND and RECV -/

/-- The legacy capacity of a sending endpoint: items and bytes (R310, R312); nothing when no legacy region declares it. -/
def State.legacyCap (s : State) (a e : Nat) : Option CapEntry :=
  match (s.arr a).member with
  | none => none
  | some (l, _) => match mfind s.regions l with
    | none => none
    | some g => g.legacy.find? (fun c => c.srcArray == a && c.srcEp == e)

/-- Items of a legacy sender that are outstanding or that its reader holds. -/
def State.legacyHeld (s : State) (a e : Nat) : Nat :=
  let p := s.epPeer a e
  (s.ep a e).outs.length + ((s.ep p.1 p.2).queue.filter (fun i => i.src == a && !i.host)).length

/-- A SEND that ends at once with a status code. -/
def endNow (s : State) (a n code len epoch peer : Nat) : RX State := .ok (s.endIO a n (statusWord code false false len epoch peer))

/-- SEND on an endpoint bound to a field die (R351). -/
def sendSetpoint (s : State) (a n e die : Nat) (bytes : List Byte) : RX State :=
  if bytes.length < 16 then endNow s a n 0x06 0 0 0
  else
    let p : Packet := { body := .setpoint e, cls := 0, dst := .field die, src := .tile a, payload := bytes }
    let st := s.tc0Status a p
    if st != 0 then .error (st, s.offerTc0 a p)
    else
      let tag := s.nextTag
      .ok ((s.requestTc0 { src := .tile a, array := a, flight := n } p).updFlight a n
        (fun f => { f with await := .answer e, out := [tag], reads := [] }))

/-- SEND on an endpoint bound to a link die: an export descriptor or a control message (R380, R381). -/
def sendLink (s : State) (a n e j : Nat) (bytes : List Byte) : RX State :=
  let via := s.rd F.lnkBind_via j
  let tag := s.nextTag
  let wait (s : State) : State := s.updFlight a n (fun f => { f with await := .answer e, out := [tag], reads := [] })
  if s.rd F.lnkBind_kind j = 0 then
    let v := leNat bytes
    let len := bitsAt v 32 32
    let bad := bytes.length != 32 || !between len 8 (2 ^ 24) || !mult (bitsAt v 0 32) 8 || !mult len 8 || !mult (bitsAt v 96 26) 8 ||
      decide (67108864 < bitsAt v 0 32 + len) || bitsAt v 76 4 != 0 || bitsAt v 89 7 != 0 || bitsAt v 129 127 != 0
    if bad then endNow s a n 0x06 0 0 0
    else .ok (wait (s.request { src := .tile a, array := a, flight := n }
      { body := .channelItem 0 0 e 0 0 0, dst := .link via, src := .tile a, payload := bytes }))
  else if 992 < bytes.length then endNow s a n 0x06 0 0 0
  else
    let p : Packet := { body := .setpoint e, cls := 0, dst := .link via, src := .tile a, payload := bytes }
    let st := s.tc0Status a p
    if st != 0 then .error (st, s.offerTc0 a p)
    else .ok (wait (s.requestTc0 { src := .tile a, array := a, flight := n } p))

/-- SEND (R282, R292, R307, R312). -/
def runSend (s : State) (a n : Nat) (r : Record) : RX State := do
  let e := Rf r 8 0 6
  let len := Rf r 16 0 32
  let role := s.epRole a e
  let x := s.ep a e
  needOwn s a (Rf r 20 0 26) (Rf r 20 0 26 + 8)
  if !roleSends role then endNow s a n 0x06 0 x.peerEpoch (s.epPeer a e).1
  else if !s.epOpen a e then endNow s a n 0x05 0 x.peerEpoch (s.epPeer a e).1
  else
    let (bytes, s) ← readOwn s a 5 (Rf r 12 0 26) len
    match if role = 1 then s.fieldBind a e else none, if role = 1 then s.linkBind a e else none with
    | some j, _ => sendSetpoint s a n e (s.rd F.fldSptBind_die j) bytes
    | none, some j => sendLink s a n e j bytes
    | none, none =>
      let peer := s.epPeer a e
      let ovr := role == 6 && (match s.legacyCap a e with
        | none => true
        | some c => decide (c.maxItems ≤ s.legacyHeld a e) || decide (c.maxBytes < len))
      if ovr then endNow s a n 0x0B 0 (s.ep a e).peerEpoch peer.1
      else if s.arrVacant peer.1 then endNow (s.countDiscard a e) a n 0x08 0 (s.ep a e).peerEpoch peer.1
      else
        let o : OutItem := { data := bytes, flight := n }
        let s := (s.updEp a e (fun x => { x with outs := x.outs ++ [o] })).updFlight a n (fun f => { f with await := .answer e })
        .ok (if (s.ep a e).queried then s else s.transmitItem a e o)

/-- RECV (R284, R304, R307). -/
def runRecv (s : State) (a n : Nat) (r : Record) : RX State := do
  let e := Rf r 8 0 6
  let role := s.epRole a e
  needOwn s a (Rf r 20 0 26) (Rf r 20 0 26 + 8)
  if !(roleReceives role || role == 5) then endNow s a n 0x06 0 0 0
  else if !s.epOpen a e then endNow s a n 0x05 0 (s.epEpoch a e) 0
  else if role = 5 && Rf r 12 0 26 != s.combBase a e then endNow s a n 0x06 0 (s.epEpoch a e) 0
  else
    let s := s.updFlight a n (fun f => { f with await := .item e })
    .ok (if role = 5 then s.combCheck a e else s)

/-! ### DISPATCH -/

/-- One transfer of a DISPATCH SEND to expert `i` of flight `n`: a row or a tag. -/
def State.expertWrite (s : State) (a n i array off : Nat) (bytes : List Byte) : State :=
  let refuse (s : State) (st : Nat) : State := (s.updFlight a n (fun f =>
    { f with experts := f.experts.zipIdx.map (fun x => if x.2 = i then { x.1 with refused := true } else x.1) })).failFlight a n st
  if 67108864 < off + bytes.length then refuse s 0x04
  else if array = a then
    match writeOwn s a 2 off bytes with
    | .ok s1 => s1
    | .error e => refuse e.2 e.1
  else if s.arrVacant array then refuse s 0x09
  else (packetsOf off bytes).foldl (fun s p =>
    let tag := s.nextTag
    (s.request { src := .tile a, array := a, flight := n, expert := i + 1 }
      { body := .write, dst := .tile array, src := .tile a, off := p.1, payload := p.2 }).updFlight a n (fun f =>
        { f with out := tag :: f.out, await := .replies,
                 experts := f.experts.zipIdx.map (fun x => if x.2 = i then { x.1 with waiting := x.1.waiting + 1 } else x.1) })) s

/-- Count words to the experts whose rows are all acknowledged, and the drop count once every row is answered (R141). -/
def State.dispatchGo (s : State) (a n : Nat) : State :=
  match s.flight a n with
  | none => s
  | some f =>
    let s1 := (List.range f.experts.length).foldl (fun s i =>
      let x := f.experts.getD i {}
      if x.waiting != 0 || x.counted then s
      else
        let s := s.updFlight a n (fun f => { f with experts := f.experts.zipIdx.map (fun y => if y.2 = i then { y.1 with counted := true } else y.1) })
        if x.refused then s
        else match writeGlobal s a n { off := x.addr, array := x.array, ctr := x.ctr, ctrEn := true } .write (leBytes 4 x.rows) with
          | .ok s => s
          | .error e => e.2.failFlight a n e.1) s
    if f.dropAt != 0 && f.experts.all (fun x => x.waiting == 0) then
      let s2 := s1.updFlight a n (fun f => { f with dropAt := 0 })
      match readOwn s2 a 5 f.dropAt 4 with
      | .error e => e.2.failFlight a n e.1
      | .ok (b, s3) => match writeOwn s3 a 2 f.dropAt (leBytes 4 (min (leNat b + f.drop) 0xFFFFFFFF)) with
        | .ok s4 => s4
        | .error e => e.2.failFlight a n e.1
    else s1

/-- DISPATCH, mode SEND (R139 to R141). -/
def runDispatchSend (s : State) (a n : Nat) (r : Record) : RX State := do
  let t := if Rf r 10 0 8 = 0 then 256 else Rf r 10 0 8
  let k := Rf r 11 0 8
  let e := Rf r 28 0 6
  let src := Rf r 9 0 8
  let rb := Rf r 20 0 16
  if s.epRole a e != 5 then .error (0x02, s) else
  let (lb, s) ← readOwn s a 5 (Rf r 12 0 26) (8 * t * k)
  let (mb, s) ← readOwn s a 5 (Rf r 24 0 26) 4096
  let slots := unpackElems 64 (t * k) lb
  let map := mapEntries (leNat mb)
  let ent (i : Nat) : MapEntry := map.getD i (mapEntry 0)
  let valid := (List.range (t * k)).filter (fun i => (slots.getD i 0).testBit 8)
  let exOf (i : Nat) : Nat := bitsAt (slots.getD i 0) 0 8
  let posOf (i : Nat) : Nat := bitsAt (slots.getD i 0) 16 16
  if valid.any (fun i => !(ent (exOf i)).valid) || map.any (fun m => m.valid && !(mult m.cntBase 4 && mult m.inBase 8 && mult m.tagBase 8)) then .error (0x02, s) else
  if !s.epOpen a e then .error (0x0F, s) else
  let sent := valid.filter (fun i => decide (posOf i < (ent (exOf i)).rps))
  -- the token rows it reads are one operand (R170)
  let rows := Rf r 16 0 26
  if sent == [] then .ok () else needOwn s a rows (rows + (sent.foldl (fun m i => max m (i / k)) 0) * (Rf r 22 0 16 * 64) + rb)
  let counts := sent.foldl (fun (m : NMap Nat) i => mset m (i / k) (mget m (i / k) 0 + 1)) []
  let reg := s.combRegister a e counts
  if !reg.1 then .error (0x02, s) else
  let s := reg.2
  let experts := (List.range 256).filter (fun x => (ent x).valid)
  let dests := experts.map (fun x => ({ array := (ent x).array, ctr := (ent x).ctr, addr := (ent x).cntBase + 4 * src,
                                        rows := (sent.filter (fun i => exOf i == x)).length } : ExpertDest))
  let s := s.updFlight a n (fun f => { f with await := .nothing, experts := dests, drop := valid.length - sent.length, dropAt := Rf r 32 0 26 })
  let s ← (List.range experts.length).foldlM (fun s j => do
    let x := experts.getD j 0
    let m := ent x
    (sent.filter (fun i => exOf i == x)).foldlM (fun s i => do
      let tok := i / k
      let (row, s) ← readOwn s a 5 (Rf r 16 0 26 + tok * Rf r 22 0 16 * 64) rb
      let idx := src * m.rps + posOf i
      let tag := a + tok * 2 ^ 16 + bitsAt (slots.getD i 0) 32 32 * 2 ^ 32
      .ok ((s.expertWrite a n j m.array (m.inBase + idx * rb) row).expertWrite a n j m.array (m.tagBase + 8 * idx) (leBytes 8 tag))) s) s
  .ok ((s.updFlight a n (fun f => { f with reads := [] })).dispatchGo a n)

/-- The random value of element `e` of output row `i` (R142). -/
def returnDraw (seed i e : Nat) : Nat :=
  let v := seed ^^^ ((i * 4096 + e + 1) * 0x9E3779B9 % 2 ^ 32)
  xorshift (if v = 0 then 0x6D2B79F5 else v) % 65536

/-- DISPATCH, mode RETURN (R142). -/
def runDispatchReturn (s : State) (a n : Nat) (r : Record) : RX State := do
  let ns := if Rf r 9 0 8 = 0 then 256 else Rf r 9 0 8
  let rps := Rf r 28 0 16
  let rb := Rf r 20 0 16
  match ccwOf (Rf r 30 0 16) with
  | none => .error (0x03, s)
  | some c =>
    let (cb, s) ← readOwn s a 5 (Rf r 24 0 26) (4 * ns)
    let cnts := unpackElems 32 ns cb
    -- its tags, and its rows, are one operand each (R170)
    let top := ((List.range ns).filter (fun q => cnts.getD q 0 != 0)).foldl (fun m q => max m (q * rps + cnts.getD q 0)) 0
    if top = 0 then .ok () else needOwn s a (Rf r 12 0 26) (Rf r 12 0 26 + 8 * top)
    if top = 0 then .ok () else needOwn s a (Rf r 16 0 26) (spanEnd (Rf r 16 0 26) (Rf r 22 0 16 * 64) top rb)
    let s := s.updFlight a n (fun f => { f with await := .nothing })
    let s ← (List.range ns).foldlM (fun s src => do
      (List.range (cnts.getD src 0)).foldlM (fun s q => do
        let i := src * rps + q
        let (tb, s) ← readOwn s a 5 (Rf r 12 0 26 + 8 * i) 8
        let (row, s) ← readOwn s a 5 (Rf r 16 0 26 + i * Rf r 22 0 16 * 64) rb
        let tag := leNat tb
        let w := fp32.unpack (bitsAt tag 32 32)
        let vals := (unpackElems 32 (rb / 4) row).zipIdx.map (fun x =>
          let pr := (fp32.pack .rne {} 0 (FV.mul (fp32.unpack x.1) w).1).1
          (convertTo c c.md (if c.md = .sr then returnDraw (Rf r 32 0 32) i x.2 else 0) (fp32.unpack pr)).1)
        let org := bitsAt tag 0 9
        if s.arrVacant org then .error (0x09, s)
        else
          let t := s.nextTag
          .ok ((s.request { src := .tile a, array := a, flight := n }
            { body := .channelItem (Rf r 11 0 6) 1 63 0 (bitsAt tag 16 16 % 256) c.fmt, dst := .tile org, src := .tile a,
              payload := packElems (fmtWidth c.fmt) vals }).updFlight a n (fun f => { f with out := t :: f.out, await := .replies }))) s) s
    .ok (s.updFlight a n (fun f => { f with reads := [] }))

/-! ### SIGNAL and COMMIT -/

/-- SIGNAL to one array: a remote one is asked, the own one counts at once. -/
def State.signalTo (s : State) (a n b ctr v : Nat) : State :=
  if b = a then s.ctrAdd a ctr v
  else
    let tag := s.nextTag
    (s.request { src := .tile a, array := a, flight := n } { body := .signal v, dst := .tile b, src := .tile a, ctr := ctr }).updFlight a n
      (fun f => { f with out := tag :: f.out, await := .replies })

/-- SIGNAL (R145, R264, R265): vacant members of a group are pruned at the injecting router. -/
def runSignal (s : State) (a n : Nat) (r : Record) : RX State :=
  let b := Rf r 10 0 9
  let ctr := Rf r 11 1 6
  let v := Rf r 12 0 32
  let s := s.updFlight a n (fun f => { f with await := .nothing })
  if Rf r 9 0 1 = 1 then
    let ms := maskList (mget s.mcast b 0) 512
    let s1 := s.updFlight a n (fun f => { f with copies := ms.length, gaps := ms.filter s.arrVacant })
    .ok ((ms.filter (fun m => !s.arrVacant m)).foldl (fun s m => s.signalTo a n m ctr v) s1)
  else if b != a && s.arrVacant b then .error (0x09, s)
  else .ok (s.signalTo a n b ctr v)

/-- The staged pairs of a COMMIT go out (R146, R153). -/
def sendPairs (s : State) (a n : Nat) (r : Record) : RX State := do
  let s := (s.updFlight a n (fun f => { f with await := .nothing, granted := true })).updRun a (fun q => { q with granted := q.granted ++ [((s.flight a n).map (·.addr)).getD 0] })
  let s ← (List.range (Rf r 11 0 8)).foldlM (fun s i => do
    let d := gaddrOf (Rf r (24 + 16 * i) 0 64)
    let (b, s) ← readOwn s a 5 (Rf r (16 + 16 * i) 0 26) (Rf r (20 + 16 * i) 0 32)
    if d.array = a && !s.ownOk a d.off (d.off + b.length) then .error (0x04, s)
    else writeGlobal s a n d .write b) s
  .ok (s.updFlight a n (fun f => { f with reads := [] }))

/-- COMMIT, started (R153). -/
def runCommit (s : State) (a n : Nat) (r : Record) : RX State :=
  if Rf r 10 7 1 = 0 then sendPairs s a n r
  else
    let home := Rf r 8 0 9
    if s.arrVacant home then .error (0x09, s)
    else match (s.arr a).run with
      | none => .error (0x02, s)
      | some run =>
        let tag := s.nextTag
        .ok ((s.request { src := .tile a, array := a, flight := n }
          { body := .tokenClaim (Rf r 10 0 6) run.serial run.id run.leader run.attempt, dst := .tile home, src := .tile a }).updFlight a n
            (fun f => { f with out := [tag], await := .token }))

/-- 32-bit serial-number order: `x` is newer than `y` (R153). -/
def newer (x y : Nat) : Bool := let d := (x + 2 ^ 32 - y % 2 ^ 32) % 2 ^ 32; d != 0 && decide (d < 2 ^ 31)

/-- Grant or deny a claim against a slot (R153). -/
def grantClaim (old : Option Token) (t : Token) : Bool :=
  match old with
  | none => true
  | some o => newer t.serial o.serial || (t.serial == o.serial && newer t.id o.id) ||
      (t.serial == o.serial && t.id == o.id && t.leader == o.leader && decide (o.attempt < t.attempt))

/-- TOKEN_CLAIM (R153). -/
def execTokenClaim (pkt : Packet) (s : State) : Out :=
  match pkt.body with
  | .tokenClaim slot serial id leader attempt =>
    s.atTile pkt (fun a s =>
      let k := s.siteOf a * 64 + slot
      let t : Token := { serial := serial, id := id, leader := leader, attempt := attempt }
      let ok := grantClaim (mfind s.tokens k) t
      (if ok then { s with tokens := mset s.tokens k t } else s).send (replyTo pkt (.tokenAnswer ok) 0))
  | _ => .next s

end Sys2Proof.Machine
end

