-- ==== Sys2Proof/Machine/Steps.lean ====
section
/-! DEFINITION. The sequencer: fetch, issue, start, completion and failure of records (R110 to R115, R148 to R151), and one command for each
record of the opcode and function tables. -/

namespace Sys2Proof.Machine

/-! ### Reports and failures -/

/-- Send a step report (R158). -/
def State.report (s : State) (a : Nat) (run : StepRun) (status tag addr : Nat) : State :=
  s.requestTc0 { src := .tile a, array := a }
    { body := .stepMsg (.report run.id run.attempt status tag addr), cls := 0, dst := .tile run.leader, src := .tile a }

/-- Once issue has stopped and nothing is in flight, the array reports (R151, R161). -/
def State.settle (s : State) (a : Nat) : State :=
  let x := s.arr a
  match x.run with
  | none => s
  | some run =>
    if run.issuing || x.flights != [] then s
    else
      let s1 := s.updArr a (fun x => { x with run := none })
      match run.failed with
      | some f => s1.report a run f.1 f.2.1 f.2.2
      | none =>
        if run.cancelled && !run.commitLast then s1.report a run 0x0E 0 0
        else s1.report a run (if run.superseded then 0x0D else 0) 0 0

/-- The step fails (R151), and reports once nothing is in flight any more. -/
def State.failStep (s : State) (a st tag addr : Nat) : State := (s.noteFail a st tag addr).settle a

def State.dropFlight (s : State) (a n : Nat) : State := s.updArr a (fun x => { x with flights := x.flights.filter (fun f => f.n != n) })

/-! ### Starting records -/

/-- Flights that precede flight `n` in program order. -/
def earlier (l : List Flight) (n : Nat) : List Flight := l.takeWhile (fun f => f.n != n)

/-- An earlier fabric record that holds the unit (R269, R282, R292): an unanswered SEND, a waiting RECV, a claim, counts still to write. -/
def State.fabricHeld (s : State) (a : Nat) (f : Flight) : Bool :=
  match f.await with
  | .answer e => s.epRole a e != 6 || s.on F.chEpState_blocked (epKey a e)
  | .item _ => true
  | .token => true
  | .replies => f.experts.any (fun x => !x.counted)
  | _ => false

/-- May a queued record start? -/
def State.canStart (s : State) (a : Nat) (f : Flight) : Bool :=
  let x := s.arr a
  let before := earlier x.flights f.n
  let queued := before.filter (fun g => g.await == .start)
  if queued.any (fun g => g.unit == f.unit) then false
  else match recKind f.record with
    | some .loadWeight =>
      !x.shadowFresh && !queued.any Flight.isSwap
    | some .matmul =>
      if Rf f.record 25 0 1 = 1 then
        (match x.shadow with | some t => !t.loading | none => true) && (x.shadowFresh || !queued.any Flight.isLoad)
      else match x.active with | some t => !t.loading | none => true
    | some .reduce => !before.any (fun g => s.fabricHeld a g || (match g.await with | .reduce _ => true | _ => false))
    | some .gather => !before.any (s.fabricHeld a) && decide (((s.gathers.filter (fun g => g.2.array == a)).length) < 4)
    | some k => k.unit != .fabric || !before.any (s.fabricHeld a)
    | none => true

/-- A WAIT_COUNT starts to wait (R144). -/
def runWaitCount (s : State) (a n : Nat) (r : Record) : RX State :=
  let t := Rf r 16 0 32
  .ok (s.updFlight a n (fun f => { f with await := .counter (Rf r 8 0 6) (Rf r 12 0 32) (if t = 0 then 0 else s.now + 100 * t) (Rf r 9 0 1 == 1) }))

/-- Run a record. -/
def runRecord (s : State) (a n : Nat) (r : Record) : RX State :=
  match recKind r with
  | none => .error (0x01, s)
  | some k =>
    match k with
    | .loadWeight => runLoadWeight s a n r
    | .loadAcc => runLoadAcc s a n r
    | .loadCopy => runLoadCopy s a n r
    | .storeAcc => runStoreAcc s a n r
    | .storeCopy => runStoreCopy s a n r
    | .storeFlags => runStoreFlags s a n r
    | .matmul => runMatmul s a n r
    | .vecop => runVecop s a n r
    | .gate => runGate s a n r
    | .gather => runGather s a n r
    | .scatter => runScatter s a n r
    | .reduce => runReduce s a n r
    | .send => runSend s a n r
    | .recv => runRecv s a n r
    | .dispatchSend => runDispatchSend s a n r
    | .dispatchReturn => runDispatchReturn s a n r
    | .waitCount => runWaitCount s a n r
    | .signal => runSignal s a n r
    | .fence => .ok (s.updFlight a n (fun f => { f with await := .fence }))
    | .commit => runCommit s a n r
    | .endStep => .ok (s.updFlight a n (fun f => { f with await := .fence }))

/-- Start every queued record that may start, in program order; one that fails leaves the others to run on (R151). -/
def State.pump (s : State) (a : Nat) : Nat → State
  | 0 => s
  | fuel + 1 =>
    match (s.arr a).flights.find? (fun f => f.await == .start && s.canStart a f) with
    | none => s
    | some f =>
      match runRecord s a f.n f.record with
      | .ok s1 => s1.pump a fuel
      | .error e => ((e.2.dropFlight a f.n).failStep a e.1 f.tag f.addr).pump a fuel

/-! ### Issue -/

/-- Fetch the next record and, where it is one that the command names, issue it (R110 to R115). A stall leaves the state as it is. -/
def State.issueRec (s : State) (a : Nat) (want : Option RecKind → Record → Bool) : State :=
  let x := s.arr a
  match x.run with
  | none => s
  | some run =>
    if s.halted (s.arrIsland a) || !run.issuing || 65536 ≤ run.fetched || x.flights.any (fun f => f.unit == .control) || s.initStalls a run.next (run.next + 64) then s
    else
      match readOwn s a 0 run.next 64 with
      | .error e => e.2.failStep a e.1 0 run.next
      | .ok (b, s1) =>
        let r : Record := BitVec.ofNat 512 (leNat b)
        let k := recKind r
        if !want k r then s
        else
          let taken := s1.updRun a (fun q => { q with fetched := q.fetched + 1, next := q.next + 64 })
          match k with
          | none => taken.failStep a 0x01 (recTag r) run.next
          | some k =>
            match staticStatus r k with
            | some st => taken.failStep a st (recTag r) run.next
            | none =>
              match s1.plan a r k with
              | .error st => taken.failStep a st (recTag r) run.next
              | .ok p =>
                if s1.stalls a r k p then s
                else
                  let n := taken.nextTag
                  let f : Flight := { n := n, addr := run.next, tag := recTag r, record := r, unit := k.unit,
                                      doneCtr := (if Rf r 2 6 1 = 1 then some (Rf r 2 0 6) else none), fabric := p.fabric,
                                      reads := p.reads, writes := p.writes, accR := p.accR, accW := p.accW, await := .start }
                  let s2 := { taken with nextTag := n + 1 }
                  (s2.updArr a (fun x => { x with flights := x.flights ++ [f], run := x.run.map (fun q => { q with issued := q.issued + 1 }) })).pump a 64

/-! ### Completion -/

/-- A flight with nothing left to wait for leaves; a failed one fails the step (R149, R151). -/
def State.retire (s : State) (a : Nat) (f : Flight) : State :=
  -- pruned members of a multicast: a notice for each, to the management path (R265)
  let s1 := (s.dropFlight a f.n).each f.gaps (fun s m => s.sendTc0
    { body := .gapNotice m (f.copies - f.gaps.length) f.copies, cls := 0, noack := true, dst := .mgmt 0, src := .tile a })
  if f.status != 0 then ((s1.failStep a f.status f.tag f.addr).pump a 64).settle a
  else
    let s2 := match f.doneCtr with
      | some c => s1.ctrAdd a c 1
      | none => s1
    if recKind f.record == some .endStep then (s2.updRun a (fun q => { q with issuing := false })).settle a
    else (s2.pump a 64).settle a

/-- What a FENCE or an END waits for: the records of its scope, all of them for END (R145, R147). -/
def fenceMet (l : List Flight) (f : Flight) : Bool :=
  let before := earlier l f.n
  if recKind f.record == some .endStep then before == [] else !barrierHolds (Rf f.record 8 0 6) before

/-- RECORD_COMPLETE (R149). A record that cannot complete yet stays. -/
def execRecordComplete (a : Fin 512) (n : Nat) (s : State) : Out :=
  let s1 := if s.halted (s.arrIsland a) then s else s.pump a 64
  match if s.halted (s.arrIsland a) then none else s1.flight a n with
  | none => .next s1
  | some f =>
    match f.await with
    | .nothing => .next (if f.out == [] then s1.retire a f else s1)
    | .fence => .next (if fenceMet (s1.arr a).flights f then s1.retire a f else s1)
    | _ => .next s1

/-- The WAIT_COUNT that is active at an array. -/
def State.activeWait (s : State) (a : Nat) : Option (Flight × Nat × Nat × Nat × Bool) :=
  (s.arr a).flights.findSome? (fun f => match f.await with
    | .counter c t o k => some (f, c, t, o, k)
    | _ => none)

/-- WAIT_COUNT_MET (R187): the counter has reached `TARGET`. -/
def execWaitCountMet (a : Fin 512) (s : State) : Out :=
  match s.activeWait a with
  | none => .next s
  | some (f, c, t, _, consume) =>
    let v := s.rd F.tmCtr_value (a * 64 + c)
    if v < t || s.halted (s.arrIsland a) then .next s
    else .next ((if consume then s.wr F.tmCtr_value (a * 64 + c) (v - t) else s).retire a f)

/-- WAIT_TIMEOUT (R144): the time-out has passed, and the counter has not been reached. -/
def execWaitTimeout (a : Fin 512) (s : State) : Out :=
  match s.activeWait a with
  | none => .next s
  | some (f, c, t, o, _) =>
    if o = 0 || s.halted (s.arrIsland a) || t ≤ s.rd F.tmCtr_value (a * 64 + c) then .next s
    else .next (((s.dropFlight a f.n).failStep a 0x07 f.tag f.addr).pump a 64)

/-- FETCH_LIMIT_EXCEEDED (R112): 65,536 records have been fetched, and END is not among them. -/
def execFetchLimitExceeded (a : Fin 512) (s : State) : Out :=
  match (s.arr a).run with
  | none => .next s
  | some run => .next (if run.issuing && !s.halted (s.arrIsland a) && 65536 ≤ run.fetched &&
      !(s.arr a).flights.any (fun f => recKind f.record == some .endStep) then s.failStep a 0x02 0 run.next else s)

/-- SHADOW_LOAD_DONE (R58, R92): the tile on its way has arrived; metadata that breaks the rules fails the LOAD. -/
def execShadowLoadDone (a : Fin 512) (s : State) : Out :=
  match (s.arr a).flights.find? (fun f => f.await == .shadowLoad), (s.arr a).shadow with
  | some f, some t =>
    if s.halted (s.arrIsland a) then .next s else
    let s1 := s.updArr a (fun x => { x with shadow := some { t with loading := false } })
    .next (if t.metaBad then
        ((s1.wr F.arrFlags_metaErr a 1).finish a f.n).failFlight a f.n 0x05 |>.pump a 64
      else (s1.finish a f.n).pump a 64)
  | _, _ => .next s

/-! ### Record commands -/

def isKind (k : RecKind) (x : Option RecKind) (_ : Record) : Bool := x == some k

/-- UNDEFINED_OPCODE (R115). -/
def execUndefinedOpcode (a : Fin 512) (s : State) : Out := .next (s.issueRec a (fun k _ => k.isNone))

/-- VECOP_RESERVED_FUNC (R129). -/
def execVecopReservedFunc (a : Fin 512) (s : State) : Out :=
  .next (s.issueRec a (fun k r => k == some .vecop &&
    (!funcDefined (Rf r 8 0 8) || !funcOffered (Rf r 8 0 8) (compOf (Rf r 9 0 4)))))

/-- A VECOP whose function has the code. -/
def isFunc (c : Nat) (k : Option RecKind) (r : Record) : Bool := k == some .vecop && Rf r 8 0 8 == c

/-- LOAD_WEIGHT (R122). -/
def execLoadWeight (a : Fin 512) (s : State) : Out := .next (s.issueRec a (isKind .loadWeight))

/-- LOAD_ACC (R123). -/
def execLoadAcc (a : Fin 512) (s : State) : Out := .next (s.issueRec a (isKind .loadAcc))

/-- LOAD_COPY (R123). -/
def execLoadCopy (a : Fin 512) (s : State) : Out := .next (s.issueRec a (isKind .loadCopy))

/-- STORE_ACC (R125). -/
def execStoreAcc (a : Fin 512) (s : State) : Out := .next (s.issueRec a (isKind .storeAcc))

/-- STORE_COPY (R124). -/
def execStoreCopy (a : Fin 512) (s : State) : Out := .next (s.issueRec a (isKind .storeCopy))

/-- STORE_FLAGS (R125). -/
def execStoreFlags (a : Fin 512) (s : State) : Out := .next (s.issueRec a (isKind .storeFlags))

/-- MATMUL (R127). -/
def execMatmul (a : Fin 512) (s : State) : Out := .next (s.issueRec a (isKind .matmul))

/-- GATE (R103). -/
def execGate (a : Fin 512) (s : State) : Out := .next (s.issueRec a (isKind .gate))

/-- GATHER (R132). -/
def execGather (a : Fin 512) (s : State) : Out := .next (s.issueRec a (isKind .gather))

/-- SEND (R282). -/
def execSend (a : Fin 512) (s : State) : Out := .next (s.issueRec a (isKind .send))

/-- RECV (R284). -/
def execRecv (a : Fin 512) (s : State) : Out := .next (s.issueRec a (isKind .recv))

/-- DISPATCH_SEND (R141). -/
def execDispatchSend (a : Fin 512) (s : State) : Out := .next (s.issueRec a (isKind .dispatchSend))

/-- DISPATCH_RETURN (R142). -/
def execDispatchReturn (a : Fin 512) (s : State) : Out := .next (s.issueRec a (isKind .dispatchReturn))

/-- WAIT_COUNT (R144). -/
def execWaitCount (a : Fin 512) (s : State) : Out := .next (s.issueRec a (isKind .waitCount))

/-- SIGNAL (R145). -/
def execSignal (a : Fin 512) (s : State) : Out := .next (s.issueRec a (isKind .signal))

/-- FENCE (R145). -/
def execFence (a : Fin 512) (s : State) : Out := .next (s.issueRec a (isKind .fence))

/-- COMMIT (R153). -/
def execCommit (a : Fin 512) (s : State) : Out := .next (s.issueRec a (isKind .commit))

/-- END (R147). -/
def execEndStep (a : Fin 512) (s : State) : Out := .next (s.issueRec a (isKind .endStep))

/-- SCATTER_WRITE (R134); an `OP` above 2 is refused here. -/
def execScatterWrite (a : Fin 512) (s : State) : Out := .next (s.issueRec a (fun k r => k == some .scatter && Rf r 38 0 8 != 1 && Rf r 38 0 8 != 2))

/-- SCATTER_ADD_FP32 (R134). -/
def execScatterAddFp32 (a : Fin 512) (s : State) : Out := .next (s.issueRec a (fun k r => k == some .scatter && Rf r 38 0 8 == 1))

/-- SCATTER_ADD_INT32 (R134). -/
def execScatterAddInt32 (a : Fin 512) (s : State) : Out := .next (s.issueRec a (fun k r => k == some .scatter && Rf r 38 0 8 == 2))

/-- REDUCE_SUM_FP32 (R268); an `OP` above 2 is refused here. -/
def execReduceSumFp32 (a : Fin 512) (s : State) : Out := .next (s.issueRec a (fun k r => k == some .reduce && Rf r 18 0 8 != 1 && Rf r 18 0 8 != 2))

/-- REDUCE_SUM_INT32 (R268). -/
def execReduceSumInt32 (a : Fin 512) (s : State) : Out := .next (s.issueRec a (fun k r => k == some .reduce && Rf r 18 0 8 == 1))

/-- REDUCE_MAX_FP32 (R268). -/
def execReduceMaxFp32 (a : Fin 512) (s : State) : Out := .next (s.issueRec a (fun k r => k == some .reduce && Rf r 18 0 8 == 2))

/-- VECOP_CONVERT (R79). -/
def execVecopConvert (a : Fin 512) (s : State) : Out := .next (s.issueRec a (isFunc 0x00))

/-- VECOP_ADD (R99). -/
def execVecopAdd (a : Fin 512) (s : State) : Out := .next (s.issueRec a (isFunc 0x01))

/-- VECOP_SUB (R99). -/
def execVecopSub (a : Fin 512) (s : State) : Out := .next (s.issueRec a (isFunc 0x02))

/-- VECOP_MUL (R99). -/
def execVecopMul (a : Fin 512) (s : State) : Out := .next (s.issueRec a (isFunc 0x03))

/-- VECOP_FMA (R99). -/
def execVecopFma (a : Fin 512) (s : State) : Out := .next (s.issueRec a (isFunc 0x04))

/-- VECOP_DIV (R99). -/
def execVecopDiv (a : Fin 512) (s : State) : Out := .next (s.issueRec a (isFunc 0x05))

/-- VECOP_SQRT (R99). -/
def execVecopSqrt (a : Fin 512) (s : State) : Out := .next (s.issueRec a (isFunc 0x06))

/-- VECOP_MIN (R99). -/
def execVecopMin (a : Fin 512) (s : State) : Out := .next (s.issueRec a (isFunc 0x07))

/-- VECOP_MAX (R99). -/
def execVecopMax (a : Fin 512) (s : State) : Out := .next (s.issueRec a (isFunc 0x08))

/-- VECOP_ABS (R99). -/
def execVecopAbs (a : Fin 512) (s : State) : Out := .next (s.issueRec a (isFunc 0x09))

/-- VECOP_NEG (R99). -/
def execVecopNeg (a : Fin 512) (s : State) : Out := .next (s.issueRec a (isFunc 0x0A))

/-- VECOP_COPYSIGN (R99). -/
def execVecopCopysign (a : Fin 512) (s : State) : Out := .next (s.issueRec a (isFunc 0x0B))

/-- VECOP_COMPARE_EQ (R99). -/
def execVecopCompareEq (a : Fin 512) (s : State) : Out := .next (s.issueRec a (isFunc 0x0C))

/-- VECOP_COMPARE_LT (R99). -/
def execVecopCompareLt (a : Fin 512) (s : State) : Out := .next (s.issueRec a (isFunc 0x0D))

/-- VECOP_COMPARE_LE (R99). -/
def execVecopCompareLe (a : Fin 512) (s : State) : Out := .next (s.issueRec a (isFunc 0x0E))

/-- VECOP_COMPARE_UNORDERED (R99). -/
def execVecopCompareUnordered (a : Fin 512) (s : State) : Out := .next (s.issueRec a (isFunc 0x0F))

/-- VECOP_SELECT (R99). -/
def execVecopSelect (a : Fin 512) (s : State) : Out := .next (s.issueRec a (isFunc 0x10))

/-- VECOP_RECIP (R99). -/
def execVecopRecip (a : Fin 512) (s : State) : Out := .next (s.issueRec a (isFunc 0x11))

/-- VECOP_RSQRT (R99). -/
def execVecopRsqrt (a : Fin 512) (s : State) : Out := .next (s.issueRec a (isFunc 0x12))

/-- VECOP_EXP2 (R99). -/
def execVecopExp2 (a : Fin 512) (s : State) : Out := .next (s.issueRec a (isFunc 0x13))

/-- VECOP_LOG2 (R99). -/
def execVecopLog2 (a : Fin 512) (s : State) : Out := .next (s.issueRec a (isFunc 0x14))

/-- VECOP_EXP (R99). -/
def execVecopExp (a : Fin 512) (s : State) : Out := .next (s.issueRec a (isFunc 0x15))

/-- VECOP_LOG (R99). -/
def execVecopLog (a : Fin 512) (s : State) : Out := .next (s.issueRec a (isFunc 0x16))

/-- VECOP_TANH (R99). -/
def execVecopTanh (a : Fin 512) (s : State) : Out := .next (s.issueRec a (isFunc 0x17))

/-- VECOP_SIGMOID (R99). -/
def execVecopSigmoid (a : Fin 512) (s : State) : Out := .next (s.issueRec a (isFunc 0x18))

/-- VECOP_SILU (R99). -/
def execVecopSilu (a : Fin 512) (s : State) : Out := .next (s.issueRec a (isFunc 0x19))

/-- VECOP_GELU (R99). -/
def execVecopGelu (a : Fin 512) (s : State) : Out := .next (s.issueRec a (isFunc 0x1A))

/-- VECOP_AND (R100). -/
def execVecopAnd (a : Fin 512) (s : State) : Out := .next (s.issueRec a (isFunc 0x20))

/-- VECOP_OR (R100). -/
def execVecopOr (a : Fin 512) (s : State) : Out := .next (s.issueRec a (isFunc 0x21))

/-- VECOP_XOR (R100). -/
def execVecopXor (a : Fin 512) (s : State) : Out := .next (s.issueRec a (isFunc 0x22))

/-- VECOP_SHIFT_LEFT (R100). -/
def execVecopShiftLeft (a : Fin 512) (s : State) : Out := .next (s.issueRec a (isFunc 0x23))

/-- VECOP_SHIFT_RIGHT_ARITH (R100). -/
def execVecopShiftRightArith (a : Fin 512) (s : State) : Out := .next (s.issueRec a (isFunc 0x24))

/-- VECOP_SHIFT_RIGHT_LOGICAL (R100). -/
def execVecopShiftRightLogical (a : Fin 512) (s : State) : Out := .next (s.issueRec a (isFunc 0x25))

/-- VECOP_SATURATING_ADD (R100). -/
def execVecopSaturatingAdd (a : Fin 512) (s : State) : Out := .next (s.issueRec a (isFunc 0x26))

/-- VECOP_SUM_REDUCE (R101). -/
def execVecopSumReduce (a : Fin 512) (s : State) : Out := .next (s.issueRec a (isFunc 0x30))

/-- VECOP_MAX_REDUCE (R101). -/
def execVecopMaxReduce (a : Fin 512) (s : State) : Out := .next (s.issueRec a (isFunc 0x31))

/-- VECOP_QUANTISE (R81). -/
def execVecopQuantise (a : Fin 512) (s : State) : Out := .next (s.issueRec a (isFunc 0x38))

end Sys2Proof.Machine
end

