-- ==== Sys2Proof/Machine/Rings.lean ====
section
/-! DEFINITION. What the host port holds: fetched descriptors and their completion, completion entries, MSI-X messages (R431 to R444). -/

namespace Sys2Proof.Machine

def State.hport (s : State) (p : Nat) : HostPort := mget s.host.ports p {}
def State.setPort (s : State) (p : Nat) (x : HostPort) : State := { s with host := { s.host with ports := mput s.host.ports p {} x } }
def State.updPort (s : State) (p : Nat) (f : HostPort → HostPort) : State := s.setPort p (f (s.hport p))

/-- The port takes part in traffic that the device initiates: its link is up, Bus Master Enable is set, the function is in D0 (R444). -/
def State.portUp (s : State) (p : Nat) : Bool := (s.hport p).linkUp && (s.hport p).busMaster && !(s.hport p).d3hot

def sqI (p q : Nat) : Nat := p * 256 + q
def cqI (p c : Nat) : Nat := p * 128 + c

/-- A descriptor's name: port, ring, number. -/
abbrev DId := Nat × Nat × Nat

def FDescr.id (f : FDescr) : DId := (f.port, f.sq, f.k)

def State.descr (s : State) (i : DId) : Option FDescr := s.host.descrs.find? (fun f => f.id == i)

def State.updDescr (s : State) (i : DId) (f : FDescr → FDescr) : State :=
  { s with host := { s.host with descrs := s.host.descrs.map (fun d => if d.id = i then f d else d) } }

/-- A write to host memory; what a port cannot write is discarded and counted (R444). -/
def State.toHost (s : State) (p addr : Nat) (bytes : List Byte) (ro : Bool := false) : State :=
  if s.portUp p then s.put (.hostWrite p addr bytes ro) else s.cnt F.hifErr_discarded p

/-- A data write of a descriptor: SCRATCH_READ and TABLE_READ, which alone may set Relaxed Ordering (R439). -/
def State.descrWrite (s : State) (f : FDescr) (addr : Nat) (bytes : List Byte) : State :=
  if f.discard then s.cnt F.hifErr_discarded f.port else s.toHost f.port addr bytes (s.on F.hifCfg_roEn f.port)

/-! ### MSI-X (R443) -/

/-- The vector's mask bit. -/
def State.msixMasked (s : State) (p v : Nat) : Bool := (mget (s.hport p).msix (4 * v + 3) 1).testBit 0

/-- A ring signals its vector; a masked vector becomes pending. -/
def State.signalVec (s : State) (p v : Nat) : State :=
  if s.msixMasked p v then s.updPort p (fun x => { x with msixPend := if x.msixPend.contains v then x.msixPend else v :: x.msixPend })
  else s.put (.msix p v)

/-! ### What the host reads and writes as bytes (R14, R433, R434, R438, R441) -/

/-- Bits of a descriptor's body that its opcode uses (R434). -/
def bodyMask (op : Nat) : Nat :=
  match op with
  | 0x01 => 0xBF03FFFFFF
  | 0x02 => 0x3FFFFFF
  | 0x03 => 0xFFFFFFFF000000BF
  | 0x04 => 0x3F
  | 0x10 => 0xFFFFFFFF
  | 0x11 => 0xFFFFFFFF
  | 0x20 => 0xFFFFFFFFFFFFFFFF
  | 0x21 => 0xFFFFFFFFFFFFFFFF
  | 0x41 => 0xFFFFFFFF
  | _ => 0

/-- A descriptor from its 64 bytes (R433, R434). -/
def descrOf (b : List Byte) : Descr :=
  let v := leNat (b.take 64)
  let w := v / 2 ^ 256
  let op := bitsAt v 0 8
  { opcode := op, wait := v.testBit 8, quiet := v.testBit 9,
    reservedZero := bitsAt v 10 54 == 0 && bitsAt v 233 7 == 0 && (w ||| bodyMask op) == bodyMask op,
    userTag := bitsAt v 64 64, hostAddr := bitsAt v 128 64, len := bitsAt v 192 32, unit := bitsAt v 224 9, handle := bitsAt v 240 16,
    offset := if op = 0x01 || op = 0x02 then bitsAt w 0 26 else if op = 0x20 || op = 0x21 then bitsAt w 0 64 else bitsAt w 0 32,
    ctr := if op = 0x01 then bitsAt w 32 6 else bitsAt w 0 6,
    ctrEn := if op = 0x01 then w.testBit 39 else w.testBit 7,
    value := bitsAt w 32 32 }

/-- A completion entry's 32 bytes (R438). -/
def CEntry.bytes (e : CEntry) (phase : Bool) : List Byte :=
  leBytes 8 e.userTag ++ leBytes 1 e.sq ++ leBytes 1 (b2n phase) ++ leBytes 2 e.slot ++ leBytes 1 e.status ++ leBytes 1 e.detail ++ leBytes 2 0 ++
  leBytes 4 e.value0 ++ leBytes 4 e.value1 ++ leBytes 8 e.time

/-- `KIND`s of R441. -/
def kindNum : UnitKind → Nat
  | .array => 0 | .pack => 1 | .fieldDie => 2 | .hostDie => 3 | .linkPort => 4 | .mgmtDie => 5 | .routerSite => 6 | .island => 7 | .panel => 8

/-- An event record's 64 bytes (R441); `DETAIL` holds each value from its byte on. -/
def EvRec.bytes (r : EvRec) (phase : Bool) : List Byte :=
  leBytes 1 (b2n phase + 2 * r.kind) ++ leBytes 1 0 ++ leBytes 2 r.code ++ leBytes 4 r.seq ++ leBytes 8 r.time ++
  leBytes 2 (r.unit.num + 4096 * kindNum r.unit.kind) ++ leBytes 2 (min r.lost 0xFFFF) ++ leBytes 4 r.count ++
  leBytes 40 ((r.detail.map (fun d => d.2 * 2 ^ (8 * (d.1 - 24)))).sum)

/-! ### Completion rings (R438) -/

/-- Room in a completion ring. -/
def State.cqRoom (s : State) (p c : Nat) : Bool :=
  let i := cqI p c
  s.on F.rngCqCfg_en i &&
    decide ((s.rd F.rngCqStat_prod i + 2 ^ 32 - mget (s.hport p).cqHead c 0 % 2 ^ 32) % 2 ^ 32 < 2 ^ s.rd F.rngCqCfg_log2Size i)

/-- `FULL`: entries are held because the ring has no room. -/
def State.syncFull (s : State) (p c : Nat) : State :=
  s.wr F.rngCqStat_full (cqI p c) (b2n (mget (s.hport p).held c [] != [] && !s.cqRoom p c))

/-- Room for an entry is not asked here: its entry joins those that its completion ring holds. -/
def State.holdEntry (s : State) (f : FDescr) (status detail v0 v1 time : Nat) : State :=
  let q := sqI f.port f.sq
  let c := s.rd F.rngSqCfg_cq q
  let e : CEntry := { userTag := f.d.userTag, sq := f.sq, slot := f.k % 2 ^ s.rd F.rngSqCfg_log2Size q, status := status, detail := detail,
                      value0 := v0 % 2 ^ 32, value1 := v1 % 2 ^ 32, time := time }
  ((s.updDescr f.id (fun d => { d with st := .done })).updPort f.port
    (fun x => { x with held := mset x.held c (mget x.held c [] ++ [(f.k, e)]) })).syncFull f.port c

/-- A descriptor is complete: it leaves its ring (R431, R440). -/
def State.retireDescr (s : State) (f : FDescr) : State :=
  let s1 := { s with host := { s.host with descrs := s.host.descrs.filter (fun d => d.id != f.id) } }
  if f.discard then s1 else s1.wr F.rngSqStat_inflight (sqI f.port f.sq) (s1.rd F.rngSqStat_inflight (sqI f.port f.sq) - 1)

/-- The work of a descriptor is done: its entry is held until it is written; `QUIET` writes none, and the entry of a port that has been
reset is discarded (R433, R438, R444). -/
def State.finish1 (s : State) (i : DId) (status detail v0 v1 time : Nat) : State :=
  match s.descr i with
  | none => s
  | some f =>
    if f.st == .done then s
    else if f.d.quiet && status == 0 then s.retireDescr f
    else if f.discard then (s.retireDescr f).cnt F.hifErr_discarded f.port
    else s.holdEntry f status detail v0 v1 time

/-- As `finish1`; where no entry waits to be written, the stops that follow a region's start complete too (R436). -/
def State.complete (s : State) (i : DId) (status detail v0 v1 time : Nat) : State :=
  let after := match s.descr i with | some f => f.after | none => []
  let s1 := s.finish1 i status detail v0 v1 time
  if (s1.descr i).isSome then s1 else s1.each after (fun s j => s.finish1 j 0 0 0 0 s.now)

/-- A descriptor completes now, with a status alone. -/
def State.fin (s : State) (i : DId) (status : Nat) : State := s.complete i status 0 0 0 s.now

/-- COMPLETION_ENTRY_WRITE (R438, R443). -/
def execCompletionEntryWrite (port : Fin 2) (cq : Fin 128) (s : State) : Out :=
  match mget (s.hport port).held cq [] with
  | [] => .next s
  | (k, e) :: rest =>
    if s.rd F.monSitStat_state 0 != 0 && s.sit.all || !s.portUp port || !s.cqRoom port cq then .next s
    else
      let i := cqI port cq
      let n := s.rd F.rngCqStat_prod i
      let size := 2 ^ s.rd F.rngCqCfg_log2Size i
      let s1 := (s.put (.hostWrite port (s.rd F.rngCqBase_addr i + 32 * (n % size)) (e.bytes (n / size % 2 == 0)))).wr F.rngCqStat_prod i (n + 1)
      let u := mget (s.hport port).unsignalled cq 0 + 1
      let ic := s.rd F.rngCqCfg_intCnt i
      let sig := ic != 0 && decide (ic ≤ u)
      let s2 := s1.updPort port (fun x => { x with held := mput x.held cq [] rest, unsignalled := mput x.unsignalled cq 0 (if sig then 0 else u) })
      let s3 := if sig then s2.signalVec port (s.rd F.rngCqCfg_vec i) else s2
      let s4 := s3.syncFull port cq
      .next (match s4.descr (port, e.sq, k) with
        | none => s4
        | some f => (s4.retireDescr f).each f.after (fun s j => s.finish1 j 0 0 0 0 s.now))

/-- MSIX_TIMEOUT (R443): the oldest unsignalled entry of a ring has waited `INT_US`; no ring named: the event ring. -/
def execMsixTimeout (port : Fin 2) (cq : Option (Fin 128)) (s : State) : Out :=
  match cq with
  | some c =>
    let i := cqI port c
    if mget (s.hport port).unsignalled c 0 == 0 || s.rd F.rngCqCfg_intUs i == 0 || s.rd F.rngCqCfg_intCnt i == 0 || !s.portUp port then .next s
    else .next ((s.updPort port (fun x => { x with unsignalled := mdel x.unsignalled c })).signalVec port (s.rd F.rngCqCfg_vec i))
  | none =>
    if s.rd F.rngEvtCfg_port 0 != port || s.host.evUnsignalled == 0 || s.rd F.rngEvtCfg_intUs 0 == 0 || s.rd F.rngEvtCfg_intCnt 0 == 0 ||
      !s.portUp port then .next s
    else .next ({ s with host := { s.host with evUnsignalled := 0 } }.signalVec port (s.rd F.rngEvtCfg_vec 0))

/-! ### The event ring (R441, R442) -/

/-- Write held records while the ring has room. -/
def State.writeRecords (s : State) : Nat → State
  | 0 => s
  | fuel + 1 =>
    match s.host.evHeld with
    | [] => s
    | r :: rest =>
      let size := 2 ^ s.rd F.rngEvtCfg_log2Size 0
      let n := s.rd F.rngEvtStat_prod 0
      if size ≤ (n + 2 ^ 32 - s.host.evHead % 2 ^ 32) % 2 ^ 32 then s
      else
        let port := s.rd F.rngEvtCfg_port 0
        let s1 := (s.put (.hostWrite port (s.rd F.rngEvtBase_addr 0 + 64 * (n % size))
          ({ r with lost := s.host.evLost }.bytes (n / size % 2 == 0)))).wr F.rngEvtStat_prod 0 (n + 1)
        let u := s.host.evUnsignalled + 1
        let ic := s.rd F.rngEvtCfg_intCnt 0
        let sig := ic != 0 && decide (ic ≤ u)
        let s2 := { s1 with host := { s1.host with evHeld := rest, evLost := 0, evUnsignalled := if sig then 0 else u } }
        (if sig then s2.signalVec port (s.rd F.rngEvtCfg_vec 0) else s2).writeRecords fuel

/-- EVENT_RECORD_WRITE (R442). -/
def execEventRecordWrite (s : State) : Out :=
  if !s.on F.rngEvtCfg_en 0 || !s.portUp (s.rd F.rngEvtCfg_port 0) then .next s
  else .next (s.writeRecords s.host.evHeld.length)

end Sys2Proof.Machine
end

