-- ==== Sys2Proof/Machine/Leader.lean ====
section
/-! DEFINITION. Region leaders: step starts, reports, deadlines, re-runs, backups, cancels, the report block, the end of a region (R153 to
R161, R436, R475, R485, R490, R498 to R502). -/

namespace Sys2Proof.Machine

def Region.list (g : Region) : List Nat := maskList g.members 512
def State.regionOf (s : State) (l : Nat) : Option Region := mfind s.regions l
def State.setRegion (s : State) (l : Nat) (g : Region) : State := { s with regions := mset s.regions l g }
def Region.now (g : Region) : StepEntry := g.table.getD g.entry {}

/-- Members of an attempt that have neither reported nor been lost. -/
def Region.waiting (g : Region) : List Nat := g.list.filter (fun m => (mfind g.reported m).isNone && !g.lost.contains m)

/-- A leader message without a reply. -/
def State.leaderTell (s : State) (a toU : Nat) (m : StepMsg) : State :=
  s.sendTc0 { body := .stepMsg m, cls := 0, noack := true, dst := .tile toU, src := .tile a }

/-- A leader message that is acknowledged. -/
def State.leaderAsk (s : State) (a toU : Nat) (m : StepMsg) : State :=
  s.requestTc0 { src := .tile a, array := a } { body := .stepMsg m, cls := 0, dst := .tile toU, src := .tile a }

/-! ### The report block (R155) -/

def reportBytes (g : Region) (state t : Nat) : List Byte :=
  leBytes 4 g.last.id ++ leBytes 1 g.last.attempt ++ leBytes 1 g.last.status ++ leBytes 1 state ++ leBytes 1 0 ++ leBytes 4 g.last.tag ++
  leBytes 4 g.last.addr ++ leBytes 2 g.last.member ++ leBytes 2 0 ++ leBytes 4 g.serial ++ leBytes 8 t ++ leBytes 4 g.stepsOk ++
  leBytes 4 g.reruns ++ leBytes 4 g.backups ++ List.replicate 20 0

/-- Write the block; for `STATE` 4 through the maintenance port. -/
def State.writeReport (s : State) (l : Nat) (g : Region) (state : Nat) : State :=
  if s.packDark (arrPack l) then s
  else (s.tryWrite l 0 (if state = 4 then .maint else .own) g.report (reportBytes g state s.now)).2

/-! ### The end of a region -/

/-- Completion status of a region start by the `STATE` of its report block (R435, R436, R475). -/
def startStatus (state : Nat) : Nat := match state with
  | 1 => 0x00
  | 2 => 0x0C
  | _ => 0x0D

/-- A standby leader has ended a backup: its primary need not wait for it any more (R502). -/
def State.backupOver (s : State) (g : Region) : State :=
  match g.backupOf with
  | none => s
  | some (p, _, id, _) => match s.regionOf p with
    | none => s
    | some q => if q.stepId = id then s.setRegion p { q with backupBusy := false } else s

/-- The region stops: members freed, block written, start completed, then every stop that asked for it. -/
def State.endRegion (s : State) (l state : Nat) (detail : Option Nat) : State :=
  match s.regionOf l with
  | none => s
  | some g =>
    let s1 := { s with regions := mdel s.regions l }
    let s2 := s1.each g.list (fun s m => s.updArr m (fun x => { x with member := none }))
    let s3 := (s2.backupOver g).writeReport l g state
    let s4 := s3.when (state == 2) (fun s => s.bark 0x001C { kind := .array, num := l }
      [(24, g.last.status), (25, g.last.attempt), (28, g.last.id), (32, g.last.tag)])
    let s5 := if (s4.descr g.descr).isSome then s4.updDescr g.descr (fun d => { d with after := g.stopBy })
      else s4.each g.stopBy (fun s i => s.fin i 0)
    s5.complete g.descr (startStatus state) (detail.getD g.last.status) g.last.id g.last.attempt s.now

/-! ### Attempts -/

/-- Send a step-start to every member (R158). -/
def State.sendStarts (s : State) (l : Nat) (ms : List Nat) (m : StepMsg) : State := s.each ms (fun s a => s.leaderAsk l a m)

/-- Start an attempt of the present entry. -/
def State.startAttempt (s : State) (l : Nat) : State :=
  match s.regionOf l with
  | none => s
  | some g =>
    let e := g.now
    let d := if e.deadline = 0 then 0 else s.now + e.deadline
    (s.setRegion l { g with phase := .running, reported := [], committed := [], lost := [], outcome := {}, unsafeSub := false,
                            backupAsked := false, backupBusy := false, deadline := d }).sendStarts l g.list
      (.stepStart g.stepId g.attempt e.entry g.serial e.ctrClear d)

/-- The present entry's trigger is met: the next step begins. -/
def State.fireEntry (s : State) (l : Nat) : State :=
  match s.regionOf l with
  | none => s
  | some g => (s.setRegion l { g with stepId := (g.stepId + 1) % 2 ^ 32, attempt := 0 }).startAttempt l

/-- Go on to the entry that the region has reached: it ends, is held, waits for its trigger, or starts. -/
def State.nextEntry (s : State) (l : Nat) : State :=
  match s.regionOf l with
  | none => s
  | some g =>
    if g.stopBy != [] then s.endRegion l 3 none
    else if g.table.length ≤ g.entry && !g.loop then s.endRegion l 1 none
    else
      let g := if g.table.length ≤ g.entry then { g with entry := 0 } else g
      if g.holds != [] then s.setRegion l { g with phase := .held false }
      else if g.now.trigEn then s.setRegion l { g with phase := .trigger }
      else (s.setRegion l g).fireEntry l

/-- Cancel the members of an attempt that have not reported, and the backup, if one runs (R159, R502). -/
def State.cancelRest (s : State) (l : Nat) (g : Region) : State :=
  let s1 := s.each g.waiting (fun s m => s.leaderAsk l m (.cancel g.stepId))
  if g.backupBusy then s1.leaderAsk l g.now.standby (.cancel g.stepId) else s1

/-- Statuses that allow a re-run (R160). -/
def rerunStatus (st : Nat) : Bool := [0x06, 0x07, 0x08, 0x0A, 0x0B, 0x0C, 0x0F].contains st

/-- A request of an array other than a leader message is unanswered. -/
def State.unacked (s : State) (m : Nat) : Bool := s.reqs.any (fun r => r.2.array == m && r.2.flight != 0 && r.2.src == .tile m)

/-- A failed attempt: once every survivor has reported and drained, the backup has ended and fences have settled, the region stops, or,
where `go` says so, the next attempt starts (R159, R436, R490, R502). -/
def State.leaderCheck (s : State) (l : Nat) (go : Bool) : State :=
  match s.regionOf l with
  | none => s
  | some g =>
    if g.phase != .draining || g.waiting != [] || g.backupBusy || g.reported.any (fun p => s.unacked p.1) then s
    else
      let st := g.outcome.status
      if g.stopBy != [] then (s.setRegion l { g with last := g.outcome }).endRegion l 3 none
      else if rerunStatus st && (g.fencedOpen != [] || g.resetting != []) then s
      else if g.vacant || ((st == 0x08 || st == 0x0B) && g.unsafeSub) then
        (s.setRegion l { g with last := g.outcome }).endRegion l 2 (some 0x0B)
      else if !rerunStatus st || 3 ≤ g.attempt then (s.setRegion l { g with last := g.outcome }).endRegion l 2 none
      else if !go then s
      else
        let g1 := { g with last := g.outcome }
        let s1 := s.writeReport l g1 0
        let g2 := { g1 with reruns := (g.reruns + 1) % 2 ^ 32, attempt := g.attempt + 1 }
        if g.holds != [] then s1.setRegion l { g2 with phase := .held true } else (s1.setRegion l g2).startAttempt l

/-- The attempt's outcome is failed: the first failure settles it (R159). -/
def State.failAttempt (s : State) (l st tag addr member : Nat) : State :=
  match s.regionOf l with
  | none => s
  | some g =>
    if g.phase != .running then s
    else
      let g1 := { g with phase := .draining,
                         outcome := { id := g.stepId, attempt := g.attempt, status := st, tag := tag, addr := addr, member := member } }
      ((s.setRegion l g1).cancelRest l g1).leaderCheck l false

/-- Every member has reported ok or superseded, or its counterpart has committed (R159). -/
def Region.allOk (g : Region) : Bool :=
  (g.list.zip (List.range g.list.length)).all (fun p =>
    (match mfind g.reported p.1 with | some st => st == 0 || st == 0x0D | none => false) || g.committed.contains p.2)

/-- The attempt's outcome is ok. -/
def State.settleOk (s : State) (l : Nat) : State :=
  match s.regionOf l with
  | none => s
  | some g =>
    let g1 := { g with last := { id := g.stepId, attempt := g.attempt }, stepsOk := (g.stepsOk + 1) % 2 ^ 32 }
    let s1 := (s.cancelRest l g1).writeReport l g1 0
    (s1.setRegion l { g1 with entry := g.entry + 1 }).nextEntry l

/-- A member drops out of the running attempt: fenced, in reset, or its step-start came back (R159, R160). -/
def State.loseMember (s : State) (l m st : Nat) : State :=
  match s.regionOf l with
  | none => s
  | some g =>
    let s1 := s.setRegion l { g with lost := if g.lost.contains m then g.lost else m :: g.lost }
    if g.phase == .running then s1.failAttempt l st 0 0 m else s1.leaderCheck l false

/-! ### The standby side (R500 to R502) -/

/-- The standby leader has ended a backup: the primary may go on, and so may its own table. -/
def State.endBackup (s : State) (l : Nat) : State :=
  match s.regionOf l with
  | none => s
  | some g =>
    let s1 := (s.backupOver g).setRegion l { g with backupOf := none, backupBad := false, reported := [], lost := [] }
    let s2 := match g.backupOf with
      | some (p, _, _, _) => s1.leaderCheck p false
      | none => s1
    s2.nextEntry l

def State.checkBackup (s : State) (l : Nat) : State :=
  match s.regionOf l with
  | none => s
  | some g => if g.phase == .standby && g.waiting == [] then s.endBackup l else s

/-- A standby member failed: the others are cancelled, and the primary is told. -/
def State.failBackup (s : State) (l : Nat) : State :=
  match s.regionOf l with
  | none => s
  | some g => match g.backupOf with
    | none => s
    | some (p, _, id, _) =>
      if g.backupBad then s
      else ((s.setRegion l { g with backupBad := true }).each g.waiting (fun s m => s.leaderAsk l m (.cancel id))).leaderTell l p (.backupFailed id)

/-- A standby member drops out. -/
def State.loseStandby (s : State) (l m : Nat) : State :=
  match s.regionOf l with
  | none => s
  | some g => ((s.setRegion l { g with lost := if g.lost.contains m then g.lost else m :: g.lost }).failBackup l).checkBackup l

/-! ### Events of a member as its leader sees them -/

/-- A member has been fenced, or a reset of it has taken effect (R159, R475, R490). -/
def State.memberGone (s : State) (m : Nat) (reset : Bool) : State :=
  match (s.arr m).member with
  | none => s
  | some (l, _) => match s.regionOf l with
    | none => s
    | some g =>
      let g1 := if reset then { g with resetting := g.resetting ++ [m] } else { g with fencedOpen := g.fencedOpen ++ [m] }
      let s1 := s.setRegion l g1
      match g.phase with
      | .running => s1.loseMember l m 0x0B
      | .draining => s1.loseMember l m 0x0B
      | .standby => s1.loseStandby l m
      | _ => s1

/-- A member's fence has ended in substitution, vacancy or return, or its reset has completed. -/
def State.memberBack (s : State) (m : Nat) (reset unsafeSub vacant : Bool) : State :=
  match (s.arr m).member with
  | none => s
  | some (l, _) => match s.regionOf l with
    | none => s
    | some g =>
      let g1 := if reset then { g with resetting := g.resetting.filter (· != m) } else { g with fencedOpen := g.fencedOpen.filter (· != m) }
      (s.setRegion l { g1 with unsafeSub := g1.unsafeSub || unsafeSub, vacant := g1.vacant || vacant }).leaderCheck l false

/-- The leader of a running region is reset or fenced (R475, R486): the region ends. -/
def State.leaderGone (s : State) (l : Nat) : State :=
  match s.regionOf l with
  | none => s
  | some g =>
    let ms := if g.phase == .running || g.phase == .draining || g.phase == .standby then g.waiting else []
    let id := match g.backupOf with | some (_, _, id, _) => id | none => g.stepId
    let last := match g.phase with
      | .running => { id := g.stepId, attempt := g.attempt, status := 0x0E : StepResult }
      | .draining => g.outcome
      | _ => g.last
    ((s.each ms (fun s m => s.leaderAsk l m (.cancel id))).setRegion l { g with last := last }).endRegion l 4 (some 0x0E)

/-- The region's leader holds the next step-start for a swap or a test (R493, R495). -/
def State.holdRegion (s : State) (a : Nat) : State :=
  let l := match (s.arr a).member with | some (l, _) => l | none => a
  match s.regionOf l with
  | none => s
  | some g =>
    let g1 := { g with holds := if g.holds.contains a then g.holds else g.holds ++ [a] }
    s.setRegion l (if g.phase == .trigger then { g1 with phase := .held false } else g1)

/-- The swap or test may begin: the array belongs to no running region, or its leader is between steps. -/
def State.heldOk (s : State) (a : Nat) : Bool :=
  let l := match (s.arr a).member with | some (l, _) => l | none => a
  match s.regionOf l with
  | none => true
  | some g => (match g.phase with | .held _ => true | _ => false)

/-- The hold ends; the held step-start goes out once no other hold stands. -/
def State.releaseRegion (s : State) (a : Nat) : State :=
  let l := match (s.arr a).member with | some (l, _) => l | none => a
  match s.regionOf l with
  | none => s
  | some g =>
    let g1 := { g with holds := g.holds.filter (· != a) }
    let s1 := s.setRegion l g1
    if g1.holds != [] then s1
    else match g.phase with
      | .held true => s1.startAttempt l
      | .held false => s1.nextEntry l
      | _ => s1

/-! ### The commands of a leader -/

/-- LEADER_TRIGGER (R159): the trigger counter has reached `TRIG_COUNT`, which is consumed. -/
def execLeaderTrigger (a : Fin 512) (s : State) : Out :=
  match s.regionOf a with
  | none => .next s
  | some g =>
    let e := g.now
    let v := s.rd F.tmCtr_value (a * 64 + e.trigCtr)
    if g.phase != .trigger || v < e.trigCount || s.halted (s.arrIsland a) then .next s
    else .next ((s.wr F.tmCtr_value (a * 64 + e.trigCtr) (v - e.trigCount)).fireEntry a)

/-- MN is told of an attempt that one member is to blame for (R485). -/
def State.attribute (s : State) (m : Nat) : State := { s with faults := { s.faults with attributed := s.faults.attributed ++ [m] } }

/-- A member's report meets the attempt that is open (R159, R485). -/
def State.ownReport (s : State) (l m status tag addr : Nat) (g : Region) : State :=
  let s1 := s.setRegion l { g with reported := mset g.reported m status }
  let good := status == 0 || status == 0x0D
  let s2 := if good then { s1 with faults := { s1.faults with stepFails := mdel s1.faults.stepFails m } }
    else if status == 0x06 then s1.attribute m else s1
  if g.phase == .draining then s2.leaderCheck l false
  else if good then (match s2.regionOf l with
    | some h => if h.allOk then s2.settleOk l else s2
    | none => s2)
  else if status == 0x0E then s2
  else s2.failAttempt l status tag addr m

/-- A standby member's report (R501, R502). -/
def State.standbyReport (s : State) (l m status : Nat) (g : Region) (p id attempt : Nat) : State :=
  let s1 := s.setRegion l { g with reported := mset g.reported m status }
  let s2 := if status == 0 then s1.leaderTell l p (.commitNotice id attempt (g.list.findIdx (· == m)))
    else if status == 0x0D || status == 0x0E then s1 else s1.failBackup l
  s2.checkBackup l

/-- STEP_REPORT (R159). A report of another attempt, or a second one, changes nothing, and neither
does a not-member notice. -/
def execStepReport (pkt : Packet) (s : State) : Out :=
  match pkt.body, pkt.src with
  | .stepMsg (.report id attempt status tag addr), .tile m =>
    s.atTile pkt (fun l s =>
      let s := s.ack pkt
      match s.regionOf l with
      | none => s
      | some g =>
        if !g.list.contains m || (mfind g.reported m).isSome then s
        else match g.phase, g.backupOf with
          | .standby, some (p, _, bid, batt) => if id = bid && attempt = batt then s.standbyReport l m status g p bid batt else s
          | .running, _ => if id = g.stepId && attempt = g.attempt then s.ownReport l m status tag addr g else s
          | .draining, _ => if id = g.stepId && attempt = g.attempt then s.ownReport l m status tag addr g else s
          | _, _ => s)
  | .stepMsg (.notMember _), _ => s.atTile pkt (fun _ s => s)
  | _, _ => .next s

/-- STEP_DEADLINE (R159, R485): the deadline has passed with the outcome open. -/
def execStepDeadline (a : Fin 512) (s : State) : Out :=
  match s.regionOf a with
  | none => .next s
  | some g =>
    if g.phase != .running || g.deadline = 0 || s.halted (s.arrIsland a) then .next s
    else
      let s1 := match g.list.filter (fun m => (mfind g.reported m).isNone) with
        | [m] => s.attribute m
        | _ => s
      .next (s1.failAttempt a 0x0C 0 0 0x1FF)

/-- RERUN_START (R159, R490). -/
def execRerunStart (a : Fin 512) (s : State) : Out :=
  .next (if s.halted (s.arrIsland a) then s else s.leaderCheck a true)

/-- BACKUP_TIMER (R499): at most one request for each attempt. -/
def execBackupTimer (a : Fin 512) (s : State) : Out :=
  match s.regionOf a with
  | none => .next s
  | some g =>
    let e := g.now
    if g.phase != .running || s.halted (s.arrIsland a) || g.backupAsked || e.backupPct = 0 || !e.standbyEn || e.deadline = 0 then .next s
    else
      let s1 := s.setRegion a { g with backupAsked := true, backupBusy := true, backups := (g.backups + 1) % 2 ^ 32 }
      .next ((s1.cnt F.fltBackup_requested).leaderAsk a e.standby
        (.backupRequest g.stepId g.attempt a e.entry g.serial e.ctrClear g.deadline))

/-- BACKUP_REQUEST (R500). -/
def execBackupRequest (pkt : Packet) (s : State) : Out :=
  match pkt.body with
  | .stepMsg (.backupRequest id attempt primary entry serial clear deadline) =>
    s.atTile pkt (fun l s =>
      let s := s.ack pkt
      let size := match s.regionOf primary with | some p => p.list.length | none => 0
      match s.regionOf l with
      | none => s.leaderTell l primary (.backupRefused id)
      | some g =>
        if g.phase != .trigger || g.list.length != size then s.leaderTell l primary (.backupRefused id)
        else
          (s.setRegion l { g with phase := .standby, backupOf := some (primary, serial, id, attempt), backupBad := false, reported := [],
                                  lost := [] }).sendStarts l g.list (.stepStart id attempt entry serial clear deadline))
  | _ => .next s

/-- The primary learns that no backup runs. -/
def State.noBackup (s : State) (l id : Nat) : State :=
  match s.regionOf l with
  | none => s
  | some g => if g.stepId = id && g.backupBusy then (s.setRegion l { g with backupBusy := false }).leaderCheck l false else s

/-- BACKUP_REFUSED (R500). -/
def execBackupRefused (pkt : Packet) (s : State) : Out :=
  match pkt.body with
  | .stepMsg (.backupRefused id) => s.atTile pkt (fun l s => (s.cnt F.fltBackup_refused).noBackup l id)
  | _ => .next s

/-- COMMIT_NOTICE (R501). -/
def execCommitNotice (pkt : Packet) (s : State) : Out :=
  match pkt.body with
  | .stepMsg (.commitNotice id _ rank) =>
    s.atTile pkt (fun l s =>
      let s := s.cnt F.fltBackup_won
      match s.regionOf l with
      | none => s
      | some g =>
        if g.phase != .running || g.stepId != id then s
        else
          let g1 := { g with committed := if g.committed.contains rank then g.committed else rank :: g.committed }
          let s1 := s.setRegion l g1
          if g1.allOk then s1.settleOk l else s1)
  | _ => .next s

/-- BACKUP_FAILED (R502): the primary continues alone. -/
def execBackupFailed (pkt : Packet) (s : State) : Out :=
  match pkt.body with
  | .stepMsg (.backupFailed _) => s.atTile pkt (fun _ s => s.cnt F.fltBackup_failed)
  | _ => .next s

/-! ### The commands of a member -/

/-- A member begins an attempt (R106, R156, R158, R295, R302). -/
def State.beginStep (s : State) (a : Nat) (run : StepRun) (clear : Nat) : State :=
  let s1 := s.ctrClear a clear
  let s2 := s1.each (List.range 64) (fun s e => if s.epRole a e = 5 then s.combIdle a e else s)
  let s3 := s2.each (List.range 64) (fun s e =>
    if s.on F.chEp_autoOpen (epKey a e) && !s.epOpen a e && ((s.ep a e).wasOpen || s.rd F.chEpState_state (epKey a e) == 2) then s.openEp a e else s)
  s3.updArr a (fun x => { x with gate := {}, run := some run })

/-- STEP_START (R157, R158). One of its own leader waits while the array still ends an earlier step. -/
def execStepStart (pkt : Packet) (s : State) : Out :=
  match pkt.body, pkt.src, pkt.dst with
  | .stepMsg (.stepStart id attempt entry serial clear deadline), .tile l, .tile m =>
    let own := match (s.arr m).member with
      | some (x, _) => x == l
      | none => false
    if (s.arr m).run.isSome && own && s.arrOk m && !s.inReset m then .next s
    else s.atTile pkt (fun a s =>
      let s := s.ack pkt
      match (s.arr a).member with
      | some (x, _) =>
        if x = l then s.beginStep a { leader := l, serial := serial, id := id, attempt := attempt, deadline := deadline, next := entry } clear
        else s.leaderTell a l (.notMember id)
      | none => s.leaderTell a l (.notMember id))
  | _, _, _ => .next s

/-- A COMMIT in its unit's queue that needs no token (R153, R161). -/
def Flight.freeCommit (f : Flight) : Bool := f.await == .start && recKind f.record == some .commit && Rf f.record 10 7 1 == 0

/-- A COMMIT that a cancel lets run, or that has run, is the last record before END (R161; log entry 88). -/
def State.commitLast (s : State) (a : Nat) (run : StepRun) (l : List Flight) : Bool :=
  (run.granted ++ (l.filter Flight.freeCommit).map (·.addr)).any (fun p =>
    if run.next = p + 64 then
      let (st, b, _) := s.tryRead a 0 .own run.next 64
      st == 0 && recKind (BitVec.ofNat 512 (leNat b)) == some .endStep
    else l.any (fun f => f.addr == p + 64 && recKind f.record == some .endStep))

/-- One record in flight meets a cancel (R161, R308). -/
def State.cancelFlight (s : State) (a : Nat) (f : Flight) : State :=
  match f.await with
  | .start => if f.freeCommit then s else s.dropFlight a f.n
  | .counter .. => s.dropFlight a f.n
  | .fence => s.dropFlight a f.n
  | .token => s.dropFlight a f.n
  | .answer e => (s.endSend a e f.n 0x0A false (s.ep a e).peerEpoch (s.epPeer a e).1).dropFlight a f.n
  | .item e =>
    let s1 := s.endIO a f.n (statusWord 0x0A false false 0 (s.epEpoch a e) 0)
    (if s.epRole a e = 5 then s1.combIdle a e else s1).dropFlight a f.n
  | .reduce g => (s.redLeave a g).dropFlight a f.n
  | _ => s

/-- A member is cancelled; a combining endpoint that holds a batch returns to idle (R308). -/
def State.cancelRun (s : State) (a : Nat) (run : StepRun) : State :=
  let fl := (s.arr a).flights
  let last := s.commitLast a run fl
  let s1 := s.updRun a (fun r => { r with issuing := false, cancelled := true, commitLast := last })
  let s2 := s1.each fl (fun s f => s.cancelFlight a f)
  let s3 := s2.each (List.range 64) (fun s e => if s.epRole a e == 5 && s.on F.chEpState_batch (epKey a e) then s.combIdle a e else s)
  (s3.pump a 64).settle a

/-- CANCEL (R157, R161, R502). A cancel of a step that has already been reported, or that never began, changes nothing. A member whose region
has ended since obeys the leader whose step it still runs (R159). -/
def execCancel (pkt : Packet) (s : State) : Out :=
  match pkt.body, pkt.src with
  | .stepMsg (.cancel id), .tile l =>
    s.atTile pkt (fun a s =>
      let s := s.ack pkt
      let backup := match s.regionOf a with
        | some g => (match g.backupOf with | some (p, _, bid, _) => if p = l && bid = id then some g else none | none => none)
        | none => none
      match backup with
      | some g => s.each g.waiting (fun s m => s.leaderAsk a m (.cancel id))
      | none =>
        let own := match (s.arr a).member with
          | some (x, _) => x == l
          | none => false
        match (s.arr a).run with
        | some run =>
          if run.leader = l && run.id = id then (if run.cancelled then s else s.cancelRun a run)
          else if own then s else s.leaderTell a l (.notMember id)
        | none => if own then s else s.leaderTell a l (.notMember id))
  | _, _ => .next s

end Sys2Proof.Machine
end

