-- ==== Sys2Proof/Machine/Regfile.lean ====
section
/-! DEFINITION. Writing BAR0 registers field by field: access codes, reserved bits and encodings, partial writes (R18 to R21, R425). -/

namespace Sys2Proof.Machine

/-- Registers that hold a base address: bits [11:0] are reserved (R446, R555). -/
def isBase (r : Reg) : Bool := [Reg.rngDbBase, .rngEvtBase, .rngFrxBase, .rngSqBase, .rngCqBase, .monRoBase].contains r

/-- Bits `m` of `old` taken from `v`. -/
def mixBits (old v m : Nat) : Nat := (old ^^^ (old &&& m)) ||| (v &&& m)

def fullMask : Nat := 0xFFFFFFFFFFFFFFFF

/-- The bits of a field that a write under the bit mask `m` reaches. -/
def fldMask (f : Fld) (m : Nat) : Nat := bitsAt (if isBase f.reg then m ^^^ (m &&& 0xFFF) else m) f.lo f.w

/-- A write of `v` gives this RW field a reserved encoding (R20). -/
def State.fldReserved (s : State) (f : Fld) (i v m : Nat) : Bool :=
  let new := mixBits (s.rd f i) (bitsAt v f.lo f.w) (fldMask f m)
  f.acc = .rw && fldMask f m != 0 && (decide (new < f.min) || decide (f.max < new))

/-- One field of a write of `v` under the bit mask `m`: RW stores, a reserved encoding leaves the field, W1C clears (R18, R20). -/
def State.storeFld (s : State) (f : Fld) (i v m : Nat) : State :=
  let m1 := fldMask f m
  if m1 = 0 then s
  else
    let old := s.rd f i
    match f.acc with
    | .rw =>
      let new := mixBits old (bitsAt v f.lo f.w) m1
      if new < f.min || f.max < new then s else s.wr f i new
    | .w1c => s.wr f i (old ^^^ (old &&& bitsAt v f.lo f.w &&& m1))
    | _ => s

/-- A write of instance `i` of a register: field by field, and one reserved-write record naming the register where any field's encoding is
reserved (R20). -/
def State.storeReg (s : State) (r : Reg) (i v m : Nat) : State :=
  ((regFields r).foldl (fun s f => s.storeFld f i v m) s).when ((regFields r).any (fun f => s.fldReserved f i v m))
    (fun s => s.reservedWrite (regOff r i))

/-- A write whose encoding of one field is reserved where `bad` says so beside the field's own range (R20, R277, R535). -/
def State.storeRegBut (s : State) (r : Reg) (g : Fld) (bad : Bool) (i v m : Nat) : State :=
  ((regFields r).foldl (fun s f => if bad && f == g then s else s.storeFld f i v m) s).when
    (bad || (regFields r).any (fun f => s.fldReserved f i v m)) (fun s => s.reservedWrite (regOff r i))

/-- The value of a field after a write, if nothing refused it. -/
def State.newFld (s : State) (f : Fld) (i v m : Nat) : Nat :=
  let new := mixBits (s.rd f i) (bitsAt v f.lo f.w) (bitsAt m f.lo f.w)
  if new < f.min || f.max < new then s.rd f i else new

/-- A write refused as a whole: the register stays, and a reserved-write record names it (R447). -/
def State.refuseReg (s : State) (r : Reg) (i : Nat) : State := s.reservedWrite (regOff r i)

/-! ### Ring registers (R431, R446, R447) -/

/-- A write to `RNG_SQ_BASE_s`. -/
def State.wrSqBase (s : State) (i v m : Nat) : State :=
  if s.on F.rngSqCfg_en i || s.rd F.rngSqStat_inflight i != 0 then s.refuseReg .rngSqBase i else s.storeReg .rngSqBase i v m

/-- A write to `RNG_SQ_CFG_s`: setting `EN` starts `CONS` at 0, clearing it stops fetching and clears `ERR`. -/
def State.wrSqCfg (s : State) (i v m : Nat) : State :=
  let en := s.on F.rngSqCfg_en i
  let busy := s.rd F.rngSqStat_inflight i != 0
  let new := s.newFld F.rngSqCfg_en i v m != 0
  let moves := s.newFld F.rngSqCfg_log2Size i v m != s.rd F.rngSqCfg_log2Size i || s.newFld F.rngSqCfg_cq i v m != s.rd F.rngSqCfg_cq i ||
    s.newFld F.rngSqCfg_part i v m != s.rd F.rngSqCfg_part i
  if (moves && (en || busy)) || (new && !en && busy) then s.refuseReg .rngSqCfg i
  else
    let s1 := s.storeReg .rngSqCfg i v m
    let s2 := if new && !en then (s1.wr F.rngSqStat_cons i 0).updPort (i / 256) (fun x => { x with prod := mdel x.prod (i % 256) }) else s1
    if new then s2 else s2.wr F.rngSqStat_err i 0

/-- A write to `RNG_CQ_BASE_c`. -/
def State.wrCqBase (s : State) (i v m : Nat) : State :=
  if s.on F.rngCqCfg_en i && mixBits (s.rd F.rngCqBase_addr i) v (m ^^^ (m &&& 0xFFF)) != s.rd F.rngCqBase_addr i then s.refuseReg .rngCqBase i
  else s.storeReg .rngCqBase i v m

/-- A write to `RNG_CQ_CFG_c`: setting `EN` starts `PROD` at 0. -/
def State.wrCqCfg (s : State) (i v m : Nat) : State :=
  let en := s.on F.rngCqCfg_en i
  let new := s.newFld F.rngCqCfg_en i v m != 0
  let p := i / 128
  let named := (List.range 256).any (fun q => s.on F.rngSqCfg_en (sqI p q) && s.rd F.rngSqCfg_cq (sqI p q) == i % 128)
  if en && ((!new && named) || s.newFld F.rngCqCfg_log2Size i v m != s.rd F.rngCqCfg_log2Size i) then s.refuseReg .rngCqCfg i
  else
    let s1 := s.storeReg .rngCqCfg i v m
    let s2 := if new && !en then
        (s1.wr F.rngCqStat_prod i 0).updPort p (fun x => { x with cqHead := mdel x.cqHead (i % 128), unsignalled := mdel x.unsignalled (i % 128) })
      else s1
    s2.syncFull p (i % 128)

/-- A write to the base or the configuration of the event or the field receive ring. -/
def State.wrRing (s : State) (r : Reg) (en size base : Fld) (v m : Nat) : State :=
  let moves := if r = base.reg then mixBits (s.rd base 0) v (m ^^^ (m &&& 0xFFF)) != s.rd base 0
    else s.newFld size 0 v m != s.rd size 0
  if s.on en 0 && moves then s.refuseReg r 0 else s.storeReg r 0 v m

/-- A write to `PRT_MAP_w`: refused where it moves a pack that holds a member of a running region. -/
def State.wrPrtMap (s : State) (w v m : Nat) : State :=
  let old := s.rd F.prtMap_part w
  let new := mixBits old v m
  let moved := (List.range 16).filter (fun k => bitsAt old (4 * k) 4 != bitsAt new (4 * k) 4)
  if moved.any (fun k => (packArrays (16 * w + k)).any s.isMember) then s.refuseReg .prtMap w else s.storeReg .prtMap w v m

/-- RNG_SQ_CFG_WRITE (R447). -/
def execRngSqCfgWrite (port : Fin 2) (sq : Fin 256) (value : BitVec 64) (s : State) : Out :=
  s.bar port .host (fun s => s.wrSqCfg (sqI port sq) value.toNat fullMask)

/-- RNG_CQ_CFG_WRITE (R447). -/
def execRngCqCfgWrite (port : Fin 2) (cq : Fin 128) (value : BitVec 64) (s : State) : Out :=
  s.bar port .host (fun s => s.wrCqCfg (cqI port cq) value.toNat fullMask)

/-- PRT_MAP_WRITE (R447). -/
def execPrtMapWrite (port : Fin 2) (w : Fin 4) (value : BitVec 64) (s : State) : Out :=
  s.bar port .unit (fun s => s.wrPrtMap w value.toNat fullMask)

end Sys2Proof.Machine
end

