-- ==== Sys2Proof/Machine/Host.lean ====
section
/-! DEFINITION. Host ports: doorbells, descriptors, region starts and stops, telemetry, port resets (R421 to R445, R311). -/

namespace Sys2Proof.Machine

/-! ### Doorbell pages and fetching (R428 to R432) -/

/-- DOORBELL_POLL (R429). -/
def execDoorbellPoll (port : Fin 2) (s : State) : Out :=
  if !s.on F.rngDbCfg_en port || !s.portUp port || (s.hport port).polling || s.rd F.idnState_panelState 0 != 1 || s.inSit then .next s
  else .next ((s.updPort port (fun x => { x with polling := true })).put (.hostRead port (s.rd F.rngDbBase_addr port) 4096))

/-- The counts of a page take effect. -/
def State.takePage (s : State) (p : Nat) (g : List Byte) : State :=
  let word (off : Nat) : Nat := leNat ((g.drop off).take 4)
  let s1 := s.updPort p (fun x => { x with
    polling := false,
    prod := (List.range 256).foldl (fun m q => if s.on F.rngSqCfg_en (sqI p q) then mput m q 0 (word (8 * q)) else m) x.prod,
    cqHead := (List.range 128).foldl (fun m c => if s.on F.rngCqCfg_en (cqI p c) then mput m c 0 (word (0x800 + 8 * c)) else m) x.cqHead })
  let s2 := if s.rd F.rngEvtCfg_port 0 = p then { s1 with host := { s1.host with evHead := word 0xC00 } } else s1
  let s3 := if s.rd F.rngFrxCfg_port 0 = p then { s2 with host := { s2.host with frxHead := word 0xC08 } } else s2
  s3.each ((List.range 128).filter (fun c => s.on F.rngCqCfg_en (cqI p c))) (fun s c => s.syncFull p c)

/-- Descriptors that a ring's producer count covers and that have not been fetched. -/
def State.newDescrs (s : State) (p q : Nat) : Nat := (mget (s.hport p).prod q 0 + 2 ^ 32 - s.rd F.rngSqStat_cons (sqI p q) % 2 ^ 32) % 2 ^ 32

/-- A ring whose producer count has run ahead of its size stops (R431). -/
def State.checkRing (s : State) (p q : Nat) : State :=
  let i := sqI p q
  if s.on F.rngSqCfg_en i && !s.on F.rngSqStat_err i && 2 ^ s.rd F.rngSqCfg_log2Size i < s.newDescrs p q then
    (s.wr F.rngSqStat_err i 1).bark 0x001D { kind := .hostDie, num := p } [(24, p), (25, q)]
  else s

/-- Take up to 16 descriptors of a ring, while the port holds fewer than 4096 (R432). -/
def State.fetchTurn (s : State) (p q : Nat) (l : List (List Byte)) : Nat × State :=
  let i := sqI p q
  let room := 4096 - (s.host.descrs.filter (fun f => f.port == p)).length
  let n := min (min 16 room) (min (s.newDescrs p q) l.length)
  let k0 := s.rd F.rngSqStat_cons i
  let new := ((l.take n).zip (List.range n)).map (fun x => ({ port := p, sq := q, k := (k0 + x.2) % 2 ^ 32, d := descrOf x.1 } : FDescr))
  let s1 := { s with host := { s.host with descrs := s.host.descrs ++ new } }
  (n, ((s1.wr F.rngSqStat_cons i (k0 + n)).wr F.rngSqStat_inflight i (s1.rd F.rngSqStat_inflight i + n)).updPort p (fun x => { x with lastServed := q }))

/-- Rotation over the rings with work, starting with the ring after the one last served. -/
def State.fetchAll (s : State) (p : Nat) (work : NMap (List (List Byte))) : Nat → State
  | 0 => s
  | fuel + 1 =>
    let able (q : Nat) : Bool := s.on F.rngSqCfg_en (sqI p q) && !s.on F.rngSqStat_err (sqI p q) && s.newDescrs p q != 0 && mget work q [] != []
    match ((List.range 256).map (fun j => ((s.hport p).lastServed + 1 + j) % 256)).find? able with
    | none => s
    | some q =>
      let r := s.fetchTurn p q (mget work q [])
      if r.1 = 0 then r.2 else r.2.fetchAll p (mset work q ((mget work q []).drop r.1)) fuel

/-- DOORBELL_PAGE_RETURN (R430 to R432). -/
def execDoorbellPageReturn (port : Fin 2) (page : DoorbellPage) (s : State) : Out :=
  if !(s.hport port).polling || !s.portUp port || s.inSit || page.page.length != 4096 then .next s
  else
    let s1 := s.takePage port page.page
    let s2 := s1.each (List.range 256) (fun s q => s.checkRing port q)
    .next (if s2.rd F.idnState_panelState 0 != 1 then s2 else s2.fetchAll port page.fetched 512)

/-! ### Starting a descriptor (R433 to R437, R440) -/

/-- What `UNIT` names. -/
inductive UnitUse where | none | array | pack | group | free | priv
  deriving DecidableEq, Repr

/-- The ring's partition holds the packs that a descriptor names, or the ring is privileged (R437). -/
def State.partOk (s : State) (f : FDescr) (packs : List Nat) : Bool :=
  let i := sqI f.port f.sq
  s.on F.rngSqCfg_priv i || packs.all (fun p => s.partOf p == s.rd F.rngSqCfg_part i)

/-- Completion status that stops a descriptor before its action, or 0: reserved bytes, length, `UNIT`, partition (R433, R437). -/
def State.descrStatus (s : State) (f : FDescr) (u : UnitUse) (lo hi : Nat) : Nat :=
  let d := f.d
  if !d.reservedZero || (hi != 0 && !(decide (lo ≤ d.len) && decide (d.len ≤ hi))) then 0x02
  else match u with
    | .array => if 511 < d.unit then 0x02 else if s.partOk f [arrPack d.unit] then 0 else 0x04
    | .pack => if 63 < d.unit then 0x02 else if s.partOk f [d.unit] then 0 else 0x04
    | .group => if 511 < d.unit then 0x02 else if s.partOk f ((maskList (mget s.mcast d.unit 0) 512).map arrPack) then 0 else 0x04
    | .priv => if s.on F.rngSqCfg_priv (sqI f.port f.sq) then 0 else 0x04
    | .free => if 511 < d.unit then 0x02 else 0
    | .none => 0

/-- An array whose traffic a table change holds (R249, R275). -/
def State.arrHeld (s : State) (a : Nat) : Bool := s.rd F.fabSite_state a == 3 || s.holds.contains (arrPack a)

/-- A descriptor that may start: fetched, of the command's opcode, behind every earlier descriptor of its ring where it carries `WAIT`,
with its port able to read what it reads, its destination not held, and the panel not in sit (R440, R249, R540). -/
def State.ready (s : State) (i : DId) (op : Nat) (reads : Bool) : Option FDescr :=
  match s.descr i with
  | none => none
  | some f =>
    let before := (s.host.descrs.takeWhile (fun g => g.id != i)).any (fun g => g.port == f.port && g.sq == f.sq)
    if f.st == .fetched && f.d.opcode == op && !(f.d.wait && before) && (!reads || s.portUp f.port) && !s.inSit then some f else none

/-- Start a descriptor: its early status completes it, else its action runs. -/
def State.startDescr (s : State) (i : DId) (op : Nat) (reads : Bool) (u : UnitUse) (lo hi : Nat) (go : FDescr → State → State) : Out :=
  match s.ready i op reads with
  | none => .next s
  | some f =>
    let st := s.descrStatus f u lo hi
    if st != 0 then .next (s.fin i st)
    else if (u == .array && s.arrHeld f.d.unit) || (u == .group && s.holds.contains (scopeMcast f.d.unit)) then .next s
    else .next (go f s)

/-- Completion status for a NACK (R259, R438). -/
def nackCompletion (st : Nat) : Nat :=
  match st with
  | 0 => 0x00
  | 1 => 0x05
  | 3 => 0x08
  | 4 => 0x06
  | 6 => 0x02
  | _ => 0x07

/-- Send a descriptor's requests; it completes when all are answered. -/
def State.askAll (s : State) (f : FDescr) (l : List (Nat × Packet)) : State :=
  let tags := (List.range l.length).map (fun j => s.nextTag + j)
  let s1 := l.foldl (fun s p => s.request { src := .host f.port, loc := p.1, descr := some f.id } p.2) s
  s1.updDescr f.id (fun d => { d with st := .running, rtags := tags, copies := l.length })

/-- The home router of an array cannot be reached from a host die, or the array is fenced or vacant: a completion status, or 0. -/
def State.arrStatus (s : State) (a : Nat) : Nat :=
  if s.arrVacant a then 0x06
  else if s.arrFenced a || s.packDark (arrPack a) || s.siteDead (s.siteOf a) then 0x07
  else 0

/-- NOP (R434). -/
def execNop (port : Fin 2) (sq : Fin 256) (k : Nat) (s : State) : Out :=
  s.startDescr (port, sq, k) 0x00 false .none 0 0 (fun f s => s.fin f.id 0)

/-- SCRATCH_WRITE (R434, R118, R150). -/
def execScratchWrite (port : Fin 2) (sq : Fin 256) (k : Nat) (data : List Byte) (s : State) : Out :=
  s.startDescr (port, sq, k) 0x01 true .array 1 16777216 (fun f s =>
    let d := f.d
    if data.length != d.len then s
    else if s.arrVacant d.unit then s.fin f.id 0x06
    else s.askAll f ((packetsOf d.offset data).map (fun p => (0,
      { body := .write, dst := .tile d.unit, src := .host f.port, off := p.1, ctr := d.ctr, ctrEn := d.ctrEn, payload := p.2 }))))

/-- Cut a read at every 4096-byte boundary of its offset: offset, length, position. -/
def readCuts (off : Nat) : Nat → Nat → Nat → List (Nat × Nat × Nat)
  | 0, _, _ => []
  | fuel + 1, pos, len =>
    if len = 0 then []
    else
      let n := min len (4096 - (off + pos) % 4096)
      (off + pos, n, pos) :: readCuts off fuel (pos + n) (len - n)

/-- SCRATCH_READ (R434). -/
def execScratchRead (port : Fin 2) (sq : Fin 256) (k : Nat) (s : State) : Out :=
  s.startDescr (port, sq, k) 0x02 false .array 1 16777216 (fun f s =>
    let d := f.d
    if s.arrVacant d.unit then s.fin f.id 0x06
    else s.askAll f ((readCuts d.offset (d.len / 4096 + 2) 0 d.len).map (fun c => (d.hostAddr + c.2.2,
      { body := .readReq c.2.1, dst := .tile d.unit, src := .host f.port, off := c.1 }))))

/-- HOST_SIGNAL (R434, R145, R265). -/
def execHostSignal (port : Fin 2) (sq : Fin 256) (k : Nat) (s : State) : Out :=
  match s.descr (port, sq, k) with
  | none => .next s
  | some g =>
    s.startDescr (port, sq, k) 0x03 false (if g.d.ctrEn then .group else .array) 0 0 (fun f s =>
      let d := f.d
      let pkt (a : Nat) : Nat × Packet := (0, { body := .signal d.value, dst := .tile a, src := .host f.port, ctr := d.ctr })
      if d.value = 0 then s.fin f.id 0x02
      else if d.ctrEn then
        let ms := maskList (mget s.mcast d.unit 0) 512
        if ms == [] then s.fin f.id 0
        else
          let live := ms.filter (fun m => !s.arrVacant m)
          let s1 := (s.askAll f (live.map pkt)).updDescr f.id (fun x => { x with copies := ms.length, pruned := ms.filter s.arrVacant })
          if live == [] then
            (ms.foldl (fun s m => s.bark 0x000B { kind := .hostDie, num := f.port } [(24, m), (26, 0), (28, ms.length)]) s1).fin f.id 0
          else s1
      else if s.arrVacant d.unit then s.fin f.id 0x06
      else s.askAll f [pkt d.unit])

/-- Where a host item ends: its `CODE` of R307, and the epoch (R285). -/
def State.hostItem (s : State) (a e : Nat) (it : List Byte) (id : Nat) : Nat × Nat × State :=
  let ep := s.epEpoch a e
  let role := s.epRole a e
  if s.arrStatus a != 0 then (0x08, 0, s)
  else if !roleReceives role || !s.on F.chEp_hostOk (epKey a e) then (0x07, ep, s)
  else if s.inReset a then
    let r := (s.cnt F.fabRtrCnt_absorbed (s.siteOf a)).closedAnswer a e
    (if r.1 = 3 then 0x01 else 0x02, ep, r.2)
  else if !s.epOpen a e then
    let r := s.closedAnswer a e
    (if r.1 = 3 then 0x01 else 0x02, ep, r.2)
  else
    let r := s.placeItem a e { data := it, src := id, epoch := ep, host := true } none
    (if r.1 = 2 then 0x03 else if r.1 = 0xFF then 0x09 else 0, ep, r.2)

/-- HOST_CHANNEL_ITEM (R285). A host item that finds no room is given up with the code of a timed-out SEND (R307). -/
def execHostChannelItem (port : Fin 2) (sq : Fin 256) (k : Nat) (item : List Byte) (s : State) : Out :=
  s.startDescr (port, sq, k) 0x04 true .array 1 4096 (fun f s =>
    if item.length != f.d.len || (s.epOpen f.d.unit f.d.ctr && s.placeWaits f.d.unit f.d.ctr item.length) then s
    else
      let r := s.hostItem f.d.unit f.d.ctr item (s.rd F.hifCfg_hostId f.port)
      r.2.2.complete f.id (if r.1 = 0 then 0 else 0x0F) r.1 (if r.1 = 0 then f.d.len else 0) r.2.1 s.now)

/-! ### Region starts (R154, R156, R311, R435) -/

/-- A step table entry from its 32 bytes; nothing when it is not well formed. -/
def stepEntry (b : List Byte) : Option StepEntry :=
  let v := leNat b
  if bitsAt v 26 6 != 0 || bitsAt v 134 9 != 0 || bitsAt v 144 16 != 0 || bitsAt v 200 8 != 0 || bitsAt v 217 6 != 0 || bitsAt v 224 32 != 0 ||
    99 < bitsAt v 192 8 || bitsAt v 0 6 != 0 then none
  else some { entry := bitsAt v 0 32, deadline := bitsAt v 32 32, ctrClear := bitsAt v 64 64, trigCtr := bitsAt v 128 6, trigEn := v.testBit 143,
              trigCount := bitsAt v 160 32, backupPct := bitsAt v 192 8, standby := bitsAt v 208 9, standbyEn := v.testBit 223 }

/-- The region block and step table of a leader: the members, and the region or the status that refuses it. -/
def State.readBlockOf (s : State) (l block : Nat) : List Nat × (Nat ⊕ Region) × State :=
  let (st, b, s1) := s.tryRead l 0 .own block 128
  if st = 1 then ([], .inl 0x02, s1)
  else if st = 3 then ([], .inl 0x08, s1)
  else
    let v := leNat b
    let ms := maskList (bitsAt v 0 512) 512
    let table := bitsAt v 512 32
    let count := bitsAt v 544 16
    let report := bitsAt v 576 32
    let bad := ms == [] || count = 0 || decide (1024 < count) || bitsAt v 561 15 != 0 || bitsAt v 608 416 != 0 || report % 64 != 0 ||
      !s1.ownOk l report (report + 64)
    if bad then (ms, .inl 0x02, s1)
    else
      let (st2, tb, s2) := s1.tryRead l 0 .own table (32 * count)
      if st2 = 1 then (ms, .inl 0x02, s2)
      else if st2 = 3 then (ms, .inl 0x08, s2)
      else
        let es := (List.range count).map (fun j => stepEntry ((tb.drop (32 * j)).take 32))
        if es.any Option.isNone then (ms, .inl 0x02, s2)
        else (ms, .inr { members := bitsAt v 0 512, table := es.filterMap id, loop := v.testBit 560, report := report }, s2)

/-- First status of R435 that refuses a start, or 0. -/
def State.startRefused (s : State) (f : FDescr) (l : Nat) (ms : List Nat) (r : Nat ⊕ Region) : Nat :=
  let all := l :: ms
  match (all.map s.arrStatus).find? (· != 0) with
  | some st => st
  | none =>
    if !s.partOk f (ms.map arrPack) then 0x04
    else if all.any (fun a => s.rd F.admSrc_rate a == 0) then 0x09
    else if all.any s.inRegion then 0x0A
    else match r with
      | .inl st => st
      | .inr _ => 0

/-- Start a region for a descriptor, or refuse it (R435). -/
def State.startRegion (s : State) (f : FDescr) (legacy : List CapEntry) : State :=
  let l := f.d.unit
  let (ms, r, s1) := s.readBlockOf l f.d.offset
  let st := s1.startRefused f l ms r
  if st != 0 then s1.fin f.id st
  else match r with
    | .inl st => s1.fin f.id st
    | .inr g =>
      let n := (s1.serial + 1) % 2 ^ 32
      let s2 := { s1 with serial := n }.setRegion l { g with serial := n, legacy := legacy, descr := f.id }
      let s3 := s2.each ms (fun s m => s.updArr m (fun x => { x with member := some (l, n) }))
      (s3.updDescr f.id (fun d => { d with st := .running })).nextEntry l

/-- REGION_START (R435). -/
def execRegionStart (port : Fin 2) (sq : Fin 256) (k : Nat) (s : State) : Out :=
  s.startDescr (port, sq, k) 0x10 false .array 0 0 (fun f s => s.startRegion f [])

/-- Queue entries that a capacity table declares for a reading endpoint (R311). -/
def capLoad (t : List CapEntry) (a e : Nat) : Nat :=
  ((t.filter (fun c => c.dstArray == a && c.dstEp == e)).map (fun c => c.maxItems * ceilDiv c.maxBytes 256)).sum

/-- An entry names legacy endpoints that are peers of each other. -/
def State.capPeers (s : State) (c : CapEntry) : Bool :=
  s.epRole c.srcArray c.srcEp == 6 && s.epRole c.dstArray c.dstEp == 6 && s.epPeer c.srcArray c.srcEp == (c.dstArray, c.dstEp) &&
  s.epPeer c.dstArray c.dstEp == (c.srcArray, c.srcEp)

/-- The entry that a capacity-refused record stands for: the first that names a reading endpoint over capacity, or else, where every endpoint
has room, the first whose endpoints are not legacy peers (R311; log entry 89). -/
def State.capRefused (s : State) (t : List CapEntry) : Option Nat :=
  match t.findIdx? (fun c => decide (32 < capLoad t c.dstArray c.dstEp)) with
  | some i => some i
  | none => t.findIdx? (fun c => !s.capPeers c)

/-- REGION_START_LEGACY (R311): the capacity table is checked before the region. -/
def execRegionStartLegacy (port : Fin 2) (sq : Fin 256) (k : Nat) (table : List CapEntry) (s : State) : Out :=
  s.startDescr (port, sq, k) 0x11 true .array 1 4096 (fun f s =>
    if table.length != f.d.len then s
    else if table.any (fun c => c.maxItems = 0 || !between c.maxBytes 1 4096) then s.fin f.id 0x02
    else
      match s.capRefused table with
      | some i =>
        let c := table.getD i {}
        let first := table.findIdx (fun x => x.dstArray == c.dstArray && x.dstEp == c.dstEp)
        (s.bark 0x001F { kind := .array, num := c.dstArray }
          [(24, c.dstArray), (26, c.dstEp), (28, min (capLoad table c.dstArray c.dstEp) 0xFFFF), (30, first)]).fin f.id 0x0B
      | none => s.startRegion f table)

/-- REGION_STOP (R436). -/
def execRegionStop (port : Fin 2) (sq : Fin 256) (k : Nat) (s : State) : Out :=
  s.startDescr (port, sq, k) 0x12 false .array 0 0 (fun f s =>
    let l := f.d.unit
    match s.regionOf l with
    | none => s.fin f.id 0
    | some g =>
      let s1 := (s.updDescr f.id (fun d => { d with st := .running })).setRegion l { g with stopBy := g.stopBy ++ [f.id] }
      match g.phase with
      | .running => s1.failAttempt l 0x0E 0 0 0x1FF
      | .draining => s1.leaderCheck l false
      | .standby =>
        let id := match g.backupOf with | some (_, _, id, _) => id | none => 0
        (s1.each g.waiting (fun s m => s.leaderAsk l m (.cancel id))).checkBackup l
      | _ => s1.endRegion l 3 none)

/-! ### Tables, field frames -/

def TblRes.status : TblRes → Nat
  | .ok => 0x00
  | .address => 0x05
  | .unreachable => 0x07
  | .degraded => 0x0E
  | .data => 0x08

/-- Hub that a table descriptor goes to. -/
def State.tblHub (s : State) (h p : Nat) : Nat := match mfind s.tables h with
  | some d => (s.servedAt d p).1
  | none => p

/-- TABLE_WRITE (R226, R437): it waits while a change of its handle is pending. -/
def execTableWrite (port : Fin 2) (sq : Fin 256) (k : Nat) (data : List Byte) (s : State) : Out :=
  s.startDescr (port, sq, k) 0x20 true .pack 1 16777216 (fun f s =>
    let d := f.d
    if data.length != d.len || s.tblPending d.handle then s
    else if s.hubGone (s.tblHub d.handle d.unit) then s.fin f.id 0x07
    else
      let r := s.tblWrite d.handle d.unit d.offset data
      r.2.complete f.id r.1.status 0 (if r.1 == .ok || r.1 == .degraded then d.len else 0) 0 s.now)

/-- TABLE_READ (R434, R219). -/
def execTableRead (port : Fin 2) (sq : Fin 256) (k : Nat) (s : State) : Out :=
  s.startDescr (port, sq, k) 0x21 false .pack 1 16777216 (fun f s =>
    let d := f.d
    if s.tblPending d.handle then s
    else if s.hubGone (s.tblHub d.handle d.unit) then s.fin f.id 0x07
    else
      let r := s.tblRead d.handle d.unit d.offset d.len
      if r.1 == .ok then (r.2.2.descrWrite f d.hostAddr r.2.1).complete f.id 0 0 d.len 0 s.now
      else r.2.2.fin f.id r.1.status)

/-- FIELD_TX (R434, R437). -/
def execFieldTx (port : Fin 2) (sq : Fin 256) (k : Nat) (frame : List Byte) (s : State) : Out :=
  s.startDescr (port, sq, k) 0x30 true .priv 0 0 (fun f s =>
    let n := f.d.unit
    let hi := if s.rd F.fldPort_vlanId n = 0 then 1514 else 1510
    if 7 < n || !between f.d.len 60 hi then s.fin f.id 0x02
    else if frame.length != f.d.len then s
    else if !s.on F.fldPort_en n then s.fin f.id 0x10
    else (s.updFport n (fun x => { x with hostTx := x.hostTx ++ [(frame, f.id)] })).updDescr f.id (fun d => { d with st := .running }))

/-! ### Firmware images (R506, R507) -/

def State.firm (s : State) : FirmState := s.faults.firm
def State.setFirm (s : State) (x : FirmState) : State := { s with faults := { s.faults with firm := x } }

/-- Largest image of a kind. -/
def imageLimit (kind : Nat) : Nat := if kind ≤ 1 then 8388608 else if kind ≤ 4 then 16777216 else if kind = 5 then 67108864 else 1048576

/-- The public key that must verify a manifest: the operator's for an overlay, the vendor's otherwise. -/
def State.manifestKey (s : State) (kind : Nat) : Option (List Byte) :=
  match s.boot.record with
  | none => none
  | some r => if kind = 7 then r.operatorHash.map Config.operatorKey else r.vendorKey

/-- `DETAIL` that refuses a manifest, or 0. -/
def State.manifestDetail (s : State) (m : Manifest) : Nat :=
  let sigOk := match s.manifestKey m.kind with
    | none => false
    | some k => Config.ecdsaVerify k m.signature m.signedBytes
  let bit := if s.is12 then 1 else 0
  if !sigOk then 0x01
  else if !m.magicOk || m.version != 1 || 7 < m.kind || m.imageLen = 0 || imageLimit m.kind < m.imageLen ||
    m.nChunks != ceilDiv m.imageLen 4096 || m.hashes.length != m.nChunks || !m.reservedZero || !m.variants.testBit bit || 4 ≤ m.variants ||
    (m.serial != 0 && m.serial != s.rd F.idnSerial_serial 0) then 0x02
  else if m.fwVersion < mget s.firm.highest m.kind 0 then 0x06
  else 0

/-- FW_MANIFEST (R506, R507): a manifest that is accepted abandons any image in progress. -/
def execFwManifest (port : Fin 2) (sq : Fin 256) (k : Nat) (m : Manifest) (s : State) : Out :=
  s.startDescr (port, sq, k) 0x40 true .priv 0 0 (fun f s =>
    let st := s.manifestDetail m
    if st != 0 then s.complete f.id 0x12 st 0 0 s.now
    else
      let s1 := s.setFirm { s.firm with manifest := some m, chunks := [], missing := [] }
      let s2 := ((((s1.wr F.fltFwStat_fwState 0 1).wr F.fltFwStat_round 0 0).wr F.fltFwStat_kind 0 m.kind).wr F.fltFwStat_unitsMissing 0 0).wr
        F.fltFwStat_chunksHeld 0 0
      s2.complete f.id 0 0 f.d.len 0 s.now)

/-- Bytes of chunk `c` of an image. -/
def chunkLen (m : Manifest) (c : Nat) : Nat := min 4096 (m.imageLen - 4096 * c)

/-- FW_CHUNK (R507). -/
def execFwChunk (port : Fin 2) (sq : Fin 256) (k : Nat) (data : List Byte) (s : State) : Out :=
  s.startDescr (port, sq, k) 0x41 true .priv 1 4096 (fun f s =>
    let refuse (n : Nat) : State := s.complete f.id 0x12 n 0 0 s.now
    if data.length != f.d.len then s
    else match s.firm.manifest with
    | none => refuse 0x04
    | some m =>
      let c := f.d.offset
      if m.nChunks ≤ c || data.length != chunkLen m c then refuse 0x05
      else if (mfind s.firm.chunks c).isSome then s.complete f.id 0 0 f.d.len 0 s.now
      else if Config.sha512 data != m.hashes.getD c 0 then refuse 0x03
      else
        let ch := mset s.firm.chunks c data
        let s1 := (s.setFirm { s.firm with chunks := ch }).wr F.fltFwStat_chunksHeld 0 (min ch.length 0xFFFF)
        (s1.wr F.fltFwStat_fwState 0 2).complete f.id 0 0 f.d.len 0 s.now)

/-! ### Descriptors that cannot run -/

def definedOpcodes : List Nat := [0x00, 0x01, 0x02, 0x03, 0x04, 0x10, 0x11, 0x12, 0x20, 0x21, 0x30, 0x40, 0x41]

/-- UNDEFINED_DESCRIPTOR_OPCODE (R434). -/
def execUndefinedDescriptorOpcode (port : Fin 2) (sq : Fin 256) (k : Nat) (s : State) : Out :=
  match s.descr (port, sq, k) with
  | none => .next s
  | some g => if definedOpcodes.contains g.d.opcode then .next s
    else s.startDescr (port, sq, k) g.d.opcode false .none 0 0 (fun f s => s.fin f.id 0x01)

/-- Opcodes that read host memory. -/
def readsHost (op : Nat) : Bool := [0x01, 0x04, 0x11, 0x20, 0x30, 0x40, 0x41].contains op

/-- A host read fails: counted, reported, and weighed against the die's health (R422, R504). -/
def State.hostFault (s : State) (p : Nat) : State :=
  ((s.cnt F.hifErr_hostFault p).bark 0x001E { kind := .hostDie, num := p } [(24, p)]).penalize (650 + p) 1024

/-- HOST_READ_TIMEOUT (R422): a descriptor that is waiting for what it reads of host memory fails. Where no descriptor has that name, the
read of the doorbell page that is under way fails (log entry 100). -/
def execHostReadTimeout (port : Fin 2) (sq : Fin 256) (k : Nat) (s : State) : Out :=
  match s.descr (port, sq, k) with
  | none => .next (if (s.hport port).polling then (s.hostFault port).updPort port (fun x => { x with polling := false }) else s)
  | some g =>
    if !readsHost g.d.opcode then .next s
    else match s.ready (port, sq, k) g.d.opcode true with
      | none => .next s
      | some f => .next ((s.hostFault port).fin f.id 0x03)

/-! ### Telemetry (R441) -/

/-- Background flits of the period over the flit capacity of every live mesh link, in units of 0.1 %: a link carries one flit in each
direction and cycle of its slower router (R533; log entry 100). -/
def State.bgShare (s : State) : Nat :=
  let live := (List.range 1104).filter (fun l => let e := linkEnds l; !s.linkDead l && s.siteOk e.1 && s.siteOk e.2)
  let cap := (live.map (fun l => let e := linkEnds l; 2 * min (s.setFreq (576 + e.1)) (s.setFreq (576 + e.2)) * 25000)).sum *
    s.rd F.rngEvtCfg_telMs 0
  if cap = 0 then 0 else s.host.teleBg * 1000 / cap

/-- The panel record. -/
def State.panelTelemetry (s : State) : State :=
  let share := s.bgShare
  let spine := ((List.range Config.nIslands).filter (fun i => s.on F.clkIsl_mode i)).length
  { s with host := { s.host with teleBg := 0 } }.issue 1 0x8000 {} [(24, s.rd F.pwrIn_vIn), (26, s.rd F.pwrIn_iIn), (28, s.rd F.pwrStat_pIn), (30, s.rd F.thmCool_tIn), (32, s.rd F.thmCool_tOut),
    (34, s.rd F.clkStat_timeState), (36, s.rd F.pwrStat_limitEff), (38, min share 0xFFFF), (40, spine)] 1 s.now

/-- A pack's record, of the period since the last one. -/
def State.packTelemetry (s : State) (p : Nat) : State :=
  let sites := packSites p
  let hot := (sites.map (fun t => signed16 (s.rd F.thmTile_tUsed t))).foldl max (-32768)
  let isles := sites ++ sites.map (· + 576) ++ [hubIsland p]
  let margin := (isles.map (fun i => s.rd F.clkMargin_minPs i)).foldl min 1023
  let health := ((sites.map (fun t => s.rd F.fltHealth_score t)) ++ [s.rd F.fltHealth_score (576 + p)]).foldl min 1023
  let wins := (isles.map (fun i => s.rd F.clkMargin_stretchWin i)).sum
  let old := mget s.host.teleWins p 0
  let busy := mget s.host.teleBusy p 0
  { s with host := { s.host with teleWins := mput s.host.teleWins p 0 wins, teleBusy := mdel s.host.teleBusy p } }.issue 1 0x8001
    { kind := .pack, num := p } [(24, s.rd F.pwrPackStat_pPack p), (26, (hot % 65536).toNat), (28, 10 * s.rd F.hubTemp_degC p),
    (30, s.rd F.pwrPackStat_afSet p), (32, s.rd F.pwrPackStat_rfSet p), (34, margin / 4), (36, health), (38, min (wins - old) 0xFFFF), (40, busy)] 1 s.now

/-- TELEMETRY_TICK (R441): the panel record, then one for each fitted pack. -/
def execTelemetryTick (s : State) : Out :=
  if !s.on F.rngEvtCfg_telEn || s.rd F.idnState_panelState != 1 || (s.inSit && s.sit.all) then .next s
  else .next (s.panelTelemetry.each s.packList (fun s p => s.packTelemetry p))

/-! ### Port resets (R444) -/

/-- Registers of a port that its reset clears. -/
def portRegs (p : Nat) : List (Fld × Nat) :=
  [(F.hifCfg_hostId, p), (F.hifCfg_roEn, p), (F.hifStat_speed, p), (F.hifStat_width, p), (F.hifStat_flit, p), (F.hifErr_badAcc, p),
   (F.hifErr_hostFault, p), (F.hifErr_discarded, p), (F.rngDbBase_addr, p), (F.rngDbCfg_en, p), (F.rngDbCfg_interval, p)] ++
  (List.range 256).flatMap (fun q => (regFields .rngSqBase ++ regFields .rngSqCfg ++ regFields .rngSqStat).map (fun f => (f, sqI p q))) ++
  (List.range 128).flatMap (fun c => (regFields .rngCqBase ++ regFields .rngCqCfg ++ regFields .rngCqStat).map (fun f => (f, cqI p c)))

/-- Descriptors not started are lost; the others run on with their host writes discarded; entries not written are discarded. -/
def State.resetPort (s : State) (p : Nat) : State :=
  let mine := s.host.descrs.filter (fun f => f.port == p && !f.discard)
  let held := mine.filter (fun f => f.st == .done)
  let stops := held.flatMap (·.after)
  let keep := (s.host.descrs.filter (fun f => f.port != p || f.discard || f.st == .running)).map
    (fun f => if f.port = p then { f with discard := true, rtags := f.rtags } else f)
  let s1 := (s.clrRegs (portRegs p)).cnt F.hifErr_discarded p held.length
  let s2 := { s1 with host := { s1.host with descrs := keep } }
  let x := s2.hport p
  (s2.setPort p { linkUp := x.linkUp }).each stops (fun s j => s.complete j 0 0 0 0 s.now)

/-- HOST_PORT_RESET (R444): `PERSTx_N` low or link-down. -/
def execHostPortReset (port : Fin 2) (s : State) : Out := .next ((s.resetPort port).updPort port (fun x => { x with linkUp := false }))

/-- FUNCTION_LEVEL_RESET (R444). The link stays up, and `HIF_STAT` shows it. -/
def execFunctionLevelReset (port : Fin 2) (s : State) : Out :=
  if !(s.hport port).linkUp then .next s
  else
    let sp := s.rd F.hifStat_speed port
    let w := s.rd F.hifStat_width port
    let fl := s.rd F.hifStat_flit port
    .next ((((s.resetPort port).wr F.hifStat_speed port sp).wr F.hifStat_width port w).wr F.hifStat_flit port fl)

/-- HOST_LINK_UP (R480, R458, R421). A trained link has a speed of 1 to 6 and 1, 2, 4, 8 or 16 lanes. -/
def execHostLinkUp (port : Fin 2) (speed width : Nat) (flit : Bool) (s : State) : Out :=
  let failed := s.on F.idnStage_failed (2 + port) && s.rd F.idnStage_code (2 + port) != 0
  if (s.hport port).linkUp || !s.boot.busesUp || s.rd F.idnState_panelState == 2 || failed || !between speed 1 6 ||
    !([1, 2, 4, 8, 16] : List Nat).contains width || (s.inSit && s.sit.all) then .next s
  else .next ((((s.updPort port (fun x => { x with linkUp := true })).wr F.hifStat_speed port speed).wr F.hifStat_width port width).wr
    F.hifStat_flit port (b2n flit))

/-- BUS_MASTER_ENABLE_CHANGE (R444). -/
def execBusMasterEnableChange (port : Fin 2) (enable d3hot : Bool) (s : State) : Out :=
  if !(s.hport port).linkUp then .next s
  else .next (s.updPort port (fun x => { x with busMaster := enable, d3hot := d3hot, polling := x.polling && enable && !d3hot }))

end Sys2Proof.Machine
end

