-- ==== Sys2Proof/Machine/Resets.lean ====
section
/-! DEFINITION. Resets of an array, a pack, a partition: requests, drains, what is cleared (R472 to R477). -/

namespace Sys2Proof.Machine

/-- Fields `f` of `n` instances from `i` on read as after reset. -/
def State.clrRange (s : State) (f : Fld) (i n : Nat) : State :=
  { s with regs := s.regs.filter (fun e => !(e.1 % 1024 == f.id && decide (i ≤ e.1 / 1024) && decide (e.1 / 1024 < i + n))) }

/-- Arrays and packs in the scope of a reset of level 0 array, 1 pack, 2 partition, 3 south half, or the `STATUS` that refuses it (R472,
R477, R482). -/
def State.resetScope (s : State) (level num : Nat) : Nat ⊕ (List Nat × List Nat) :=
  let of (ps : List Nat) : Nat ⊕ (List Nat × List Nat) := .inr ((ps.flatMap packArrays).filter s.arrOk, ps)
  match level with
  | 0 => if s.arrVacant num then .inl 1 else if s.packDark (arrPack num) then .inl 2 else .inr ([num], [])
  | 1 => if !s.packFitted num then .inl 1 else if s.packDark num then .inl 2 else of [num]
  | 2 => of (s.packList.filter (fun p => s.partOf p == num && !s.packDark p))
  | _ => of (s.packList.filter (fun p => packSouth p && !s.packDark p))

/-- A substitution under way concerns the scope: the reset waits for it (R492). -/
def State.resetHeld (s : State) (arrays packs : List Nat) : Bool :=
  s.faults.substs.any (fun x => arrays.contains x.array || packs.contains (arrPack x.array))

def subset (x y : List Nat) : Bool := x.all (fun a => y.contains a)

/-! ### The parts of an array reset -/

/-- TC0 messages of a source that have not been injected are never sent; those that asked for a reply are outstanding no more. -/
def State.dropWaiting (s : State) (src : Nat) : State :=
  let tags := (mget s.tc0Wait src []).map (fun w => w.2.rtag)
  { s with tc0Wait := mdel s.tc0Wait src, reqs := s.reqs.filter (fun r => !tags.contains r.1 || r.1 = 0) }

/-- The array stops: records in flight end without sending, its endpoints close by reset, items already sent are still awaited (R473,
R299). -/
def State.haltArray (s : State) (a : Nat) : State :=
  let s1 := (s.updArr a (fun x => { x with run := none, flights := [] })).dropWaiting a
  s1.each (List.range 64) (fun s e =>
    let s2 := s.closeEp a e 2
    if (s2.ep a e).outs == [] then s2 else s2.updEp a e (fun x => { x with outs := x.outs.filter (fun o => o.rtag != 0) }))

/-- What R474 clears of an array: sequencer, accumulator, weights, flags, counters, combining endpoints, bucket; its gathers end. -/
def State.clearArray (s : State) (a : Nat) : State :=
  let s1 := s.setArr a { member := (s.arr a).member }
  let s2 := s1.clrRegs ((regFields .arrFlags).map (fun f => (f, a)))
  let s3 := (s2.clrRange F.tmCtr_value (a * 64) 64).wr F.tmCtrSat_sat a 0
  let s4 := s3.each (List.range 64) (fun s e =>
    let s := if s.epRole a e = 5 then s.combIdle a e else s
    (s.updEp a e (fun x => { x with outs := [], refused := [], queried := false })).wr F.chEpState_blocked (epKey a e) 0)
  let s5 := s4.each ((s4.gathers.filter (fun g => g.2.array == a)).map (·.1)) State.endGather
  { s5 with buckets := mdel s5.buckets a }

/-- What R474 clears of a hub. -/
def State.clearHub (s : State) (p : Nat) : State :=
  (s.clearCache p).clrRegs [(F.hubHits_hits, p), (F.hubMisses_misses, p), (F.hubPfUsed_used, p), (F.hubPfWasted_wasted, p)]

/-! ### Requests (R477) -/

/-- The request's own register shows that it is accepted, refused or complete; a monitor's request (level 10 or 11) is answered;
an activation's (20 or 21) has `FW_STATE`. -/
def State.resetShow (s : State) (level num st : Nat) (done : Bool) : State :=
  match level with
  | 0 => (s.wr F.prtArrRst_status 0 st).wr F.prtArrRst_go 0 (b2n !done)
  | 1 => (s.wr F.prtPackRst_status 0 st).wr F.prtPackRst_go 0 (b2n !done)
  | 2 =>
    (s.wrBit F.prtStat_resetting 0 num !done).wr F.prtCmd_reset 0 (b2n !done)
  | 3 =>
    if done then ((s.wr F.prtHalf_state 0 0).wr F.prtHalf_start 0 0).bark 0x0043 {} [(24, 1), (25, 0)] else s
  | 10 => if done then s.put (.reply [("ok", [st])]) else s
  | 11 => if done then s.put (.reply [("ok", [st])]) else s
  | _ => s

/-- `STATUS` that a request's register shows now. -/
def State.resetStatus (s : State) (level : Nat) : Nat :=
  match level with
  | 0 => s.rd F.prtArrRst_status 0
  | 1 => s.rd F.prtPackRst_status 0
  | _ => 0

/-- The reset takes effect: regions led in scope end, members in scope drop out, gathers at its hubs fail, its units stop injecting; a
narrower reset that drains joins it (R473 to R475, R477). -/
def State.resetEffect (s : State) (r : ResetReq) : State :=
  let inner := s.boot.resets.filter (fun o => subset o.arrays r.arrays && subset o.packs r.packs)
  let outer := s.boot.resets.filter (fun o => !(subset o.arrays r.arrays && subset o.packs r.packs))
  let r1 := { r with merged := r.merged ++ inner.flatMap (fun o => (o.level, o.num) :: o.merged), joined := r.joined ++ inner.flatMap (·.joined) }
  let s1 := s.each r.arrays (fun s a => s.leaderGone a)
  let s2 := { s1 with boot := { s1.boot with resets := outer ++ [r1] } }
  let s3 := s2.each r.arrays (fun s a => ((s.haltArray a).memberGone a true).redFence a)
  s3.each r.packs State.darkGathers

/-- Units with nothing in service in scope: the reset is complete at once (R482). -/
def State.resetStart (s : State) (r : ResetReq) : State :=
  if r.arrays == [] && r.packs == [] then s.resetShow r.level r.num 0 true
  else match s.boot.resets.findIdx? (fun o => subset r.arrays o.arrays && subset r.packs o.packs) with
    | some i =>
      let join (o : ResetReq) : ResetReq := if r.level = 10 || r.level = 11 then { o with joined := o.joined ++ [(r.level, r.num)] }
        else { o with merged := o.merged ++ [(r.level, r.num)] }
      let s1 := { s with boot := { s.boot with resets := s.boot.resets.modify i join } }
      s1.resetShow r.level r.num 3 false
    | none => (s.resetEffect r).resetShow r.level r.num 0 false

/-- A request for a reset below whole panel. In sit, or while a substitution concerns its scope, it takes effect later (R477, R492). -/
def State.requestReset (s : State) (level num : Nat) : State :=
  match s.resetScope (level % 10) num with
  | .inl st => s.resetShow level num st true
  | .inr (as, ps) =>
    let r : ResetReq := { level := level, num := num, arrays := as, packs := ps }
    if s.inSit || s.resetHeld as ps then
      { s with boot := { s.boot with deferred := s.boot.deferred ++ [r] } }.resetShow level num 0 false
    else s.resetStart r

/-- Deferred requests that nothing holds any more take effect, in arrival order. -/
def State.runDeferred (s : State) : State :=
  if s.inSit then s
  else
    let now := s.boot.deferred.filter (fun r => !s.resetHeld r.arrays r.packs)
    let s1 := { s with boot := { s.boot with deferred := s.boot.deferred.filter (fun r => s.resetHeld r.arrays r.packs) } }
    s1.each now State.resetStart

/-! ### Completion (R474) -/

/-- Every request sent from the scope has been answered or has timed out (R473, R386). -/
def State.drained (s : State) (r : ResetReq) : Bool :=
  !s.reqs.any (fun q => r.arrays.any (fun a => q.2.src == .tile a) || r.packs.any (fun p => q.2.src == .hub p)) &&
  !s.links.exports.any (fun x => r.arrays.contains x.2.array)

/-- An activation of tile or hub firmware ends with the last of its resets (R511). -/
def State.endActivation (s : State) : State :=
  if s.rd F.fltFwStat_fwState 0 != 5 || s.boot.resets != [] || s.boot.deferred != [] then s
  else match s.firm.manifest with
    | none => s
    | some m =>
      ((s.setFirm { s.firm with manifest := none, chunks := [], missing := [], running := mset s.firm.running m.kind m.fwVersion }).wr
        F.fltFwStat_fwState 0 0).wr F.fltFwCmd_activate 0 0

/-- The reset completes: what R474 names is cleared, leaders may re-run, the registers of every request it stands for say so. -/
def State.completeReset (s : State) (r : ResetReq) : State :=
  let s1 := { s with boot := { s.boot with resets := s.boot.resets.filter (· != r) } }
  let s2 := s1.each r.arrays State.clearArray
  let s3 := s2.each r.packs State.clearHub
  let s4 := s3.each r.arrays (fun s a => s.memberBack a true false false)
  let s5 := r.joined.foldl (fun s n => s.resetShow n.1 n.2 3 true) s4
  (((r.level, r.num) :: r.merged).foldl (fun s n => s.resetShow n.1 n.2 (s.resetStatus n.1) true) s5).endActivation

/-- RESET_DRAIN_DONE (R473): the first reset whose drain has ended completes. -/
def execResetDrainDone (s : State) : Out :=
  .next (if s.inSit then s
    else match s.boot.resets.find? s.drained with
      | none => s
      | some r => s.completeReset r)

/-- ARRAY_RESET (R474). -/
def execArrayReset (port : Fin 2) (a : Fin 512) (s : State) : Out :=
  s.bar port .unit (fun s => s.rw1s F.prtArrRst_go (fun s => ((s.wr F.prtArrRst_array 0 a).wr F.prtArrRst_go 0 1).requestReset 0 a))

/-- PACK_RESET (R474). -/
def execPackReset (port : Fin 2) (p : Fin 64) (s : State) : Out :=
  s.bar port .unit (fun s => s.rw1s F.prtPackRst_go (fun s => ((s.wr F.prtPackRst_pack 0 p).wr F.prtPackRst_go 0 1).requestReset 1 p))

/-- PARTITION_RESET (R473). -/
def execPartitionReset (port : Fin 2) (n : Fin 16) (s : State) : Out :=
  s.bar port .unit (fun s => s.rw1s F.prtCmd_reset (fun s => (s.wr F.prtCmd_part 0 n).requestReset 2 n))

end Sys2Proof.Machine
end

