-- ==== Sys2Proof/Machine/Fence.lean ====
section
/-! DEFINITION. What every fault has in common: the dead-region mask that MN holds, alerts, fences, the end of a substitution, the queue of
table changes (R271, R272, R275, R483 to R493, R530). -/

namespace Sys2Proof.Machine

/-! ### Alerts (R530) -/

/-- `ALERT_N` is low while an unmasked condition stands; bits 0 and 7 cannot be masked. A failed management stage of
MN holds it low too (R458, R469). -/
def State.syncAlert (s : State) : State :=
  let c := s.rd F.pwrAlert_cond 0
  let m := s.rd F.pwrAlertMask_mask 0 * 2
  { s with pins := { s.pins with alertN := (c ^^^ (c &&& m)) == 0 && !s.boot.mnFailed && !s.boot.cfgFailed } }

/-- A condition begins or ends. -/
def State.alert (s : State) (bit : Nat) (on : Bool) : State := (s.wrBit F.pwrAlert_cond 0 bit on).syncAlert

/-! ### The mask (R271) -/

/-- Links of a router (R271). -/
def linksOf (t : Nat) : List Nat :=
  let r := siteRow t
  let c := siteCol t
  (if c = 0 then [] else [linkEast r (c - 1)]) ++ (if c = 23 then [] else [linkEast r c]) ++ (if r = 0 then [] else [linkSouth (r - 1) c]) ++
  (if r = 23 then [] else [linkSouth r c])

/-- Links that leave a pack. -/
def packOuter (p : Nat) : List Nat :=
  let l := (packSites p).flatMap linksOf
  l.filter (fun x => l.count x == 1)

def packLinks (p : Nat) : List Nat := ((packSites p).flatMap linksOf).eraseDups

def seamLinks : List Nat := (List.range 24).map (fun c => linkSouth 11 c)

/-- Seam links that stay out of service until a new bring-up (R32, R235). -/
def State.seamLinksOut (s : State) : List Nat := s.boot.seamOut.map (linkSouth 11)

/-- MN has a new mask: it takes the next generation and is broadcast (R271). -/
def State.newMask (s : State) (sites links : Nat) : State :=
  if (sites, links) = s.mnMask then s
  else
    let g := (s.mnGen + 1) % 65536
    { s with mnMask := (sites, links), mnGen := g, maskSent := mset s.maskSent g (sites, links) }.sendTc0
      { body := .deadMask g, cls := 0, noack := true, dst := .broadcast, src := .mgmt 0 }

/-- Bits of `l` set in, or cleared from, a mask. -/
def addBits (m : Nat) (l : List Nat) : Nat := l.foldl (fun m i => setBit m i true) m
def dropBits (m : Nat) (l : List Nat) : Nat := l.foldl (fun m i => setBit m i false) m

/-! ### Table changes (R275) -/

/-- MN broadcasts a FAB_CTL of the change under way: 0 hold, 1 drain query, 3 table update, 4 release. -/
def State.fabSend (s : State) (kind : Nat) : State := match s.changes with
  | [] => s
  | c :: _ => s.sendTc0 { body := .fabCtl kind c.scope, cls := 0, noack := true, dst := .broadcast, src := .mgmt 0 }

/-- A change waits for those before it; the first begins with its hold. -/
def State.addChange (s : State) (c : FabChange) : State :=
  let s1 := ({ s with changes := s.changes ++ [c] }).wr F.fabState_drainBusy 0 1
  if s.changes == [] then s1.fabSend 0 else s1

/-- Packets that no hold keeps back any more are injected, in order, under the tables now in force (R249). -/
def State.releaseHeld (s : State) : State :=
  let go (p : Packet) : Bool := p.route.held && !s.scopeHeld p
  { s with net := s.net.flatMap (fun p => if go p then s.entering { p with route := {} } else [p]),
           reqs := s.reqs.map (fun r => if go r.2.pkt then (r.1, { r.2 with pkt := s.mark { r.2.pkt with route := {} } }) else r) }

/-- Changes of a pack's site table that are abandoned; a hold that one of them placed ends (R492). -/
def State.dropChanges (s : State) (p : Nat) : State :=
  let s1 := { s with changes := s.changes.filter (fun c => c.scope != p), holds := s.holds.filter (· != p) }
  let s2 := s1.each (packArrays p) (fun s a => if s.rd F.fabSite_state a = 3 then s.wr F.fabSite_state a 0 else s)
  let s3 := { s2 with net := s2.net.filter (fun q => match q.body with
    | .fabCtl _ scope => scope != p
    | _ => true) }
  let s4 := (s3.wr F.fabState_drainBusy 0 (b2n (s3.changes != []))).releaseHeld
  if s4.changes.head? == s.changes.head? then s4 else s4.fabSend 0

/-! ### Fences (R483, R486) -/

/-- Broadcast a FENCE_NOTICE. -/
def State.notice (s : State) (a reason site : Nat) : State :=
  s.sendTc0 { body := .fenceNotice a reason site, cls := 0, noack := true, dst := .broadcast, src := .mgmt 0 }

/-- The reserve tile's position in a pack, if one is left (R491). -/
def State.reservePos (s : State) (p : Nat) : Option Nat :=
  let q := s.rd F.fltReserve_resPos p
  if 9 ≤ q then none else some q

/-- The substitution of a pack that is not yet moving its number, first in fence order (R492). -/
def State.substOf (s : State) (p : Nat) : Option Subst :=
  if s.changes.any (fun c => c.scope == p) then none else s.faults.substs.find? (fun x => arrPack x.array == p)

/-- The number gives up its site (R488, Step 10). -/
def State.vacate (s : State) (a : Nat) (resFailed : Bool) : State :=
  s.addChange { scope := arrPack a, array := a, site := s.siteOf a, vacant := true, resFailed := resFailed }

/-- Without a reserve, a number goes straight to Step 10. -/
def State.substGo (s : State) (p : Nat) : State :=
  match s.substOf p with
  | none => s
  | some x => if (s.reservePos p).isNone && !x.swap && !s.inSit && !s.packDark p then s.vacate x.array false else s

/-- The array is reset as R474 states, at once: its router lets nothing more out, and replies to its requests are discarded as they arrive
(R273, R486). -/
def State.resetFenced (s : State) (a : Nat) : State :=
  let s1 := (s.haltArray a).clearArray a
  { s1 with net := s.net, reqs := s1.reqs.filter (fun r => r.2.src != .tile a) }

/-- MN fences an array. Reasons 0x04, 0x05 and 0x07 start no substitution (R487, R488, R495), and a swap brings its own. -/
def State.fence (s : State) (a reason : Nat) : State :=
  if s.arrVacant a || s.arrFenced a then s
  else
    let site := s.siteOf a
    let s1 := { s.wr F.fabSite_fenced a 1 with faults := { s.faults with
      fenced := mset s.faults.fenced a reason, stepFails := mdel s.faults.stepFails a, toFence := s.faults.toFence.filter (fun x => x.1 != a),
      substs := if reason = 4 || reason = 5 || reason = 7 || reason = 8 then s.faults.substs
        else s.faults.substs ++ [({ array := a, reason := reason } : Subst)] } }
    let s2 := (if (mget s1.time.islands site {}).running then (s1.leaderGone a).resetFenced a else s1.leaderGone a).notice a reason site
    (s2.bark 0x0020 { kind := .array, num := a } [(24, a), (26, reason), (28, site)]).substGo (arrPack a)

/-- The fence ends at the array's own site (R487). -/
def State.unfence (s : State) (a : Nat) : State :=
  { s.wr F.fabSite_fenced a 0 with faults := { s.faults with fenced := mdel s.faults.fenced a } }.notice a 0x12 (s.siteOf a)

/-- A fenced array that fails its test or its run is substituted (R495, R497). -/
def State.substitute (s : State) (a reason : Nat) : State :=
  ({ s with faults := { s.faults with fenced := mset s.faults.fenced a reason,
                                      substs := s.faults.substs ++ [({ array := a, reason := reason } : Subst)] } }).substGo (arrPack a)

/-- The next substitution of the pack, and resets that waited for this one (R492). -/
def State.substNext (s : State) (a : Nat) : State :=
  (({ s with faults := { s.faults with substs := s.faults.substs.filter (fun x => x.array != a) } }).substGo (arrPack a)).runDeferred

/-- Registers of a tile's own hardware that do not follow a number to its new tile. -/
def tileRegs (a : Nat) : List (Fld × Nat) :=
  ((regFields .tmErrCnt ++ regFields .tmErrLog ++ regFields .tmErrThresh ++ regFields .tmDeny ++ regFields .tmCtrSat ++ regFields .arrFlags).map
    (fun f => (f, a)))

/-- An endpoint on the reserve tile that takes over its number: closed by reset where the failed tile held it open, or where a reset had closed
it from the open state and it has not reopened; else closed. Queue and spill slots start empty, the epoch goes on (R300). -/
def State.takeOverEp (s : State) (a e : Nat) : State :=
  let i := epKey a e
  let was := s.epOpen a e || (s.ep a e).wasOpen
  (((((s.setEp a e { wasOpen := was }).wr F.chEpState_state i (if was then 2 else 0)).wr F.chEpState_queued i 0).wr F.chEpState_spilled i 0).wr
    F.chEpState_batch i 0).wr F.chEpState_blocked i 0

/-- The site table takes a substitution or a vacancy (R488, Steps 7 and 10; R300). No initialisation of the failed tile goes on. -/
def State.moveSite (s : State) (c : FabChange) : State :=
  if c.vacant then s.wr F.fabSite_state c.array 1
  else
    let s0 := ((((s.each (List.range 64) (fun s e => s.takeOverEp c.array e)).updArr c.array (fun x => { member := x.member })).clrRange
      F.tmRgn_initBusy (c.array * 16) 16)).clrRange F.tmCtr_value (c.array * 64) 64
    let s1 := (s0.wr F.fabSite_site c.array c.site).clrRegs (tileRegs c.array)
    ((s1.clrRange F.chEpCnt_items (c.array * 64) 64).clrRange F.chEpCnt_discard (c.array * 64) 64).clrRange F.chEpCnt_tmo (c.array * 64) 64

/-- Record a failed tile (R491). -/
def State.markFailed (s : State) (site : Nat) : State :=
  s.wrBit F.fltReserve_failedSites (sitePack site) (sitePos site) true

/-- A swap ends: its register says how, and the leader goes on (R493). -/
def State.endSwap (s : State) (a st : Nat) : State :=
  ((s.wr F.fltSwap_status 0 st).wr F.fltSwap_go 0 0).releaseRegion a

def State.isSwap (s : State) (a : Nat) : Bool := s.faults.substs.any (fun x => x.array == a && x.swap)

/-- An island stops, or starts in spine mode (R394, R412). -/
def State.runIsland (s : State) (i : Nat) (on : Bool) : State :=
  if (s.isl i).running = on then s
  else
    let s1 := (s.updIsl i (fun x => { x with running := on })).wr F.clkIsl_dark i (b2n !on)
    if on then s1.toSpine i else s1

/-- Counters of an island, which start at 0 when its tile enters service (R420). -/
def islCounters (i : Nat) : List (Fld × Nat) :=
  [F.clkIsl_switches, F.clkIsl_missed, F.clkIsl_holdCnt, F.clkMargin_warnCnt, F.clkMargin_stretchWin, F.clkMargin_longWin].map (fun f => (f, i))

/-- A reserve tile enters service: its islands' counters, its penalty and its thermal model start afresh (R420, R503, R528). -/
def State.freshTile (s : State) (site : Nat) : State :=
  let s1 := (s.clrRegs (islCounters site ++ islCounters (576 + site))).freshPenalty site
  { s1 with power := { s1.power with therm := mdel s1.power.therm site } }

/-- Steps 8 to 10 of a substitution, once its change has been released (R488). `old` is the site the number has left. -/
def State.endSubst (s : State) (c : FabChange) (old : Nat) : State :=
  let a := c.array
  let p := arrPack a
  let s1 := { ((s.wr F.fabSite_fenced a 0).markFailed old).runIsland old false with
    faults := { s.faults with fenced := mdel s.faults.fenced a } }
  if c.vacant then
    ((((s1.cnt F.idnState_vacant 0).notice a 0x11 old).bark 0x0022 { kind := .array, num := a } [(24, a), (26, old), (28, b2n c.resFailed)]).releaseRegion
      a).substNext a
  else
    let s2 := ((s1.wr F.fltReserve_resPos p 0xF).wr F.fltReserve_subK p (a % 8)).runIsland c.site true |>.freshTile c.site
    let s3 := if s.rd F.idnState_phase 0 = 7 then s2.cnt F.idnState_subst 0 else s2
    let s4 := (s3.notice a 0x10 c.site).bark 0x0021 { kind := .array, num := a } [(24, a), (26, old), (28, c.site)]
    (if s4.isSwap a then s4.endSwap a 0 else s4).substNext a

end Sys2Proof.Machine
end

