-- ==== Sys2Proof/Machine/Arrays.lean ====
section
/-! DEFINITION. Tile registers and tile memory upkeep: `ARR_FLAGS`, region descriptors and their initialisation, write-back and scrub (R109,
R174, R175, R190 to R192). -/

namespace Sys2Proof.Machine

/-- A write to `ARR_FLAGS` under the bit mask `m`; `satNow`: the array saturates in the cycle of the write (R22, R109). -/
def State.wrFlags (s : State) (a v m : Nat) (satNow : Bool) : State :=
  let s1 := s.storeReg .arrFlags a v m
  let s2 := if bitAt (v &&& m) 5 then s1.wr F.arrFlags_satCount a 0 else s1
  if satNow then (s2.wr F.arrFlags_saturated a 1).cnt F.arrFlags_satCount a else s2

/-- ARR_FLAGS_WRITE (R109). -/
def execArrFlagsWrite (port : Fin 2) (a : Fin 512) (value : BitVec 32) (satNow : Bool) (s : State) : Out :=
  s.barArr port a (fun s => s.wrFlags a value.toNat fullMask satNow)

/-! ### Region descriptors (R171 to R175) -/

/-- Regions of tile `a` with region `n` as in the state `t`: whether R174 refuses that. -/
def State.rgnBad (t : State) (a n : Nat) : Bool :=
  let i := a * 16 + n
  decide (1024 < t.rd F.tmRgn_base i + t.rd F.tmRgn_size i) || t.rgnValid a n &&
    (t.rd F.tmRgn_size i == 0 ||
     (t.on F.tmRgn_spill i && decide (256 < t.rd F.tmRgn_size i)) ||
     (List.range 16).any (fun k => k != n && t.rgnValid a k &&
       ((decide (t.rgnLo a k < t.rgnHi a n) && decide (t.rgnLo a n < t.rgnHi a k)) || (t.on F.tmRgn_spill i && t.on F.tmRgn_spill (a * 16 + k)))))

/-- Items spilled at tile `a` are discarded and counted (R190). -/
def State.dropSpilled (s : State) (a : Nat) : State :=
  s.each (List.range 64) (fun s e =>
    let i := epKey a e
    if s.rd F.chEpState_spilled i == 0 then s
    else ((s.each (s.epSlots a e) (fun s k => s.clearSlot a k)).countDiscard a e (s.rd F.chEpState_spilled i)).wr F.chEpState_spilled i 0)

/-- A write to `TM_RGN_n` under the bit mask `m` (R174, R175, R190). -/
def State.wrRgn (s : State) (a n v m : Nat) : State :=
  let i := a * 16 + n
  let t := s.storeReg .tmRgn i v m
  let refused := s.isMember a || t.rgnBad a n ||
    (s.inRegion a && s.rgnValid a n && s.on F.tmRgn_spill i && t.rdReg .tmRgn i != s.rdReg .tmRgn i)
  if refused then s.bark 0x0002 { kind := .array, num := a } [(24, n)]
  else
    let moved (f : Fld) : Bool := s.rd f i != t.rd f i
    let init := t.rgnValid a n && (!s.rgnValid a n || moved F.tmRgn_base || moved F.tmRgn_size || moved F.tmRgn_prot)
    let wasSpill := s.rgnValid a n && s.on F.tmRgn_spill i
    let spillGone := wasSpill && (init || !t.rgnValid a n || !t.on F.tmRgn_spill i)
    let s1 := if spillGone then s.dropSpilled a else s
    let s2 := s1.storeReg .tmRgn i v m
    let s3 := if init then s2.wr F.tmRgn_initBusy i 1 else s2
    if spillGone && (s3.spillRgn a).isSome then s3.slotNotices a else s3

/-- TM_RGN_WRITE (R174). -/
def execTmRgnWrite (port : Fin 2) (a : Fin 512) (n : Fin 16) (value : BitVec 64) (s : State) : Out :=
  s.barArr port a (fun s => s.wrRgn a n value.toNat fullMask)

/-- REGION_INIT_DONE (R175): every line of the range is zero. Nothing reads the range before. -/
def execRegionInitDone (a : Fin 512) (n : Fin 16) (s : State) : Out :=
  let i := (a : Nat) * 16 + n
  if !s.on F.tmRgn_initBusy i || s.halted (s.arrIsland a) then .next s
  else .next ((s.zeroRange (s.siteOf a) (s.rgnLo a n) (s.rgnHi a n)).wr F.tmRgn_initBusy i 0)

/-! ### Corrected words (R191, R192) -/

/-- Words of a line whose single flipped bit the code corrects, and words it cannot correct. -/
def State.lineErrs (s : State) (site line : Nat) : List Nat × List Nat := s.rangeErrs site true (line * 64) 64

/-- Store the corrected words of a line afresh. -/
def State.mendLine (s : State) (site line : Nat) : State := s.mendWords site (s.lineErrs site line).1

/-- The region of the tile at a site that holds a line, with its array, where the region is of kind SECDED64. -/
def State.secdedAt (s : State) (site line : Nat) : Option Nat :=
  match s.arrayAt site with
  | none => none
  | some a => match s.region a (line * 64) 64 with
    | some n => if s.rd F.tmRgn_prot (a * 16 + n) == 1 then some a else none
    | none => none

/-- CORRECTED_WRITEBACK (R191). -/
def execCorrectedWriteback (site : Fin 576) (line : Nat) (s : State) : Out :=
  if 1048576 ≤ line || s.halted site then .next s
  else match s.secdedAt site line with
    | none => .next s
    | some _ => .next (s.mendLine site line)

/-- SCRATCHPAD_SCRUB (R192): one line; the counts and the record of R191, with kind scrub. -/
def execScratchpadScrub (site : Fin 576) (line : Nat) (s : State) : Out :=
  if 1048576 ≤ line || s.halted site then .next s
  else match s.secdedAt site line with
    | none => .next s
    | some a =>
      let e := s.lineErrs site line
      .next (if e.1.isEmpty && e.2.isEmpty then s else (s.logErrs a 7 true 2 e.1 e.2).mendLine site line)

end Sys2Proof.Machine
end

