-- ==== Sys2Proof/Machine/Clocks.lean ====
section
/-! DEFINITION. Islands' clocks, counted and spine time, the time source, panel time (R394 to R420). -/

namespace Sys2Proof.Machine

/-- MN is stopped: freeze-all (R540). -/
def State.mnHalted (s : State) : Bool := s.halted 1228

/-- Spine delay of an island, in ns (R405, R465). -/
def State.spineDelay (s : State) (i : Nat) : Rat :=
  match s.boot.record with
  | none => 0
  | some r => match r.spineDelays with
    | none => 0
    | some l => ((l.getD i 0 : Nat) : Rat) / 16

/-! ### Switches between counted and spine mode (R411 to R413) -/

/-- A switch for an error or for missed beacons: a time-fallback record, and points (R412, R504). -/
def State.fallback (s : State) (i : Nat) : State :=
  if s.rd F.clkIsl_mode i = 1 then s
  else ((s.toSpine i).bark 0x0019 { kind := .island, num := i } [(24, (s.isl i).err)]).penalize (islUnit i) 1024

/-- An island has taken a correction error (R412). -/
def State.judge (s : State) (i : Nat) (e : Rat) : State :=
  let a := if e < 0 then -e else e
  let q := (a * 4).floor.toNat
  let s1 := (s.updIsl i (fun x => { x with err := q, missedRun := 0 })).wr F.clkIsl_corrErr i (min q 0xFF)
  if s1.rd F.clkIsl_mode i = 0 then (if 20 < a then s1.fallback i else s1)
  else
    let n := if a ≤ 4 then (s1.isl i).goodRun + 1 else 0
    let s2 := s1.updIsl i (fun x => { x with goodRun := n })
    if 16 ≤ n then s2.setMode i 0 else s2

/-! ### Beacons (R407 to R409) -/

/-- UTC offset in force at panel time `t` (R419), as 16 bits. -/
def State.utcAt (s : State) (t : Nat) : Nat :=
  let l := s.rd F.clkLeap_leapTime 0
  if l != 0 && decide (l ≤ t) then s.rd F.clkUtc_nextOffset 0 else s.rd F.clkUtc_utcOffset 0

/-- The payload of a beacon. -/
def State.beaconBytes (s : State) : List Byte :=
  let st := s.rd F.clkStat_timeState 0
  let leap := s.rd F.clkLeap_leapTime 0
  let flags := b2n s.time.stepFlag + 2 * b2n (st == 2) + 4 * b2n (st == 3) + 8 * b2n (leap != 0 && decide (s.now < leap))
  leBytes 2 (s.time.frac / 4096) ++ leBytes 1 flags ++ leBytes 1 st ++ leBytes 4 s.time.period ++ leBytes 2 (s.utcAt s.now) ++
  leBytes 2 (s.rd F.clkUtc_nextOffset 0) ++ leBytes 8 leap ++ leBytes 12 0

/-- Markers from `m` to `k`: marker numbers count modulo 2^32 (R407). -/
def markersSince (m k : Nat) : Nat := (k % 2 ^ 32 + 2 ^ 32 - m % 2 ^ 32) % 2 ^ 32

def isBeacon (p : Packet) : Bool := match p.body with
  | .beacon .. => true
  | _ => false

/-- BEACON_BROADCAST (R407): one for each marker. Beacons that no island can still use leave the net. -/
def execBeaconBroadcast (s : State) : Out :=
  let k := s.time.marker
  if s.time.beaconSent = k + 1 || s.inSit || s.mnHalted || s.rd F.idnState_panelState 0 = 2 then .next s
  else
    let old (p : Packet) : Bool := match p.body with
      | .beacon m _ => decide (8 < markersSince m k)
      | _ => false
    let s1 := { s with net := s.net.filter (fun p => !old p), time := { s.time with beaconSent := k + 1 } }
    .next (s1.sendTc0 { body := .beacon (k % 2 ^ 32) s.now, cls := 0, noack := true, dst := .broadcast, src := .mgmt 0, payload := s.beaconBytes })

/-- The correction of R409: `m` is the true time at the island's marker edge, `ek` its count there. -/
def Island.correct (x : Island) (i : Nat) (step : Bool) (m : Rat) (ek : Int) : Rat × Island :=
  let e := m - x.at i ek
  if step then (0, { x with anchorE := ek, anchorT := m, prev := some (m, ek), absorb := 0, absorbE := ek })
  else
    let g := match x.prev with
      | none => x.g i
      | some (mp, ep) => if ek = ep then x.g i else x.g i + ((m - mp) / ((ek - ep : Int) : Rat) - x.g i) / 8
    let y := { x with rate := g, prev := some (m, ek), absorbE := ek }
    match x.prev with
    | none => (0, { y with anchorE := ek, anchorT := m, absorb := 0 })
    | some _ =>
      if 0 ≤ e then (e, { y with anchorE := ek, anchorT := m, absorb := 0 })
      else (e, { y with anchorE := ek, anchorT := x.at i ek, absorb := -e })

/-- BEACON (R409 to R413): island `i` receives a beacon once. -/
def execBeacon (i : Fin 1230) (pkt : Packet) (s : State) : Out :=
  match pkt.body with
  | .beacon marker time =>
    let x := s.isl i
    if !s.islandHears pkt i || s.halted i || 2 ^ 31 ≤ markersSince x.lastBeacon marker || s.on F.clkIsl_holdover i then .next s
    else
      let frac := leNat (pkt.payload.take 2)
      let flags := leNat ((pkt.payload.drop 2).take 1)
      let period := leNat ((pkt.payload.drop 4).take 4)
      let m : Rat := (time : Rat) + (frac : Rat) / 65536 + s.spineDelay i
      let s1 := s.updIsl i (fun x => { x with lastBeacon := (marker + 1) % 2 ^ 32, spineT := m, spinePeriod := period })
      .next (match x.latched.find? (fun l => l.1 == marker) with
        | none => (s1.cnt F.clkIsl_missed i).updIsl i (fun x => { x with missedRun := x.missedRun + 1 })
        | some (_, ek) =>
          let r := (s1.isl i).correct i (flags.testBit 0) m ek
          (s1.updIsl i (fun _ => r.2)).judge i r.1)
  | _ => .next s

/-- BEACON_MISSED_LIMIT (R412): eight beacons in a row were missed: received too early or too late, or not received. -/
def execBeaconMissedLimit (i : Fin 1230) (s : State) : Out :=
  let x := s.isl i
  if s.halted i || s.on F.clkIsl_holdover i || decide (x.missedRun + markersSince x.lastBeacon (s.time.marker + 1) < 8) then .next s
  else .next (s.fallback i)

/-- SPINE_TICK_LOSS (R413). -/
def execSpineTickLoss (i : Fin 1230) (s : State) : Out :=
  if s.on F.clkIsl_holdover i || !(s.isl i).running then .next s
  else .next (((s.wr F.clkIsl_holdover i 1).setMode i 0).bark 0x001A { kind := .island, num := i })

/-- SPINE_TICK_RETURN (R413). -/
def execSpineTickReturn (i : Fin 1230) (s : State) : Out :=
  if !s.on F.clkIsl_holdover i then .next s else .next ((s.wr F.clkIsl_holdover i 0).toSpine i)

/-! ### Set frequency, droop, holds, margins (R396 to R403) -/

/-- ISLAND_FREQ_CHANGE_DONE (R396, R408): the change to `step` × 25 MHz, which R519 asks for, is complete. -/
def execIslandFreqChangeDone (i : Fin 1230) (step : Nat) (s : State) : Out :=
  let x := s.isl i
  let old := x.freqNow i
  if s.halted i || islKind i == .fixed || step != s.setFreq i || step = old || step = 0 then .next s
  else .next (s.updIsl i (fun x => { x with freq := step, rate := if x.rate = 0 then 0 else x.rate * (old : Rat) / (step : Rat) }))

/-- A brake stretches every cycle of the array islands that it acts on by 19/64 (R516, R517). -/
def State.braked (s : State) (i : Nat) : Bool :=
  islKind i == .array && (s.on F.pwrStat_brake 0 || s.power.packBrake.contains (islPack i))

/-- DROOP_STRETCH (R399, R400, R408): a cycle stretched by `st`/64; `st` = 0 is a plain cycle, which ends a stretch window. -/
def execDroopStretch (i : Fin 1230) (st : Fin 20) (s : State) : Out :=
  let k := if s.braked i then 19 else st.val
  if s.halted i then .next s
  else if k = 0 then .next (s.updIsl i (fun x => { x with window := 0, longWin := false, cc := (x.cc + 1) % 2 ^ 48 }))
  else
    let s1 := if (s.isl i).window = 0 then s.cnt F.clkMargin_stretchWin i else s
    .next (s1.updIsl i (fun x => { x with window := x.window + 64 + k, sc := x.sc + k, cc := (x.cc + 1) % 2 ^ 48 }))

/-- SUSTAINED_DROOP (R400): the stretch window lasts longer than 1 µs. -/
def execSustainedDroop (i : Fin 1230) (s : State) : Out :=
  let x := s.isl i
  if s.halted i || x.longWin || decide ((x.window : Rat) * unitNs (x.freqNow i) ≤ 1000) then .next s
  else .next (((s.updIsl i (fun x => { x with longWin := true })).cnt F.clkMargin_longWin i).stepDown i 0)

/-- CLOCK_HOLD (R401, R412, R504). -/
def execClockHold (i : Fin 1230) (s : State) : Out :=
  if s.halted i then .next s
  else .next ((((s.cnt F.clkIsl_holdCnt i).barkRate 0x0015 i 1000000 { kind := .island, num := i }).toSpine i).penalize (islUnit i) 2048)

/-- MARGIN_WINDOW (R403, R504). -/
def execMarginWindow (i : Fin 1230) (minPs : BitVec 10) (sensor : Fin 8) (s : State) : Out :=
  if s.halted i then .next s
  else
    let m := minPs.toNat
    let u : UnitId := { kind := .island, num := i }
    let s1 := (s.wr F.clkMargin_minPs i m).wr F.clkMargin_minSensor i sensor
    let s2 := if m < s.rd F.clkMarginCfg_warnPs 0 then
        ((s1.cnt F.clkMargin_warnCnt i).bark 0x0016 u [(24, m), (26, sensor)]).penalize (islUnit i) 256 else s1
    .next (if m < s.rd F.clkMarginCfg_critPs 0 then
        ((s2.stepDown i 1).bark 0x0017 u [(24, m), (26, sensor)]).penalize (islUnit i) 4096 else s2)

/-- A write to `CLK_MARGIN_CFG` (R420). -/
def State.wrMarginCfg (s : State) (v m : Nat) : State :=
  if s.newFld F.clkMarginCfg_critPs 0 v m < s.newFld F.clkMarginCfg_warnPs 0 v m then s.storeReg .clkMarginCfg 0 v m
  else s.refuseReg .clkMarginCfg 0

/-- CLK_MARGIN_CFG_WRITE (R420). -/
def execClkMarginCfgWrite (port : Fin 2) (value : BitVec 32) (s : State) : Out :=
  s.bar port .unit (fun s => s.wrMarginCfg value.toNat 0xFFFFFFFF)

/-! ### The spine and panel time (R404, R406, R416) -/

/-- `SPINE_SRC` changes, with its record. -/
def State.spineSrc (s : State) (v : Nat) : State := (s.wr F.clkStat_spineSrc 0 v).bark 0x0018 {} [(24, v)]

/-- REF10M_INVALID (R404). -/
def execRef10mInvalid (s : State) : Out :=
  if !s.time.refOk then .next s
  else
    let s1 := { s with time := { s.time with refOk := false } }
    .next (if s.on F.clkCfg_refEn 0 && s.rd F.clkStat_spineSrc 0 != 1 then s1.spineSrc 1 else s1)

/-- REF10M_RESTORE (R404): valid for 10 s. -/
def execRef10mRestore (s : State) : Out :=
  if s.time.refOk then .next s
  else
    let s1 := { s with time := { s.time with refOk := true } }
    .next (if s.on F.clkCfg_refEn 0 then s1.spineSrc 0 else s1)

/-- `TIME_STATE` once a time has been given (R415). -/
def State.timeGiven (s : State) : State :=
  let s1 := { s with time := { s.time with everSet := true } }
  if s1.rd F.clkCfg_timeSrc 0 = 0 then s1.wr F.clkStat_timeState 0 4
  else if s1.rd F.clkStat_timeState 0 = 0 || s1.rd F.clkStat_timeState 0 = 4 then s1.wr F.clkStat_timeState 0 1
  else s1

/-- A step at this marker: panel time becomes `t` (R416). -/
def State.stepTime (s : State) (t : Nat) : State :=
  let old := s.now
  ({ s with time := { s.time with ns := t % 2 ^ 64, frac := 0, stepFlag := true, stepAt := none, stepBy := none } }.bark 0x001B {}
    [(24, old), (32, t % 2 ^ 64)]).timeGiven

/-- A pending step takes effect at marker `k`. -/
def State.pendingStep (s : State) (k : Nat) : State :=
  match s.time.stepAt, s.time.stepBy with
  | some (m, t), _ => if m ≤ k then (s.wr F.clkCmd_set 0 0).stepTime t else s
  | none, some d => s.stepTime ((s.now : Int) + d).toNat
  | none, none => s

/-- Ten seconds, in markers. -/
def lockMarkers : Nat := 10000000

/-- `|offset|` has been small for one more marker; after 10 s the panel is locked (R415). -/
def State.countLock (s : State) : State :=
  if !s.time.offsetOk || s.rd F.clkStat_timeState 0 != 1 then s
  else
    let n := s.time.lockedFor + 1
    let s1 := { s with time := { s.time with lockedFor := n } }
    if lockMarkers ≤ n then s1.wr F.clkStat_timeState 0 2 else s1

/-- An island latches its count at a marker: it keeps the last four. The count E is 64 × CC + SC with the phase of the cycle (R408). -/
def State.latch (s : State) (i e k : Nat) : State :=
  if s.halted i || s.on F.clkIsl_holdover i then s
  else s.updIsl i (fun x => { x with latched := ((k % 2 ^ 32, e) :: x.latched).take 4, cc := (e - x.sc) / 64 % 2 ^ 48 })

/-- `CLK_CMD` with `SET` (R416, R420): a step at the next marker plus 1 µs. -/
def State.setTime (s : State) : State :=
  let src := s.rd F.clkCfg_timeSrc 0
  if src = 1 || (src = 2 && s.time.master) then s.refuseReg .clkCmd 0
  else ({ s with time := { s.time with stepAt := some (s.time.marker + 2, s.rd F.clkSet_ns 0) } }).wr F.clkCmd_set 0 1

/-- CLK_SET_CMD (R420). -/
def execClkSetCmd (port : Fin 2) (s : State) : Out := s.bar port .unit (fun s => s.rw1s F.clkCmd_set State.setTime)

/-! ### The time source (R414 to R419) -/

/-- The servo changes `SPINE_PERIOD` by an amount that the spec does not give, within 200 ppm in any millisecond (R406). -/
def State.slew (s : State) : State :=
  let (f, s1) := s.drawFree
  let used := (s1.time.slews.map (·.2)).sum
  let room := 214748 - min used 214748
  let d := f / 2 % (room + 1)
  let p := if f % 2 = 0 then s1.time.period + d else s1.time.period - d
  { s1 with time := { s1.time with period := p % 2 ^ 32, slews := (s1.time.marker, d) :: s1.time.slews } }

/-- An offset of panel time from the source is measured, in ps (R415, R416). -/
def State.measured (s : State) (ps : Int) : State :=
  let sat := max (-(2 ^ 31 : Int)) (min ps (2 ^ 31 - 1))
  let ok := decide (ps.natAbs ≤ 100000)
  let st := s.rd F.clkStat_timeState 0
  let s1 := s.wr F.clkStat_offsetPs 0 (sat % 2 ^ 32).toNat
  let s2 := { s1 with time := { s1.time with offsetOk := ok, lockedFor := if ok then s1.time.lockedFor else 0 } }
  let s3 := if st = 3 || st = 4 || (st = 2 && !ok) then s2.wr F.clkStat_timeState 0 1 else s2
  if 1000000000 < ps.natAbs then { s3 with time := { s3.time with stepBy := some (-(ps / 1000)) } } else s3.slew

/-- A locked panel loses its source (R415). -/
def State.holdOver (s : State) : State :=
  let s1 := { s with time := { s.time with offsetOk := false, lockedFor := 0 } }
  if s.rd F.clkStat_timeState 0 = 2 then s1.wr F.clkStat_timeState 0 3 else s1

/-! The boundary clock (R334) -/

/-- Order of the default data set comparison; equal data sets go by steps and sender (log entry 56). -/
def ptpKey (c : PtpClock) : List Nat :=
  [c.priority1, c.clockClass, c.accuracy, c.variance, c.priority2, c.identity, c.steps, c.sender]
def ptpBetter (a b : PtpClock) : Bool := decide (ptpKey a < ptpKey b)

/-- The PTP ports. -/
def State.ptpPorts (s : State) : List Nat :=
  (List.range 8).filter (fun n => s.on F.fldPort_en n && s.on F.fldPort_ptpEn n && s.on F.fldPortStat_link n)

/-- The best clock heard, and its port. -/
def State.ptpBest (s : State) : Option (Nat × PtpClock) :=
  s.ptpPorts.foldl (fun b n => match b, (s.fport n).heard with
    | none, some c => some (n, c)
    | some x, some c => some (if ptpBetter c x.2 then (n, c) else x)
    | b, none => b) none

inductive PtpRole where | master | slave | passive
  deriving DecidableEq, Repr

/-- The state decision of a port. -/
def State.ptpRole (s : State) (n : Nat) : PtpRole :=
  match s.ptpBest with
  | none => .master
  | some (m, c) =>
    let mine := (s.fport n).heard
    if Config.ptpOwn.clockClass ≤ 127 then
      (match mine with
      | some e => if ptpBetter e Config.ptpOwn then .passive else .master
      | none => .master)
    else if ptpBetter Config.ptpOwn c then .master
    else if n = m then .slave
    else match mine with
      | some e => if e.identity = c.identity then .passive else .master
      | none => .master

/-- A master is elected: some port follows it. -/
def State.ptpElected (s : State) : Bool := s.ptpPorts.any (fun n => s.ptpRole n == .slave)

def State.queuePtp (s : State) (n k : Nat) : State := s.updFport n (fun x => { x with ptp := x.ptp ++ [k] })

/-- What the PTP engine hears at port `n` in its domain (R334, R414 to R419). -/
def State.hearPtp (s : State) (n : Nat) (m : PtpMsg) : State :=
  let src := s.rd F.clkCfg_timeSrc 0
  match m with
  | .announce c utc next leap =>
    let newer := match (s.fport n).heard with
      | none => true
      | some o => o.sender == c.sender || ptpBetter c o
    if !newer then s
    else
      let s1 := s.updFport n (fun x => { x with heard := some c })
      let s2 := { s1 with time := { s1.time with master := s1.ptpElected } }
      if src = 1 && s2.ptpRole n == .slave then
        ((s2.wr F.clkUtc_utcOffset 0 utc).wr F.clkUtc_nextOffset 0 next).wr F.clkLeap_leapTime 0 leap else s2
  | .offset ps => if src = 1 && s.ptpRole n == .slave then s.measured ps else s
  | .firstTime t =>
    if src != 0 && s.ptpRole n == .slave && s.rd F.clkStat_timeState 0 = 0 then
      { s with time := { s.time with stepAt := some (s.time.marker + 1, t) } } else s
  | .delayReq => if s.ptpRole n == .master then s.queuePtp n 4 else s
  | .pdelayReq => s.queuePtp n 5
  | .management => s
  | .other => s

/-- Messages that a PTP port sends of its own accord, at intervals that the spec does not give: Announce and Sync as a master, Delay_Req as a
slave, Pdelay_Req always. `t0` is the panel time of the marker before. -/
def State.ptpSend (s : State) (t0 : Nat) : State :=
  s.each s.ptpPorts (fun s n =>
    if s.halted (1224 + n / 4) then s
    else
      let due (k : Nat) : Bool := Config.ptpInterval k != 0 && s.now / Config.ptpInterval k != t0 / Config.ptpInterval k
      let ks := (match s.ptpRole n with
        | .master => [0, 1]
        | .slave => [2]
        | .passive => []) ++ [3]
      (ks.filter due).foldl (fun s k => s.queuePtp n k) s)

/-- TIME_SOURCE_LOST (R415): the elected master is heard no more; another that the ports hear may follow it. -/
def execTimeSourceLost (s : State) : Out :=
  if !s.time.master then .next s
  else
    let s1 := s.each s.ptpPorts (fun t n => if s.ptpRole n == .slave then t.updFport n (fun x => { x with heard := none }) else t)
    let s2 := { s1 with time := { s1.time with master := s1.ptpElected } }
    .next (if s.rd F.clkCfg_timeSrc 0 = 1 then s2.holdOver else s2)

/-- SPINE_MARKER (R406, R408, R416): 250 spine ticks have passed since the last marker. -/
def execSpineMarker (latched : NMap Nat) (s : State) : Out :=
  let k := s.time.marker + 1
  let n := s.time.ns * 2 ^ 28 + s.time.frac + 250 * s.time.period
  let s1 := { s with time := { s.time with
    ns := n / 2 ^ 28 % 2 ^ 64, frac := n % 2 ^ 28, marker := k, stepFlag := false,
    slews := s.time.slews.filter (fun x => decide (k < x.1 + 1000)) } }
  let s2 := (s1.pendingStep k).countLock
  let busy := s2.arrays.foldl (fun m e => if e.2.run.isSome then mput m (arrPack e.1) 0 (mget m (arrPack e.1) 0 + 1) else m) s2.host.teleBusy
  let s2 : State := { s2 with host := { s2.host with teleBusy := busy } }
  let s3 := if s2.pins.ppsOut && decide (s2.time.ppsUntil ≤ s2.now) then { s2 with pins := { s2.pins with ppsOut := false } } else s2
  .next (latched.foldl (fun s e => if e.1 < Config.nIslands then s.latch e.1 e.2 k else s) (s3.ptpSend s.now))

/-- A timestamp `ts` of an instant after the last marker, which island `i` takes within 8 ns of panel time while it is in counted mode. -/
def State.stampOk (s : State) (i ts : Nat) : Bool :=
  s.rd F.clkIsl_mode i != 0 || s.on F.clkIsl_holdover i || (decide (ts ≤ s.now + 1008) && decide (s.now ≤ ts + 1008))

/-- PPS_IN_EDGE (R417): a rising edge, timestamped `ts` in panel time. -/
def execPpsInEdge (ts : Nat) (s : State) : Out :=
  if s.mnHalted || !s.stampOk 1228 ts then .next s
  else
    let t := ((ts : Int) - signed16 (s.rd F.clkCfg_ppsInComp 0)).toNat
    let s1 := { (s.wr F.clkPpsInTs_ns 0 t) with time := { s.time with lastPps := some t } }
    let good := match s.time.lastPps with
      | none => true
      | some l => decide ((((t : Int) - l) - 1000000000).natAbs ≤ 1000)
    let mode2 := s.rd F.clkCfg_timeSrc 0 = 2
    if !good then
      let s2 := s1.wr F.clkStat_ppsInOk 0 0
      .next (if mode2 then s2.holdOver else s2)
    else
      let s2 := s1.wr F.clkStat_ppsInOk 0 1
      let off : Int := ((t + 500000000) % 1000000000 : Nat) - 500000000
      .next (if mode2 && s2.time.everSet then s2.measured (off * 1000) else s2)

/-- PPS_IN_MISSING (R417): no edge for 2 s. -/
def execPpsInMissing (s : State) : Out :=
  let early := match s.time.lastPps with
    | none => false
    | some l => decide ((s.now : Int) + 1000 < l + 2000000000 + signed16 (s.rd F.clkCfg_ppsInComp 0))
  if s.mnHalted || early then .next s
  else
    let s1 := { (s.wr F.clkStat_ppsInOk 0 0) with time := { s.time with lastPps := none } }
    .next (if s.rd F.clkCfg_timeSrc 0 = 2 then s1.holdOver else s1)

/-- A whole second of panel time, advanced by `PPS_OUT_COMP`, lies within the microsecond after the last marker (R418). -/
def State.secondDue (s : State) : Bool :=
  decide (((s.now : Int) + signed16 (s.rd F.clkCfg_ppsOutComp 0) + 1010) % 1000000000 ≤ 1020)

/-- PPS_OUT_PULSE (R418, R540): a whole second of panel time. -/
def execPpsOutPulse (s : State) : Out :=
  if s.secondDue && ((s.on F.clkCfg_ppsOutEn 0 && s.rd F.clkStat_timeState 0 = 2) || s.on F.clkCfg_ppsOutForce 0) && !(s.inSit && s.sit.all) then
    .next { s with pins := { s.pins with ppsOut := true },
                   time := { s.time with ppsUntil := s.now + s.rd F.clkCfg_ppsOutWidth 0 * 1000000 } }
  else .next s

/-- A write to `CLK_CFG`: the spine root and `TIME_STATE` follow it (R404, R415). -/
def State.wrClkCfg (s : State) (v m : Nat) : State :=
  let s1 := s.storeReg .clkCfg 0 v m
  let src := s1.rd F.clkCfg_timeSrc 0
  let want := if s1.on F.clkCfg_refEn 0 && s1.time.refOk then 0 else 1
  let s2 := if s1.rd F.clkStat_spineSrc 0 = want then s1 else s1.spineSrc want
  if src = s.rd F.clkCfg_timeSrc 0 then s2
  else
    let s3 := { s2 with time := { s2.time with offsetOk := false, lockedFor := 0 } }
    if !s3.time.everSet then s3
    else s3.wr F.clkStat_timeState 0 (if src = 0 then 4 else 1)

end Sys2Proof.Machine
end

