-- ==== Sys2Proof/Machine/Faults.lean ====
section
/-! DEFINITION. Faults, spares and health: fences, substitution, swaps, conflicts, shorted packs, the south half, firmware distribution (R462,
R478, R479, R483 to R510). -/

namespace Sys2Proof.Machine

/-! ### Fences (R483 to R487) -/

/-- HEARTBEAT_TIMEOUT (R484): the router reports its array to MN. Sit, a reset of the array and a reserve suspend the check. -/
def execHeartbeatTimeout (site : Fin 576) (s : State) : Out :=
  match s.arrayAt site with
  | none => .next s
  | some a =>
    if s.inSit || s.inReset a || s.arrFenced a || s.siteDead site || s.packDark (sitePack site) || s.faults.toFence.contains (a, 1) then .next s
    else .next { s with faults := { s.faults with toFence := s.faults.toFence ++ [(a, 1)] } }

/-- ARRAY_FENCE (R486): MN fences an array that has been reported, or whose region now holds its next step-start (R493, R495). -/
def execArrayFence (a : Fin 512) (reason : Nat) (s : State) : Out :=
  if !s.faults.toFence.contains (a.val, reason) || ((reason = 4 || reason = 8) && !s.heldOk a) then .next s
  else .next (s.fence a reason)

/-- FENCE_NOTICE (R483, R490): leaders learn of a member's fence or of its end, reductions of a contributor's. No closing notice follows a
fence of a dark pack, and none is waited for (R496). -/
def execFenceNotice (pkt : Packet) (s : State) : Out :=
  match pkt.body with
  | .fenceNotice a reason _ =>
    if !s.mayMove pkt || s.inSit then .next s
    else
      let s1 := s.take pkt
      let heard := match (s.arr a).member with
        | some (l, _) => s.hears pkt (s.siteOf l)
        | none => false
      let gone (s : State) : State := (if heard then s.memberGone a false else s).redFence a
      .next (match reason with
        | 0x10 => if heard then s1.memberBack a false (s1.faults.restoreFailed.contains a) false else s1
        | 0x11 => if heard then s1.memberBack a false false true else s1
        | 0x12 => if heard then s1.memberBack a false false false else s1
        | 0x07 => if heard then (gone s1).memberBack a false false false else gone s1
        | _ => gone s1)
  | _ => .next s

/-- ATTRIBUTED_FAILURE (R485). -/
def execAttributedFailure (a : Fin 512) (s : State) : Out :=
  if !s.faults.attributed.contains a.val then .next s
  else
    let n := mget s.faults.stepFails a 0 + 1
    let s1 := { s with faults := { s.faults with attributed := s.faults.attributed.erase a, stepFails := mset s.faults.stepFails a n } }
    let s2 := s1.penalize (s1.siteOf a) 8192
    let lim := s2.rd F.fltCfg_stepFailLimit 0
    .next (if lim != 0 && lim ≤ n then s2.fence a 2 else s2)

/-- Busy packs: a substitution or a swap of the pack has not ended (R492). -/
def State.substBusy (s : State) (p : Nat) : Bool :=
  s.faults.substs.any (fun x => arrPack x.array == p) || s.changes.any (fun c => c.scope == p)

def State.fenceStatus (s : State) (st : Nat) : State := (s.wr F.fltFence_status 0 st).wr F.fltFence_go 0 0

/-- `FLT_FENCE` with `OP` 0. -/
def State.hostFence (s : State) (a : Nat) : State :=
  let s1 := (s.wr F.fltFence_array 0 a).wr F.fltFence_op 0 0
  if s1.arrVacant a then s1.fenceStatus 1
  else if s1.substBusy (arrPack a) then s1.fenceStatus 3
  else (s1.fence a 5).fenceStatus 0

/-- `FLT_FENCE` with `OP` 1. -/
def State.fenceReturn (s : State) (a : Nat) (knownAnswer : Bool) : State :=
  let s1 := (s.wr F.fltFence_array 0 a).wr F.fltFence_op 0 1
  if s1.arrVacant a then s1.fenceStatus 1
  else if s1.substBusy (arrPack a) then s1.fenceStatus 3
  else if mfind s1.faults.fenced a != some 5 then s1.fenceStatus 2
  else if !knownAnswer then (s1.penalize (s1.siteOf a) 65536).fenceStatus 2
  else if s1.packDark (arrPack a) then s1.fenceStatus 2
  else (s1.unfence a).fenceStatus 0

/-- HOST_FENCE (R483). A host fence holds the array until the host returns it: no substitution starts. -/
def execHostFence (port : Fin 2) (a : Fin 512) (s : State) : Out := s.bar port .unit (fun s => s.hostFence a)

/-- FENCE_RETURN (R487). -/
def execFenceReturn (port : Fin 2) (a : Fin 512) (knownAnswer : Bool) (s : State) : Out :=
  s.bar port .unit (fun s => s.fenceReturn a knownAnswer)

/-! ### Substitution (R488 to R493) -/

/-- Valid regions of a number that its restore mask names, as offset and length (R489). -/
def State.restoreSpans (s : State) (a : Nat) : List (Nat × Nat) :=
  ((List.range 16).filter (fun n => s.rgnValid a n && (s.rd F.fltRestoreMask_rgnMask a).testBit n)).map (fun n => (s.rgnLo a n, s.rgnHi a n - s.rgnLo a n))

/-- Put the restore image into a tile; says whether the restore failed (R489). -/
def State.restoreImage (s : State) (a site : Nat) : Bool × State :=
  if !s.on F.fltRestore_valid a then (false, s)
  else
    let spans := s.restoreSpans a
    let total := (spans.map (·.2)).sum
    if total = 0 then (true, s)
    else
      let r := s.tblRead (s.rd F.fltRestore_handle a) (arrPack a) (s.rd F.fltRestore_segOff a * 65536) total
      if r.1 != .ok then (false, r.2.2)
      else (true, (spans.foldl (fun (q : State × List Byte) x => (q.1.pokeSite site x.1 (q.2.take x.2), q.2.drop x.2)) (r.2.2, r.2.1)).1)

/-- Copy every valid region of the old tile with its check bits (R493); one that was still being initialised there is zero. -/
def State.copyTile (s : State) (a old new : Nat) : State :=
  let inRgn (x : Nat) : Bool := (List.range 16).any (fun n =>
    s.rgnValid a n && !s.on F.tmRgn_initBusy (a * 16 + n) && decide (s.rgnLo a n ≤ x) && decide (x < s.rgnHi a n))
  let m := (s.mem.filter (fun c => c.1 / 67108864 == old && inRgn (cellAddr c.1))).foldl
    (fun m c => Memory.write m (new * 67108864 + c.1 % 67108864) c.2) s.mem
  let f := (s.flips.filter (fun c => c.1 / 8388608 == old && inRgn (cellAddr (8 * c.1)))).foldl
    (fun f c => mset f (new * 8388608 + c.1 % 8388608) c.2) s.flips
  { s with mem := m, flips := f }

/-- A reserve fails its run: it is recorded as failed and used no more (R488, R491). -/
def State.loseReserve (s : State) (p q : Nat) : State :=
  ((s.wr F.fltReserve_resPos p 0xF).markFailed (packSite p q)).penalize (packSite p q) 65536

/-- Steps 1 to 7, up to the change of the site table. Step 3 zeroes the reserve's scratchpad and Step 5 initialises its regions, whose
`INIT_BUSY` nothing can read before the number has moved (R175, R177). -/
def State.substMove (s : State) (x : Subst) (q : Nat) : State :=
  let a := x.array
  let site := packSite (arrPack a) q
  let old := s.siteOf a
  let s1 := s.zeroSite site
  let r := if x.copy then (true, s1.copyTile a old site) else s1.restoreImage a site
  let safe := x.copy || (r.1 && s.on F.fltRestore_rerunSafe a)
  let s2 := { r.2 with faults := { r.2.faults with
    restoreFailed := if safe then r.2.faults.restoreFailed.filter (· != a) else a :: r.2.faults.restoreFailed.filter (· != a) } }
  s2.addChange { scope := arrPack a, array := a, site := site }

/-- SUBSTITUTION (R488, R492, R493). -/
def execSubstitution (p : Fin 64) (knownAnswer : Bool) (s : State) : Out :=
  match s.substOf p with
  | none => .next s
  | some x =>
    if s.inSit || s.packDark p || !s.arrFenced x.array then .next s
    else match s.reservePos p with
      | none => .next (s.vacate x.array false)
      | some q =>
        if knownAnswer then .next (s.substMove x q)
        else
          let s1 := s.loseReserve p q
          .next (if x.swap then ((s1.unfence x.array).endSwap x.array 4).substNext x.array else s1.vacate x.array true)

/-- The number that has moved to a pack's manufactured reserve position, if one has: its pack-local k (R491, R512). -/
def State.movedK (s : State) (p : Nat) : Option Nat :=
  let m := match s.boot.record with | some r => (r.siteMap.getD []).getD p 0xFF | none => 0xFF
  if 9 ≤ m then none else (List.range 8).find? (fun k => !s.arrVacant (p * 8 + k) && s.siteOf (p * 8 + k) == packSite p m)

/-- FLASH_MAP_WRITE (R491). -/
def execFlashMapWrite (p : Fin 64) (s : State) : Out :=
  .next { s with faults := { s.faults with
    failedFlash := mput s.faults.failedFlash p 0 (s.rd F.fltReserve_failedSites p),
    mapFlash := match s.movedK p with | some k => mset s.faults.mapFlash p (k + 1) | none => mdel s.faults.mapFlash p } }

/-- `FLT_SWAP` with `GO` (R492, R493). -/
def State.swapGo (s : State) (a : Nat) (copy : Bool) : State :=
  let p := arrPack a
  let s1 := ((s.wr F.fltSwap_array 0 a).wr F.fltSwap_copy 0 (b2n copy)).wr F.fltSwap_go 0 1
  let refuse (st : Nat) : State := (s1.wr F.fltSwap_status 0 st).wr F.fltSwap_go 0 0
  if s1.arrVacant a then refuse 1
  else if s1.substBusy p || s1.arrFenced a || s.on F.fltSwap_go 0 then (if s.on F.fltSwap_go 0 then s else refuse 3)
  else if (s1.reservePos p).isNone || s1.packDark p then refuse 2
  else
    let s2 := ({ s1 with faults := { s1.faults with
      toFence := s1.faults.toFence ++ [(a, 8)],
      substs := s1.faults.substs ++ [({ array := a, reason := 8, swap := true, copy := copy } : Subst)] } }).holdRegion a
    if s2.heldOk a then s2.fence a 8 else s2

/-- PROACTIVE_SWAP (R493). -/
def execProactiveSwap (port : Fin 2) (a : Fin 512) (copy : Bool) (s : State) : Out := s.bar port .unit (fun s => s.swapGo a copy)

/-! ### Known-answer runs (R462, R497) -/

/-- A pack that is returning is back once every one of its tiles has run (R497). -/
def State.packBack (s : State) (p : Nat) : State :=
  if s.faults.awaitKat.any (fun t => sitePack t == p) then s
  else if s.rd F.fltPackCmd_pack 0 = p then (s.wr F.fltPackCmd_status 0 0).wr F.fltPackCmd_retry 0 0 else s

/-- An array passes its run: in bring-up it is in service, after a dark pack's return its fence ends. -/
def State.katPass (s : State) (a : Nat) : State := if mfind s.faults.fenced a == some 7 then s.unfence a else s

/-- An array fails its run: fenced, and substituted or set vacant. -/
def State.katFail (s : State) (a : Nat) : State :=
  let s1 := s.penalize (s.siteOf a) 65536
  if s1.arrFenced a then s1.substitute a 3 else s1.fence a 3

/-- KNOWN_ANSWER_DONE (R462, R497). A tile recorded as failed is neither tested nor used (R491). -/
def execKnownAnswerDone (site : Fin 576) (pass : Bool) (s : State) : Out :=
  let p := sitePack site
  let phase7 := s.rd F.idnState_panelState 0 = 0 && s.rd F.idnState_phase 0 = 7 && !s.boot.knownDone.contains site.val
  let back := s.faults.awaitKat.contains site.val
  if !(phase7 || back) || !s.siteFitted site || bitAt (s.rd F.fltReserve_failedSites p) (sitePos site) then .next s
  else
    let s1 := { s with
      boot := { s.boot with knownDone := if phase7 then site.val :: s.boot.knownDone else s.boot.knownDone },
      faults := { s.faults with awaitKat := s.faults.awaitKat.filter (· != site.val) } }
    let s2 := match s1.arrayAt site with
      | some a => if pass then s1.katPass a else s1.katFail a
      | none => if !pass && s1.reservePos p == some (sitePos site) then (s1.loseReserve p (sitePos site)).substGo p else s1
    .next (if back then s2.packBack p else s2)

/-! ### Shorted packs (R496, R497) -/

/-- A resync that concerns a pack going dark ends (R230). -/
def State.darkResync (s : State) (p : Nat) : State :=
  if s.resync != some p then s
  else
    let s1 := s.each (s.mirrored p) (fun s t => if !(s.seg t.1 p).resyncing then s
      else (s.updSeg t.1 p (fun x => { x with promoted := x.was, resyncing := false })).syncPromoted (Table.mirrorOf t.2 p))
    let s2 := s1.each (s1.copiesIn p) (fun s t => s.updSeg t.1 t.2.1 (fun x => { x with rebuilding := false }))
    { ((s2.wr F.hubState_resyncBusy p 0).tblStatus 2) with resync := none, tblCmd := none }

/-- The islands of a pack: its nine array islands, nine router islands and its hub. -/
def packIslands (p : Nat) : List Nat := packSites p ++ (packSites p).map (· + 576) ++ [hubIsland p]

/-- The hub goes with its cache and its stack, and what a resync brought home. -/
def State.darkHub (s : State) (p : Nat) : State :=
  let s1 := (((s.darkGathers p).darkResync p).zeroStack p |>.clearCache p).wr F.hubState_stackState p 4
  s1.each (s1.mirrored p) (fun s t => s.updSeg t.1 p (fun x => { x with resynced := false, behind := false }))

/-- The neighbours of a pack that loses power find their links to it dead (R272); packets and flits in its routers are gone. -/
def State.darkLinks (s : State) (p : Nat) : State :=
  let s1 := (packOuter p).foldl (fun s l =>
    let e := linkEnds l
    s.declare (if sitePack e.1 = p then e.2 else e.1) l) s
  let gone (q : Packet) : Bool :=
    (q.dst != .broadcast && sitePack q.route.site == p && s.mesh.leftSource q == 0) ||
    s.mesh.bufs.any (fun b => sitePack (b.1 / 84) == p && b.2.any (fun f => f.pkt == q)) ||
    s.mesh.wires.any (fun w => sitePack (w.1 / 6) == p && w.2.fly.any (fun f => f.pkt == q))
  { s1 with net := s1.net.filter (fun q => !gone q), mesh := (s1.net.filter gone).foldl Mesh.drop s1.mesh }

/-- A pack is latched off (R35, R496): its arrays are fenced, a substitution in it is abandoned, its neighbours find their links dead. -/
def State.latchOff (s : State) (p : Nat) : State :=
  let s1 := (s.wrBit F.fltPackDark_dark 0 p true).each (packIslands p) (fun s i => s.runIsland i false)
  let swap := s1.faults.substs.find? (fun x => arrPack x.array == p && x.swap)
  let s2 := ({ s1 with faults := { s1.faults with
    substs := s1.faults.substs.filter (fun x => arrPack x.array != p),
    toFence := s1.faults.toFence.filter (fun x => arrPack x.1 != p),
    awaitKat := s1.faults.awaitKat.filter (fun t => sitePack t != p) } }).dropChanges p
  let s3 := match swap with | some x => s2.endSwap x.array 4 | none => s2
  let s4 := (s3.darkHub p).darkLinks p
  let s5 := s4.each (packArrays p) (fun s a =>
    if s.arrFenced a then { s with faults := { s.faults with fenced := mset s.faults.fenced a 7 } } else s.fence a 7)
  ((s5.bark 0x000E { kind := .pack, num := p }).alert 0 true).runDeferred

/-- PACK_SHORT (R496). -/
def execPackShort (p : Fin 64) (s : State) : Out :=
  if !s.packFitted p || s.packDark p || !s.boot.busesUp then .next s else .next (s.latchOff p)

/-- `FLT_PACK_CMD` with `RETRY` (R497). The error counters of the hub start at 0 (R232, R503). -/
def State.packRetry (s : State) (p : Nat) (shortPersists : Bool) (deadLinks : List Nat) : State :=
  let s1 := (s.wr F.fltPackCmd_pack 0 p).wr F.fltPackCmd_retry 0 1
  let done (s : State) (st : Nat) : State := (s.wr F.fltPackCmd_status 0 st).wr F.fltPackCmd_retry 0 0
  if !s1.packDark p || 3 ≤ mget s1.faults.retries p 0 then done s1 1
  else
    let s2 := { s1 with faults := { s1.faults with retries := mset s1.faults.retries p (mget s1.faults.retries p 0 + 1) } }
    if shortPersists then done (s2.bark 0x000E { kind := .pack, num := p }) 2
    else
      let s3 := s2.wrBit F.fltPackDark_dark 0 p false
      let s4 := (if s3.rd F.fltPackDark_dark 0 = 0 then s3.alert 0 false else s3).each (packIslands p) (fun s i => s.runIsland i true)
      let bad := (deadLinks ++ s4.seamLinksOut).filter (fun l => (packLinks p).contains l)
      let s5 := { s4 with localDead := s4.localDead.filter (fun l => !(packLinks p).contains (l % 2048)) }.newMask (dropBits s4.mnMask.1 (packSites p))
        (addBits (dropBits s4.mnMask.2 (packLinks p)) bad)
      let s6 := ((s5.restartStack p []).clrRegs ((regFields .hubErrCnt ++ regFields .hubErrCnt2).map (fun f => (f, p)))).freshPenalty (576 + p)
      let tiles := (packSites p).filter (fun t => !bitAt (s6.rd F.fltReserve_failedSites p) (sitePos t))
      let s7 := s6.each (packSites p) State.zeroSite
      { s7 with faults := { s7.faults with awaitKat := s7.faults.awaitKat ++ tiles } }

/-- PACK_RETRY (R497). -/
def execPackRetry (port : Fin 2) (p : Fin 64) (shortPersists : Bool) (deadLinks : List (Fin 1104)) (s : State) : Out :=
  s.bar port .unit (fun s => s.rw1s F.fltPackCmd_retry (fun s => s.packRetry p shortPersists (deadLinks.map (·.val))))

/-! ### Service chains (R494, R495) -/

/-- SERVICE_CHAIN_REPORT (R494, R523). A chain that answers again ends the hold of its pack. -/
def execServiceChainReport (p : Fin 64) (r : ChainReport) (s : State) : Out :=
  if !s.packFitted p || (s.inSit && s.sit.all) then .next s
  else
    let s1 := { s with faults := { s.faults with
      chain := mset s.faults.chain p r,
      chainHeld := if r.silent then s.faults.chainHeld else s.faults.chainHeld.filter (· != p.val) } }
    if r.silent then .next s1
    else
      let t16 (t : Int) : Nat := (t % 65536).toNat
      let s2 := match r.hubTemp with | some t => s1.wr F.thmHub_tDie p (t16 t) | none => s1
      let s3 := match r.coolIn with | some t => s2.wr F.thmCool_tIn 0 (t16 t) | none => s2
      let s4 := match r.coolOut with | some t => s3.wr F.thmCool_tOut 0 (t16 t) | none => s3
      -- a hub die at 120 °C in two samples, 1 ms apart, latches its pack off (R524)
      let hot (t : Int) : Bool := decide (1200 ≤ t) && decide (t ≤ 1500)
      let long := match r.hubTemp with
        | some t => hot t && hot (signed16 (s.rd F.thmHub_tDie p))
        | none => false
      .next (if long && !s4.packDark p then s4.latchOff p else s4)

/-- What the service chain last said of the tile at a site; nothing while it is silent. -/
def State.chainTile (s : State) (site : Nat) : Option ChainTile :=
  match mfind s.faults.chain (sitePack site) with
  | none => none
  | some r => if r.silent then none else r.tiles[sitePos site]?

/-- Do the two views of a unit differ in the way that a row of R494 names? -/
def State.conflict (s : State) (u row : Nat) : Bool :=
  match row with
  | 0 => (match s.chainTile u, s.arrayAt u with
    | some t, some a => t.railUp && t.islandRunning && mfind s.faults.fenced a == some 1
    | _, _ => false)
  | 1 => (match s.chainTile u, s.arrayAt u with
    | some t, some a => (!t.railUp || !t.islandRunning) && !s.arrFenced a
    | _, _ => false)
  | 2 => (match s.chainTile u with
    | some t => t.routerRailUp && !s.siteDead u && (linksOf u).any (fun l =>
        let e := linkEnds l
        s.linkDead l && (match s.chainTile (if e.1 = u then e.2 else e.1) with
          | some x => x.routerRailUp
          | none => false))
    | none => false)
  | 3 => (match s.chainTile u with
    | some t => !t.routerRailUp && !s.siteDead u
    | none => false)
  | _ => decide (576 ≤ u) && decide (u < 640) && (match mfind s.faults.chain (u - 576) with | some r => r.silent | none => false)

/-- STATE_CONFLICT (R494): rows are numbered from 0 here, from 1 in the record. -/
def execStateConflict (u : Nat) (row : Fin 5) (s : State) : Out :=
  if (row.val < 4 && 576 ≤ u) || !s.conflict u row || s.faults.tests.any (fun t => t.1 == u) || s.inSit then .next s
  else
    let s1 := s.bark 0x0023 {} [(24, u), (26, row + 1), (27, 0)]
    if row.val = 4 then
      .next { s1 with faults := { s1.faults with chainHeld := if s1.faults.chainHeld.contains (u - 576) then s1.faults.chainHeld else (u - 576) :: s1.faults.chainHeld } }
    else
      let s2 := { s1 with faults := { s1.faults with tests := s1.faults.tests ++ [(u, row.val)] } }
      match row.val, s2.arrayAt u with
      | 1, some a =>
        let s3 := ({ s2 with faults := { s2.faults with toFence := s2.faults.toFence ++ [(a, 4)] } }).holdRegion a
        .next (if s3.heldOk a then s3.fence a 4 else s3)
      | _, _ => .next s2

/-- Links of a router whose other router lives: those that its test has exercised. -/
def State.testedLinks (s : State) (u : Nat) : List Nat :=
  (linksOf u).filter (fun l => !s.seamLinksOut.contains l && ((List.range 576).filter (fun t => t != u && s.siteOk t && (linksOf t).contains l)) != [])

/-- NEIGHBOUR_TEST_DONE (R495). -/
def execNeighbourTestDone (u : Nat) (pass : Bool) (s : State) : Out :=
  match s.faults.tests.find? (fun t => t.1 == u) with
  | none => .next s
  | some (_, row) =>
    if s.inSit then .next s else
    let s1 := { s with faults := { s.faults with tests := s.faults.tests.filter (fun t => t.1 != u) } }
    let s2 := s1.bark 0x0023 {} [(24, u), (26, row + 1), (27, if pass then 1 else 2)]
    let s3 := if pass then s2 else s2.penalize u 65536
    if row = 2 then .next (if pass then s3.newMask s3.mnMask.1 (dropBits s3.mnMask.2 (s3.testedLinks u)) else s3)
    else if row = 3 then .next s3
    else match s3.arrayAt u with
      | none => .next s3
      | some a =>
        let why := mfind s3.faults.fenced a
        let own := (why == some 4) || (why == some 1 && !s3.changes.any (fun c => c.array == a && c.scope < 64))
        .next (if !own then s3
          else if pass then
            let s4 := ({ s3 with faults := { s3.faults with substs := s3.faults.substs.filter (fun x => x.array != a) } }).unfence a
            s4.releaseRegion a
          else (if why == some 4 then s3.substitute a 4 else s3).releaseRegion a)

/-! ### The south half (R478, R479) -/

def southPacks : List Nat := (List.range 32).map (· + 32)
def southSites : List Nat := (List.range 288).map (· + 288)

def State.halfStatus (s : State) (st : Nat) : State := s.wr F.prtHalf_status 0 st

/-- `PRT_HALF.STOP` (R479): the regions led there end, members there drop out, the half enters the mask; its islands then stop one by one. -/
def State.halfStop (s : State) : State :=
  if s.inSit then { s.wr F.prtHalf_stop 0 1 with boot := { s.boot with halfLater := some true } }
  else if s.rd F.idnState_panelState 0 != 1 then s.halfStatus 1
  else if s.rd F.prtHalf_state 0 != 0 then s.halfStatus 2
  else
    let s1 := ((((s.wr F.prtHalf_stop 0 1).wr F.prtHalf_status 0 0).wr F.prtHalf_state 0 1).bark 0x0043 {} [(24, 1), (25, 1)])
    let arrays := southPacks.flatMap packArrays
    let s2 := s1.each arrays (fun s a => s.leaderGone a)
    let s3 := s2.each arrays (fun s a => match (s.arr a).member with
      | some (l, _) => (match s.regionOf l with
        | some g => if g.phase == .standby then s.loseStandby l a else if g.phase == .running || g.phase == .draining then s.loseMember l a 0x0B else s
        | none => s)
      | none => s)
    let s4 := s3.newMask (addBits s3.mnMask.1 (southSites.filter s3.siteFitted)) (addBits s3.mnMask.2 seamLinks)
    s4.each southPacks State.darkGathers

/-- HALF_STOP (R479). -/
def execHalfStop (port : Fin 2) (s : State) : Out := s.bar port .unit (fun s => s.rw1s F.prtHalf_stop State.halfStop)

/-- `PRT_HALF.START` (R478): the islands run again, the half leaves the mask, and a reset of all its packs begins. -/
def State.halfStart (s : State) : State :=
  if s.inSit then { s.wr F.prtHalf_start 0 1 with boot := { s.boot with halfLater := some false } }
  else if s.rd F.idnState_panelState 0 != 1 then s.halfStatus 1
  else if s.rd F.prtHalf_state 0 != 2 then s.halfStatus 2
  else
    let s1 := ((((s.wr F.prtHalf_start 0 1).wr F.prtHalf_status 0 0).wr F.prtHalf_state 0 3).bark 0x0043 {} [(24, 1), (25, 3)])
    let live := southPacks.filter (fun p => s1.packFitted p && !s1.packDark p)
    let s2 := (s1.each (s1.boot.halfStopped.filter (fun i => (live.flatMap packIslands).contains i)) (fun s i => s.runIsland i true))
    let s2 := { s2 with boot := { s2.boot with halfStopped := [] } }
    let s3 := s2.newMask (dropBits s2.mnMask.1 (live.flatMap packSites)) (dropBits s2.mnMask.2 (seamLinks.filter (fun l => !s2.seamLinksOut.contains l)))
    s3.requestReset 3 0

/-- What was requested of the half during sit takes effect when sit ends (R479). -/
def State.halfGo (s : State) : State :=
  let s1 := { s with boot := { s.boot with halfLater := none } }
  match s.boot.halfLater with
  | none => s
  | some true => s1.halfStop
  | some false => s1.halfStart

/-- HALF_START (R478). -/
def execHalfStart (port : Fin 2) (s : State) : Out := s.bar port .unit (fun s => s.rw1s F.prtHalf_start State.halfStart)

/-! ### Health (R503) -/

/-- HEALTH_DECAY (R503). -/
def execHealthDecay (s : State) : Out :=
  .next (s.each (List.range 654) (fun s u => let p := s.rd F.fltHealth_penalty u; if p < 32 then s else s.setPenalty u (p - p / 32)))

end Sys2Proof.Machine
end

