-- ==== Sys2Proof/Machine/Power.lean ====
section
/-! DEFINITION. Power limits, brakes, rails, temperatures, the thermal model (R34, R514 to R536). Powers of packs and tiles are in 0.1 W,
input power in 10 W, temperatures in 0.1 °C. -/

namespace Sys2Proof.Machine

/-- Half of a pack: 0 north, 1 south. -/
def halfPacks (h : Nat) : List Nat := (List.range 32).map (· + 32 * h)

def State.failedCells (s : State) (h : Nat) : Nat := popCount (if h = 0 then s.rd F.pwrIn_cellsN 0 else s.rd F.pwrIn_cellsS 0) 16

/-- `PWR_OK` (R48): both 6 V buses run, and with them the edge rail group that each feeds; a bus without a working cell has left regulation. -/
def State.syncPwrOk (s : State) : State :=
  { s with pins := { s.pins with pwrOk := s.boot.busesUp && decide (s.failedCells 0 < 16) && decide (s.failedCells 1 < 16) } }

/-- CELL_FAIL (R34, R48, R515). The record's `cell` is the number within its half (DESIGN CHOICE, log entry 99). -/
def execCellFail (south : Bool) (c : Fin 16) (s : State) : Out :=
  let f := if south then F.pwrIn_cellsS else F.pwrIn_cellsN
  if bitAt (s.rd f 0) c then .next s
  else
    let s1 := ((s.wrBit f 0 c true).syncPwrOk).bark 0x000D {} [(24, c)]
    let h := b2n south
    .next (if s1.failedCells h < 2 then s1
      else ((s1.alert 1 true).wr F.pwrStat_cause 0 (3 + h)).bark 0x0033 {} [(24, s1.rd F.pwrStat_limitEff 0), (26, 3 + h)])

/-! ### The panel limit (R514, R518) -/

/-- `LIMIT_EFF` and the term that sets it (R514). -/
def State.limitEff (s : State) (vIn : Nat) : Nat × Nat :=
  let l := s.rd F.pwrCfg_limit 0 * 10
  let cur := vIn * 74 / 100
  let t := signed16 (s.rd F.thmCool_tIn 0)
  let ovr : Nat := if t ≤ 350 || s.rd F.thmCool_tIn 0 = 0x8000 then 0 else ((t - 350) / 10).toNat
  let cool := l - 200 * ovr
  if l ≤ cur && l ≤ cool then (l, 0) else if cur ≤ cool then (cur, 1) else (cool, 2)

/-- The power cap of a pack, or its ceiling. -/
def State.packFreq (s : State) (p : Nat) : Nat :=
  let c := s.rd F.pwrPackStat_pcap p
  if c = 0 then s.rd F.pwrPack_afCeil p else min c (s.rd F.pwrPack_afCeil p)

/-- The power cap of a pack goes down by one step (R518). -/
def State.lowerPack (s : State) (p : Nat) : State :=
  (s.wr F.pwrPackStat_pcap p (s.packFreq p - 1)).capsMoved s 4 (packSites p)

/-- A step's estimated saving, in 0.1 W. -/
def State.saving (s : State) (p : Nat) : Nat := s.rd F.pwrPackStat_pPack p * 100 / (93 * max 1 (s.packFreq p))

/-- Lower caps of the packs `l` until the estimated saving covers the excess. -/
def State.shed (s : State) (l : List Nat) (excess : Nat) : Nat → State
  | 0 => s
  | fuel + 1 =>
    if excess = 0 then s
    else
      let able := l.filter (fun p => s.packFitted p && !s.packDark p && decide (12 < s.packFreq p))
      let best := able.foldl (fun (b : Option Nat) p => match b with
        | none => some p
        | some q =>
          if s.packFreq q < s.packFreq p || (s.packFreq p = s.packFreq q && s.rd F.pwrPackStat_pPack q < s.rd F.pwrPackStat_pPack p) then some p
          else some q) none
      match best with
      | none => s
      | some p => (s.lowerPack p).shed l (excess - s.saving p) fuel

def shedFuel : Nat := 4096

/-- Bus load of a half, and what R515 holds it to. -/
def State.halfLoad (s : State) (h : Nat) : Nat := ((halfPacks h).map (fun p => s.rd F.pwrPackStat_pPack p)).sum
def State.halfLimit (s : State) (h : Nat) : Option Nat :=
  let f := s.failedCells h
  if f < 2 then none else some ((15 - f) * 12500)
def State.halfOver (s : State) (h : Nat) : Nat := match s.halfLimit h with
  | none => 0
  | some m => s.halfLoad h - m

/-- Raise the lowest power cap by one step; a pack's cap rises at most once in 10 ms (R518, R519). -/
def State.raisePack (s : State) : State :=
  let l := (List.range 64).filter (fun p => s.rd F.pwrPackStat_pcap p != 0)
  let best := l.foldl (fun (b : Option Nat) p => match b with
    | none => some p
    | some q => if s.rd F.pwrPackStat_pcap p < s.rd F.pwrPackStat_pcap q then some p else some q) none
  match best with
  | none => s
  | some p =>
    let at_ := mget s.power.raisedAt p 0
    if at_ != 0 && decide (s.now + 1 < at_ + 10000000) then s
    else
      let c := s.rd F.pwrPackStat_pcap p + 1
      let s1 := (s.wr F.pwrPackStat_pcap p (if s.rd F.pwrPack_afCeil p ≤ c then 0 else c)).syncFreq p
      { s1 with power := { s1.power with raisedAt := mset s1.power.raisedAt p (s.now + 1) } }

/-- The term that sets the limit, with its record when it changes to another than `LIMIT` (R514, R515). -/
def State.setCause (s : State) (limit cause : Nat) : State :=
  let c := if 2 ≤ s.failedCells 0 then 3 else if 2 ≤ s.failedCells 1 then 4 else cause
  let s1 := (s.wr F.pwrStat_limitEff 0 limit).wr F.pwrStat_cause 0 c
  if c = 0 || c = s.rd F.pwrStat_cause 0 then s1 else s1.bark 0x0033 {} [(24, limit), (26, c)]

/-- Alerts that a millisecond's readings decide (R530). -/
def State.msAlerts (s : State) (vIn : Nat) : State :=
  let ti := s.rd F.thmCool_tIn 0
  let tout := s.rd F.thmCool_tOut 0
  let known := ti != 0x8000 && tout != 0x8000
  let wide := known && decide (signed16 ti + 120 < signed16 tout)
  let n := if wide then s.power.coolDtMs + 1 else 0
  let s1 := { s with power := { s.power with coolDtMs := min n 1000 } }
  let s2 := (s1.alert 2 (decide (vIn < 4300) || decide (5700 < vIn))).alert 3 (ti != 0x8000 && decide (350 < signed16 ti))
  (s2.alert 4 (decide (1000 ≤ n))).alert 6 (s.power.brakeAt != 0 && decide (s.power.brakeAt + 10000000 ≤ s.now + 1))

/-- POWER_LOOP (R514, R515, R518, R530): the means of the last millisecond. -/
def execPowerLoop (pIn vIn iIn : Nat) (packPower : NMap Nat) (s : State) : Out :=
  if s.mnHalted then .next s
  else
    let s1 := (((s.wr F.pwrStat_pIn 0 (min pIn 0xFFFF)).wr F.pwrIn_vIn 0 (min vIn 0xFFFF)).wr F.pwrIn_iIn 0 (min iIn 0xFFFF))
    let s2 := (List.range 64).foldl (fun s p => s.wr F.pwrPackStat_pPack p (min (mget packPower p 0) 0xFFFF)) s1
    let (limit, cause) := s2.limitEff vIn
    let s3 := (s2.setCause limit cause).msAlerts vIn
    let s4 := s3.shed (List.range 64) (100 * (pIn - limit)) shedFuel
    let s5 := (s4.shed (halfPacks 0) (s4.halfOver 0) shedFuel)
    let s6 := (s5.shed (halfPacks 1) (s5.halfOver 1) shedFuel)
    .next (if pIn * 100 < limit * 98 && s3.halfOver 0 = 0 && s3.halfOver 1 = 0 then s6.raisePack else s6)

/-- PACK_POWER_SAMPLE (R517). -/
def execPackPowerSample (p : Fin 64) (power : Nat) (s : State) : Out :=
  if s.halted (hubIsland p) || s.packDark p then .next s
  else
    let c := s.rd F.pwrPack_pCeil p
    if c != 0 && decide (c < power) then
      .next ({ s with power := { s.power with packBrake := if s.power.packBrake.contains p then s.power.packBrake else p :: s.power.packBrake } }.shed
        [p.val] (power - c) shedFuel)
    else .next { s with power := { s.power with packBrake := s.power.packBrake.filter (· != p.val) } }

/-- BRAKE_ENGAGE (R516). -/
def execBrakeEngage (s : State) : Out :=
  if s.on F.pwrStat_brake 0 then .next s
  else .next { (s.wr F.pwrStat_brake 0 1) with power := { s.power with brakeAt := s.now + 1 } }

/-- BRAKE_RELEASE (R516). -/
def execBrakeRelease (s : State) : Out :=
  if !s.on F.pwrStat_brake 0 then .next s
  else .next ({ (s.wr F.pwrStat_brake 0 0) with power := { s.power with brakeAt := 0 } }.alert 6 false)

/-- CAP_RAISE (R519): sustained droop and margin critical raise by one step; the thermal prediction does so where R527 allows it; the
guard, the power loop and the brake have rows of their own. -/
def execCapRaise (i : Fin 1230) (loop : Fin 6) (s : State) : Out :=
  if s.halted i then .next s
  else if loop.val ≤ 1 then .next (s.raiseCap i loop)
  else if loop.val = 2 then
    let u := islUnit i
    if mget s.power.coolMs u 0 < 10 then .next s
    else
      let s1 := { s with power := { s.power with coolMs := mdel s.power.coolMs u } }
      match islKind i with
      | .array => .next (s1.raiseCap i 2)
      | .hub =>
        let k := i.val * 8 + 7
        let n := mget s1.power.caps k 0
        let s2 := { s1 with power := { s1.power with caps := mput s1.power.caps k 0 (n - 1) } }
        .next (s2.wr F.thmHub_rateSteps (i - 1152) (max (n - 1) (mget s2.power.caps (i.val * 8 + 6) 0)))
      | _ => .next s
  else .next s

/-! ### Rails and policy (R521, R522) -/

/-- VOLTAGE_LOOP (R521). -/
def execVoltageLoop (p : Fin 64) (minPs : Nat) (s : State) : Out :=
  if s.packDark p || s.inSit || !s.packFitted p then .next s
  else
    let v := s.rd F.pwrPackStat_avSet p
    let lo := s.rd F.pwrPack_avFloor p
    let hi := s.rd F.pwrPack_avCeil p
    .next (if 60 < minPs then s.wr F.pwrPackStat_avSet p (max lo (min hi (v - 1)))
      else if minPs < 30 then s.wr F.pwrPackStat_avSet p (min hi (max lo (v + 1)))
      else s)

/-- A write to `PWR_PACK_p` (R522, R534). -/
def State.wrPwrPack (s : State) (p v m : Nat) : State :=
  let f (x : Fld) : Nat := mixBits (s.rd x p) (bitsAt v x.lo x.w) (bitsAt m x.lo x.w)
  let ok (lo hi : Fld) (a b : Nat) : Bool := decide (a ≤ f lo) && decide (f lo ≤ f hi) && decide (f hi ≤ b)
  if ok F.pwrPack_afFloor F.pwrPack_afCeil 12 48 && ok F.pwrPack_rfFloor F.pwrPack_rfCeil 15 60 && ok F.pwrPack_avFloor F.pwrPack_avCeil 20 80 then
    let s1 := s.storeReg .pwrPack p v m
    (s1.wr F.pwrPackStat_avSet p (max (f F.pwrPack_avFloor) (min (f F.pwrPack_avCeil) (s.rd F.pwrPackStat_avSet p)))).syncFreq p
  else s.refuseReg .pwrPack p

/-- PWR_PACK_WRITE (R522). -/
def execPwrPackWrite (port : Fin 2) (p : Fin 64) (value : BitVec 64) (s : State) : Out :=
  s.bar port .unit (fun s => s.wrPwrPack p value.toNat fullMask)

/-! ### Sensors and the guard (R523 to R525) -/

def inRange (t : Int) : Bool := decide (-200 ≤ t) && decide (t ≤ 1500)
def t16 (t : Int) : Nat := (t % 65536).toNat
def maxInt : List Int → Option Int
  | [] => none
  | a :: l => match maxInt l with | none => some a | some b => some (max a b)

/-- The two readings of a hot spot. -/
def spotOf (raw : List Int) (k : Nat) : List Int := (raw.drop (2 * k)).take 2

/-- The reading in use (R523). -/
def readingOf (raw : List Int) : Option Int :=
  match maxInt (raw.filter inRange) with
  | none => none
  | some top =>
    let spot (k : Nat) : Int := match maxInt ((spotOf raw k).filter inRange) with | some t => t | none => top + 50
    some (max (spot 0) (spot 1))

def faultFld (k : Nat) : Fld := if k = 0 then F.thmTile_faultA else F.thmTile_faultB

/-- A sensor-fault record (R524, R536). -/
def State.sensorFault (s : State) (site spot kind : Nat) (pair : List Int) : State :=
  s.bark 0x0030 { kind := .routerSite, num := site } [(24, site), (26, spot), (27, kind), (28, t16 (pair.getD 0 0)), (30, t16 (pair.getD 1 0))]

/-- A reading out of range faults its pair at once. -/
def State.pairRange (s : State) (site : Nat) (raw : List Int) (k : Nat) : State :=
  if (spotOf raw k).all inRange || s.on (faultFld k) site then s
  else (s.wr (faultFld k) site 1).sensorFault site k 1 (spotOf raw k)

/-- The guard (R524). -/
def State.guard (s : State) (site : Nat) (t : Int) : State :=
  if s.rd F.thmCfg_crit 0 * 10 ≤ t && !s.halted site then ((s.wr F.thmTile_guard site 1).alert 5 true).lowerCap site 3 12 else s

/-- TILE_TEMP_SAMPLE (R523, R524): four readings, and whether one of 120 °C or more has lasted 1 ms. -/
def execTileTempSample (site : Fin 576) (raw : List Int) (hotFor1ms : Bool) (s : State) : Out :=
  if raw.length != 4 || !s.siteFitted site || s.packDark (sitePack site) then .next s
  else
    let s1 := s.wr F.thmRaw_readings site (t16 (raw.getD 0 0) + t16 (raw.getD 1 0) * 2 ^ 16 + t16 (raw.getD 2 0) * 2 ^ 32 + t16 (raw.getD 3 0) * 2 ^ 48)
    let s2 := match readingOf raw with
      | none =>
        let x := s1.wr F.thmTile_tUsed site 0x8000
        let y := if s.rd F.thmTile_tUsed site = 0x8000 then x else x.sensorFault site 2 1 (spotOf raw 0)
        (((y.wr F.thmTile_faultA site 1).wr F.thmTile_faultB site 1)).syncFreq (sitePack site)
      | some t =>
        let x := s1.wr F.thmTile_tUsed site (t16 t)
        let y := if s.rd F.thmTile_tUsed site = 0x8000 then x.syncFreq (sitePack site) else x
        ((y.pairRange site raw 0).pairRange site raw 1).guard site t
    .next (if hotFor1ms && raw.any (fun t => inRange t && decide (1200 ≤ t)) then s2.latchOff (sitePack site) else s2)

/-- The two readings that a tile last gave for a hot spot. -/
def State.lastPair (s : State) (site k : Nat) : List Int :=
  let v := s.rd F.thmRaw_readings site
  [signed16 (bitsAt v (32 * k) 16), signed16 (bitsAt v (32 * k + 16) 16)]

def pairGap (l : List Int) : Nat := (l.getD 0 0 - l.getD 1 0).natAbs

/-- SENSOR_DISAGREE (R524). -/
def execSensorDisagree (site : Fin 576) (spot : Fin 2) (s : State) : Out :=
  let l := s.lastPair site spot
  if s.on (faultFld spot) site || !l.all inRange || decide (pairGap l ≤ 60) then .next s
  else .next ((s.wr (faultFld spot) site 1).sensorFault site spot 0 l)

/-- SENSOR_AGREE_CLEAR (R524). -/
def execSensorAgreeClear (site : Fin 576) (spot : Fin 2) (s : State) : Out :=
  let l := s.lastPair site spot
  if !l.all inRange || decide (60 < pairGap l) then .next s else .next (s.wr (faultFld spot) site 0)

/-- GUARD_CAP_RAISE (R524): the reading has stayed below `CRIT` − 5 °C for 10 ms. -/
def execGuardCapRaise (site : Fin 576) (s : State) : Out :=
  if !s.on F.thmTile_guard site || s.halted site || s.rd F.thmTile_tUsed site = 0x8000 ||
    decide (s.rd F.thmCfg_crit 0 * 10 ≤ signed16 (s.rd F.thmTile_tUsed site) + 50) then .next s
  else
    let s1 := s.raiseCap site 3
    .next (if (s1.capOf site 3).isSome then s1
      else
        let s2 := s1.wr F.thmTile_guard site 0
        s2.alert 5 ((List.range 576).any (fun t => s2.on F.thmTile_guard t)))

/-- The command rate of a stack loses the larger of the two loops' steps (R525, R527). -/
def State.setSteps (s : State) (p loop n : Nat) : State :=
  let k := hubIsland p * 8
  let s1 := { s with power := { s.power with caps := mput s.power.caps (k + loop) 0 n } }
  s1.wr F.thmHub_rateSteps p (max (mget s1.power.caps (k + 6) 0) (mget s1.power.caps (k + 7) 0))

/-- STACK_TEMP_READ (R525, R524, R196): nothing read clears `TVALID`, and the stack counts as at its target. -/
def execStackTempRead (p : Fin 64) (reading : Option Nat) (s : State) : Out :=
  if s.halted (hubIsland p) || s.packDark p || !s.packFitted p then .next s
  else match reading with
  | none =>
    let s1 := s.wr F.hubTemp_tvalid p 0
    .next { s1 with power := { s1.power with stackCool := mdel s1.power.stackCool p, stackHot := s1.power.stackHot.filter (· != p.val) } }
  | some t =>
    let s1 := (s.wr F.hubTemp_degC p (min t 255)).wr F.hubTemp_tvalid p 1
    let n := mget s1.power.caps (hubIsland p * 8 + 6) 0
    let goal := s1.rd F.thmCfg_stackTarget 0
    let cool := mget s1.power.stackCool p 0 + 1
    let keep (s : State) (c : Nat) : State := { s with power := { s.power with stackCool := mput s.power.stackCool p 0 c } }
    let s2 :=
      if goal < t then keep (s1.setSteps p 6 (min (n + 1) 7)) 0
      else if t + 3 < goal && n != 0 then (if 10 ≤ cool then keep (s1.setSteps p 6 (n - 1)) 0 else keep s1 cool)
      else keep s1 0
    let hot := decide (120 ≤ t)
    let was := s.power.stackHot.contains p.val
    let s3 := { s2 with power := { s2.power with stackHot := if hot then (if was then s2.power.stackHot else p.val :: s2.power.stackHot)
                                                             else s2.power.stackHot.filter (· != p.val) } }
    .next (if hot && was then s3.latchOff p else s3)

/-! ### The predictive model (R526 to R528) -/

/-- exp(−x) by its series to 24 terms. -/
def expNeg (x : Rat) : Rat := (List.range 24).foldr (fun (k : Nat) (acc : Rat) => 1 - x / ((k : Rat) + 1) * acc) 1

/-- Mesh neighbours of a site. -/
def meshNeighbours (t : Nat) : List Nat :=
  (if siteRow t = 0 then [] else [t - 24]) ++ (if siteCol t = 23 then [] else [t + 1]) ++ (if siteRow t = 23 then [] else [t + 24]) ++
  (if siteCol t = 0 then [] else [t - 1])

/-- Prediction for a tile at set frequency `f`, in 0.1 °C (R526). -/
def State.tilePred (s : State) (pw : NMap Nat) (t f : Nat) : Rat :=
  let m := mget s.power.therm t {}
  let self : Rat := (mget pw t 0 : Nat) * (f : Rat) / (max 1 (s.setFreq t) : Nat)
  let near : Rat := ((meshNeighbours t).map (fun n => mget pw n 0)).sum
  let ss : Rat := (signed16 (s.rd F.thmCool_tIn 0) : Int) + m.rs * self + m.rn * near
  let now : Rat := (signed16 (s.rd F.thmTile_tUsed t) : Int)
  now + (ss - now) * (1 - expNeg (8 / m.tau))

/-- Nearest integer. -/
def nearest (r : Rat) : Int := (r + 1 / 2).floor

/-- Tiles that the model covers. -/
def State.modelTiles (s : State) : List Nat :=
  s.siteList.filter (fun t => !s.halted t && s.rd F.thmTile_tUsed t != 0x8000 && !s.packDark (sitePack t))

/-- A unit's cap may rise after 10 ms at or below its target less 3 °C (R527). -/
def State.coolCount (s : State) (u : Nat) (cool : Bool) : State :=
  { s with power := { s.power with coolMs := mput s.power.coolMs u 0 (if cool then min (mget s.power.coolMs u 0 + 1) 10 else 0) } }

/-- Throttle one unit (R527). -/
def State.throttle (s : State) (pw : NMap Nat) (u : Nat) (pred : Rat) : State :=
  let goal : Rat := ((s.rd F.thmCfg_target 0 * 10 : Nat) : Rat)
  let rec_ (s : State) (c : Nat) : State := s.barkRate 0x0032 u 1000000000 {} [(24, u), (26, t16 (nearest pred)), (28, c)]
  if u < 576 then
    let cur := s.setFreq u
    let fs := ((List.range cur).filter (fun f => decide (12 ≤ f))).reverse
    let c := (fs.find? (fun f => decide (s.tilePred pw u f ≤ goal))).getD 12
    rec_ (s.lowerCap u 2 c) c
  else
    let p := u - 576
    let n := min (mget s.power.caps (hubIsland p * 8 + 7) 0 + 1) 7
    rec_ (s.setSteps p 7 n) n

/-- Predictions of the hubs: the spec gives no parameters for them, so each is a free value (log entry 3). -/
def State.hubPreds (s : State) : List Nat → List (Nat × Rat) × State
  | [] => ([], s)
  | p :: l =>
    let (f, s1) := s.drawFree
    let r := (s1.wr F.thmHub_tPred p f).hubPreds l
    ((576 + p, ((signed16 f : Int) : Rat)) :: r.1, r.2)

/-- THERMAL_PREDICT (R526, R527): powers of the last millisecond. -/
def execThermalPredict (tilePower hubPower : NMap Nat) (s : State) : Out :=
  if !s.on F.thmCfg_modelEn 0 || s.mnHalted || s.inSit then .next s
  else
    let tiles := s.modelTiles.map (fun t => (t, s.tilePred tilePower t (s.setFreq t)))
    let s1 := tiles.foldl (fun s x => s.wr F.thmTile_tPred x.1 (t16 (nearest x.2))) s
    let (hubs, s2) := s1.hubPreds (s1.packList.filter (fun p => !s1.packDark p && (mfind hubPower p).isSome))
    let goal (u : Nat) : Rat := (((if u < 576 then s.rd F.thmCfg_target 0 else s.rd F.thmCfg_stackTarget 0) * 10 : Nat) : Rat)
    let all := tiles ++ hubs
    let worst := (all.filter (fun x => decide (goal x.1 < x.2))).foldl (fun (b : Option (Nat × Rat)) x => match b with
      | none => some x
      | some y => if y.2 < x.2 then some x else some y) none
    let s3 := all.foldl (fun s x =>
      let capped := if x.1 < 576 then s.rd F.thmTile_cap x.1 != 0 else mget s.power.caps (hubIsland (x.1 - 576) * 8 + 7) 0 != 0
      let up := if x.1 < 576 then s.tilePred tilePower x.1 (s.rd F.thmTile_cap x.1 + 1) else x.2
      s.coolCount x.1 (capped && decide (up ≤ goal x.1 - 30))) s2
    .next (match worst with
      | none => s3
      | some (u, t) => (s3.throttle tilePower u t).coolCount u false)

/-- THERMAL_REFIT (R528): a fit over readings that the state does not keep, so each parameter is a free value within its limits. -/
def execThermalRefit (site : Fin 576) (s : State) : Out :=
  if s.mnHalted || s.inSit || !s.siteFitted site then .next s
  else
    let (a, s1) := s.drawFree
    let (b, s2) := s1.drawFree
    let (c, s3) := s2.drawFree
    let frac (n : Nat) : Rat := ((n % 2 ^ 32 : Nat) : Rat) / ((2 ^ 32 - 1 : Nat) : Rat)
    .next { s3 with power := { s3.power with
      therm := mset s3.power.therm site { rs := 1 / 10 + frac a * (39 / 10), rn := frac b / 2, tau := 5 + frac c * 95 } } }

end Sys2Proof.Machine
end

