-- ==== Sys2Proof/Machine/RegAddr.lean ====
section
/-! DEFINITION. Which register a BAR0 offset names (R424 to R426). -/

namespace Sys2Proof.Machine

/-- The instance of a register that an offset falls in, and the byte within it. -/
def placeAt (pl : RegPlace) (off : Nat) : Option (Nat × Nat) :=
  if off < pl.off then none
  else
    let d := off - pl.off
    let o := if pl.oc ≤ 1 then 0 else d / pl.os
    let e := d - o * pl.os
    let n := if pl.ic ≤ 1 then 0 else e / pl.is
    let b := e - n * pl.is
    if o < pl.oc && n < pl.ic && b < pl.bytes then some (o * pl.ic + n, b) else none

/-- Register, index and byte at an offset, as port `p` sees it: a register that each port has is port `p`'s own. -/
def regAt (p off : Nat) : Option (Reg × Nat × Nat) :=
  allRegs.findSome? (fun r =>
    let pl := regPlace r
    match placeAt pl off with
    | none => none
    | some x => some (r, (if pl.perPort then p * (pl.oc * pl.ic) else 0) + x.1, x.2))

end Sys2Proof.Machine
end

