-- ==== Sys2Proof/Machine/Layout.lean ====
section
/-! DEFINITION. The bits of packets and flits (R158, R239 to R243, R286 to R288, R407, R483). The machine works on the fields; this file says which
bytes and wires carry them. -/

namespace Sys2Proof.Machine

/-- `TYPE` (R243); the messages that claim and answer a token travel as STEP_MSG (R153). -/
def typeCode : PktBody → Nat
  | .write => 0x01
  | .readReq _ => 0x02
  | .readData => 0x03
  | .atomic _ => 0x04
  | .ack .. => 0x05
  | .nack => 0x06
  | .signal _ => 0x07
  | .channelItem .. => 0x08
  | .channelCredit .. => 0x09
  | .gatherReserve .. => 0x10
  | .gatherList .. => 0x11
  | .bagPart .. => 0x12
  | .reducePart .. => 0x13
  | .redCredit .. => 0x14
  | .redDone .. => 0x15
  | .stepMsg _ => 0x20
  | .setpoint _ => 0x21
  | .beacon .. => 0x22
  | .fenceNotice .. => 0x23
  | .deadMask _ => 0x24
  | .sit _ => 0x25
  | .fabCtl .. => 0x26
  | .gapNotice .. => 0x27
  | .tokenClaim .. => 0x20
  | .tokenAnswer _ => 0x20
  | .service _ => 0x30

/-- `DST` and `SRC`: unit and `DST_KIND` (R241). -/
def unitBits : Endpoint → Nat
  | .tile a => a
  | .hub p => p + 512 * 1
  | .field d => d + 512 * 2
  | .host h => h + 512 * 3
  | .link n => n + 512 * 4
  | .mgmt m => m + 512 * 5
  | .group g => g + 512 * 6
  | .broadcast => 512 * 7

/-- Bytes 20 to 31, as a number: where the spec places their fields, as it says; else a constant of the fields that nothing constrains. -/
def typeBits : PktBody → Nat
  | .write => 0
  | .readReq n => n % 2 ^ 32
  | .readData => 0
  | .atomic op => op % 256
  | .ack n r e => n % 65536 + 65536 * (r % 256) + 2 ^ 32 * (e % 65536)
  | .nack => 0
  | .signal v => v % 2 ^ 32
  | .channelItem d m e ep slot fmt => d % 64 + 64 * (m % 4) + 256 * (e % 64) + 2 ^ 16 * (ep % 65536) + 2 ^ 32 * (slot % 256) + 2 ^ 40 * (fmt % 16)
  | .channelCredit d e op ep => d % 64 + 256 * (e % 64) + 2 ^ 16 * (op % 8) + 2 ^ 32 * (ep % 65536)
  | .setpoint e => e % 65536
  | .beacon m t => m % 2 ^ 32 + 2 ^ 32 * (t % 2 ^ 64)
  | .fenceNotice a r site => a % 512 + 65536 * (r % 256) + (if r = 0x10 then 2 ^ 32 * (site % 1024) else 0)
  | b => Config.typeBits b % 2 ^ 96

/-- The packet header (R241). -/
def headerBytes (p : Packet) : List Byte :=
  leBytes 1 (typeCode p.body) ++
  leBytes 1 (p.cls % 4 + 4 * b2n p.reply + 8 * b2n p.pinned + 16 * b2n p.noack + 32 * b2n p.route.zrc) ++
  leBytes 2 (unitBits p.dst) ++ leBytes 2 (unitBits p.src) ++ leBytes 2 p.payload.length ++ leBytes 4 (p.off % 2 ^ 26 + 2 ^ 26 * (p.ctr % 64)) ++
  leBytes 1 (b2n p.ctrEn + 2 * b2n p.span) ++ leBytes 1 p.status ++ leBytes 2 (carried p).length ++ leBytes 4 p.rtag ++ leBytes 12 (typeBits p.body)

/-- Payload of a step message (R158). -/
def stepBytes : StepMsg → List Byte
  | .stepStart id att entry serial clr dl =>
    leBytes 4 id ++ leBytes 1 att ++ leBytes 3 0 ++ leBytes 4 entry ++ leBytes 4 serial ++ leBytes 8 clr ++ leBytes 8 dl
  | .report id att st tag addr => leBytes 4 id ++ leBytes 1 att ++ leBytes 1 st ++ leBytes 2 0 ++ leBytes 4 tag ++ leBytes 4 addr
  | .cancel id => leBytes 4 id
  | m => Config.stepBytes m

/-- The 256 payload bytes of a flit; bytes beyond the packet's payload are 0 (R239, R242). -/
def flitPayload (f : Flit) : List Byte :=
  let b := carried f.pkt
  let x := if f.fidx = 0 then headerBytes f.pkt ++ b.take 224 else (b.drop (224 + 256 * (f.fidx - 1))).take 256
  x ++ List.replicate (256 - x.length) 0

/-- Its parity wires: even parity over each byte and its bit. -/
def flitParity (f : Flit) : Nat := (flitPayload f).zipIdx.foldl (fun n x => n + popCount x.1.toNat 8 % 2 * 2 ^ x.2) 0

/-- Its sideband header (R240); the code of `CHECK` is not stated. -/
def sideband (f : Flit) : Nat :=
  let n := f.vc % 16 + 2 ^ 4 * (f.kind % 4) + 2 ^ 6 * b2n f.bad + 2 ^ 7 * b2n f.down + 2 ^ 8 * (f.dstSite % 1024) + 2 ^ 18 * (f.srcSite % 1024) +
    2 ^ 28 * (f.viaRow % 32) + 2 ^ 33 * (f.viaCol % 32) + 2 ^ 38 * (f.fidx % 32)
  n + 2 ^ 56 * (Config.sidebandCheck n % 256)

/-- The 2368 wires of a link as they carry a flit: payload, parity, sideband (R234). -/
def flitWires (f : Flit) : Nat := leNat (flitPayload f) + 2 ^ 2048 * flitParity f + 2 ^ 2304 * sideband f

/-! ### Link words (R366 to R368) -/

/-- A control word (R368): subtype and content. -/
def controlBytes (sub : Nat) (vals : List Nat) : List Byte :=
  let v (i : Nat) : Nat := vals.getD i 0
  let b := leBytes 1 sub ++ leBytes 1 0 ++ (match sub with
    | 0 => vals.flatMap (leBytes 2)
    | 3 => leBytes 6 0 ++ leBytes 8 (v 0) ++ leBytes 8 (v 1)
    | 4 => leBytes 2 (v 0) ++ leBytes 1 (v 1) ++ leBytes 1 (v 2) ++ leBytes 2 (v 3) ++ leBytes 8 (v 4)
    | _ => leBytes 2 (v 0))
  b ++ List.replicate (64 - b.length) 0

/-! ### UDP datagrams in Ethernet frames (R350, R354) -/

/-- Bytes in network order. -/
def beBytes (n v : Nat) : List Byte := (leBytes n v).reverse

/-- Sum of the 16-bit words of a byte list in network order. -/
def sum16 : List Byte → Nat
  | [] => 0
  | [a] => a.toNat * 256
  | a :: b :: l => a.toNat * 256 + b.toNat + sum16 l

/-- The Internet checksum. -/
def checksum16 (b : List Byte) : Nat :=
  let fold (n : Nat) : Nat := n % 65536 + n / 65536
  65535 - fold (fold (fold (sum16 b)))

/-- A UDP datagram in an IPv4 packet without options in an Ethernet frame, tagged where `vlan` is not 0, FCS excluded. Identification and
fragment fields are 0 (log entry 55). -/
def udpFrame (dstMac srcMac vlan pcp dscp ttl srcIp dstIp srcUdp dstUdp : Nat) (data : List Byte) : List Byte :=
  let n := 8 + data.length
  let udp (c : Nat) : List Byte := beBytes 2 srcUdp ++ beBytes 2 dstUdp ++ beBytes 2 n ++ beBytes 2 c ++ data
  let c := checksum16 (beBytes 4 srcIp ++ beBytes 4 dstIp ++ beBytes 2 17 ++ beBytes 2 n ++ udp 0)
  let ip (h : Nat) : List Byte := beBytes 1 0x45 ++ beBytes 1 (4 * dscp) ++ beBytes 2 (20 + n) ++ beBytes 4 0 ++ beBytes 1 ttl ++ beBytes 1 17 ++
    beBytes 2 h ++ beBytes 4 srcIp ++ beBytes 4 dstIp
  beBytes 6 dstMac ++ beBytes 6 srcMac ++ (if vlan = 0 then [] else beBytes 2 0x8100 ++ beBytes 2 (pcp * 8192 + vlan)) ++ beBytes 2 0x0800 ++
    ip (checksum16 (ip 0)) ++ udp (if c = 0 then 65535 else c)

end Sys2Proof.Machine
end

