-- ==== Sys2Proof/Machine/Field.lean ====
section
/-! DEFINITION. Field ports: received frames, ingest FIFOs, concentrator mode, setpoints out and in, keys (R331 to R361, R445). -/

namespace Sys2Proof.Machine

def fieldIsland (d : Nat) : Nat := 1224 + d
def State.setField (s : State) (x : FieldState) : State := { s with field := x }

/-- The 64-byte words of an item with `n` data bytes (R339). -/
def itemWords (n : Nat) : Nat := 1 + ceilDiv n 64

/-! ### The host's field receive ring (R445) -/

/-- A frame for the host, received on port `n`. -/
def State.frameToHost (s : State) (n : Nat) (f : Frame) : State :=
  let drop := s.cnt F.fldPortCnt_hostDrop n
  let port := s.rd F.rngFrxCfg_port 0
  let size := 2 ^ s.rd F.rngFrxCfg_log2Size 0
  let prod := s.host.frxProd
  if !s.on F.fldCfg_hostRxEn 0 || !s.on F.rngFrxCfg_en 0 || !s.portUp port ||
    decide (size ≤ (prod + 2 ^ 32 - s.host.frxHead % 2 ^ 32) % 2 ^ 32) then drop
  else
    let head := leBytes 8 f.rxTime ++ leBytes 1 (b2n (prod / size % 2 == 0) + 2 * n) ++ leBytes 1 0 ++ leBytes 2 (f.length - 4) ++ leBytes 4 0 ++
      leBytes 8 s.now ++ leBytes 40 0
    let u := s.host.frxUnsignalled + 1
    let ic := s.rd F.rngFrxCfg_intCnt 0
    let sig := ic != 0 && decide (ic ≤ u)
    let s1 := (s.toHost port (s.rd F.rngFrxBase_addr 0 + 2048 * (prod % size)) (head ++ f.raw))
    let s2 := { s1 with host := { s1.host with frxProd := (prod + 1) % 2 ^ 32, frxUnsignalled := if sig then 0 else u } }
    if sig then s2.signalVec port (s.rd F.rngFrxCfg_vec 0) else s2

/-! ### Ingest FIFOs (R339 to R347) -/

def State.fifo (s : State) (i : Nat) : Fifo := mget s.field.fifos i {}

/-- Words in use. -/
def Fifo.used (x : Fifo) : Nat := (x.items.map (fun it => itemWords it.data.length)).sum

/-- A FIFO changes: `USED` and `WAITING` follow. -/
def State.setFifo (s : State) (i : Nat) (x : Fifo) : State :=
  let s1 := s.setField { s.field with fifos := mput s.field.fifos i {} x }
  (s1.wr F.fldFifoStat_used i x.used).wr F.fldFifoStat_waiting i (min x.items.length 1023)

/-- One item is dropped: the pending gap record counts it (R345). -/
def State.dropItem (s : State) (i : Nat) : State :=
  let x := s.fifo i
  (s.cnt F.fldFifoStat_gapCnt i).setFifo i { x with gap := match x.gap with
    | none => some (1, s.now)
    | some (n, t) => some (min (n + 1) 0xFFFFFFFF, t) }

/-- The gap item of a pending record. -/
def gapItem (g : Nat × Nat) : Ingest := { kind := 3, tagTime := g.2, dropped := g.1 }

/-- An item arrives at a FIFO (R345). -/
def State.pushItem (s : State) (i : Nat) (it : Ingest) : State :=
  if !s.on F.fldFifo_en i then s
  else
    let x := s.fifo i
    let free := 1024 - x.used
    let w := itemWords it.data.length
    match x.gap with
    | none => if w + 1 ≤ free then s.setFifo i { x with items := x.items ++ [it] } else s.dropItem i
    | some g =>
      if w + 1 ≤ free then s.setFifo i { x with items := x.items ++ [gapItem g, it], gap := none }
      else if 1 ≤ free then (s.setFifo i { x with items := x.items ++ [gapItem g], gap := none }).dropItem i
      else s.dropItem i

/-- Words of an item with one flipped bit, and with more (R339, R346). -/
def Ingest.corrected (it : Ingest) : Nat := (it.flips.filter (fun w => popCount w.2 72 == 1)).length
def Ingest.bad (it : Ingest) : Bool := it.flips.any (fun w => decide (2 ≤ popCount w.2 72))

/-- Bytes of an item as delivered (R340): header word and padded data words. -/
def itemBytes (it : Ingest) (seq waiting : Nat) : List Byte :=
  let n := it.data.length
  let nw := ceilDiv n 64
  leBytes 8 it.rxTime ++ leBytes 8 it.tagTime ++ leBytes 4 seq ++ leBytes 2 n ++ leBytes 1 it.kind ++
  leBytes 1 (it.port + 8 * b2n it.unsynced + 16 * b2n (it.corrected != 0)) ++ leBytes 2 it.stream ++ leBytes 2 waiting ++ leBytes 4 it.dropped ++
  leBytes 1 nw ++ leBytes 1 (if nw = 0 then 0 else n - 64 * (nw - 1)) ++ leBytes 2 0 ++ leBytes 4 (if nw = 0 then 0 else 2 ^ (nw - 1)) ++
  leBytes 2 it.ident ++ leBytes 2 it.sub ++ leBytes 4 it.aux ++ leBytes 2 it.vlan ++ leBytes 6 it.srcMac ++ leBytes 4 it.srcIp ++ leBytes 4 0 ++
  it.data ++ List.replicate (64 * nw - n) 0

/-- The WRITE that carries an item to its ring slot (R341). -/
def State.sendIngest (s : State) (d f : Nat) (it : Ingest) (seq waiting : Nat) : State :=
  let i := d * 32 + f
  let slot := seq % s.rd F.fldFifo_nslots i
  s.request { src := .field d, fifo := some (d, f) }
    { body := .write, cls := 1, pinned := true, dst := .tile (s.rd F.fldFifo_array i), src := .field d,
      off := s.rd F.fldFifo_ringBase i * 2048 + slot * 2048, ctr := s.rd F.fldFifo_ctr i, ctrEn := true, payload := itemBytes it seq waiting }

/-- What reading an item finds: corrected words, an uncorrectable word (R346, R504). -/
def State.fifoErr (s : State) (d : Nat) (it : Ingest) : State :=
  let n := it.corrected
  let s1 := if n = 0 then s else (s.cnt F.fldErr_corrCnt d n).penalize (648 + d) (16 * n)
  if it.bad then (s1.cnt F.fldErr_uncorrCnt d).penalize (648 + d) 16384 else s1

/-- INGEST_DELIVERY (R341, R343, R346). -/
def execIngestDelivery (d : Fin 2) (f : Fin 32) (s : State) : Out :=
  let i := d.val * 32 + f.val
  let x := s.fifo i
  match x.items with
  | [] => .next s
  | it :: rest =>
    if s.halted (fieldIsland d) || !s.on F.fldFifo_en i || s.arrHeld (s.rd F.fldFifo_array i) then .next s
    else
      let s1 := (s.setFifo i { x with items := rest, seq := if it.bad then x.seq else (x.seq + 1) % 2 ^ 32 }).fifoErr d it
      .next (if it.bad then s1.dropItem i else s1.sendIngest d f it x.seq rest.length)

/-- INGEST_IDLE (R344): the watermark is panel time now. -/
def execIngestIdle (d : Fin 2) (f : Fin 32) (s : State) : Out :=
  let i := d.val * 32 + f.val
  let x := s.fifo i
  if s.halted (fieldIsland d) || !s.on F.fldFifo_en i || s.rd F.fldFifo_idleUs i == 0 || x.items != [] || s.arrHeld (s.rd F.fldFifo_array i) then .next s
  else .next ((s.setFifo i { x with seq := (x.seq + 1) % 2 ^ 32 }).sendIngest d f { kind := 2, tagTime := s.now } x.seq 0)

/-- A write to `FLD_FIFO_d_f` (R347). -/
def State.wrFifo (s : State) (i v m : Nat) : State :=
  let en := s.on F.fldFifo_en i
  let moves := [F.fldFifo_array, F.fldFifo_ctr, F.fldFifo_ringBase, F.fldFifo_nslots].any (fun f => s.newFld f i v m != s.rd f i)
  if en && moves then s.bark 0x0011 { kind := .fieldDie, num := i / 32 } [(24, regOff .fldFifo i)]
  else
    let s1 := s.storeReg .fldFifo i v m
    let new := s1.on F.fldFifo_en i
    let x := s1.fifo i
    if en && !new then (s1.cnt F.fldFifoStat_gapCnt i (x.items.length + b2n x.gap.isSome)).setFifo i {}
    else if new && !en then s1.setFifo i {}
    else s1

/-- FLD_FIFO_WRITE (R347). -/
def execFldFifoWrite (port : Fin 2) (d : Fin 2) (f : Fin 32) (value : BitVec 64) (s : State) : Out :=
  s.bar port .unit (fun s => s.wrFifo (d.val * 32 + f.val) value.toNat fullMask)

/-! ### Time tags (R338) -/

def roundDiv (a b : Nat) : Nat := (2 * a + b) / (2 * b)

/-- The panel time of a UTC instant, `soc` seconds and `frac` ns: by the offset in force at the instant itself. An instant in the second that a
leap second repeats is the one nearer to the receive timestamp (log entry 55). -/
def State.utcInstant (s : State) (soc frac rx : Nat) : Nat :=
  let l := s.rd F.clkLeap_leapTime 0
  let at_ (o : Nat) : Int := (soc + signed16 o) * 1000000000 + frac
  let t0 := at_ (s.rd F.clkUtc_utcOffset 0)
  let t1 := at_ (s.rd F.clkUtc_nextOffset 0)
  let old := decide (t0 < l)
  let new := decide ((l : Int) ≤ t1)
  (if l = 0 || (old && !(new && decide ((t1 - rx).natAbs < (t0 - rx).natAbs))) then t0 else t1).toNat

/-- `TAG_TIME` of a C37.118.2 frame; without a `RATE_BASE` the spec states none, and the value is free (log entry 3). -/
def State.tagC37 (s : State) (soc fracsec rate rx : Nat) : Nat × State :=
  if rate = 0 then let r := s.drawFree; (r.1 % 2 ^ 64, r.2)
  else (s.utcInstant soc (roundDiv (fracsec % 2 ^ 24 * 1000000000) rate) rx, s)

/-- `TAG_TIME` of a sampled value with `smpSynch` ≠ 0: the TAI second that brings it nearest the receive timestamp. -/
def State.tagSv (s : State) (smpCnt rate rx : Nat) : Nat × State :=
  if rate = 0 then let r := s.drawFree; (r.1 % 2 ^ 64, r.2)
  else
    let x := roundDiv (smpCnt * 1000000000) rate
    let sec : Int := ((rx : Int) - x + 500000000) / 1000000000
    ((sec * 1000000000 + x).toNat, s)

/-! ### Concentrator mode (R348 to R350) -/

def snapStep : Nat := 20000000

/-- An item of a stream in snapshots. -/
def State.concItem (s : State) (d m : Nat) (it : Ingest) : State :=
  let i := d * 256 + m
  if !s.on F.fldCfg_concEn 0 || !s.on F.fldStrm_conc i then s
  else if s.rd F.fldStrm_rateBase i = 0 then (if s.rd F.fldStrm_kind i = 0 then s.cnt F.fldConcStat_concLate 0 else s)
  else if it.tagTime % snapStep != 0 then s
  else if it.tagTime ≤ mget s.field.closed d 0 then s.cnt F.fldConcStat_concLate 0
  else
    let k := it.tagTime * 2 + d
    let b : ConcBlock := { stream := m, die := d, kind := it.kind, state := if it.unsynced then 2 else 0, data := it.data }
    let l := (mget s.field.conc k []).filter (fun c => c.stream != m)
    s.setField { s.field with conc := mset s.field.conc k (l ++ [b]) }

/-- A stream that no entry names is learnt (R348); a C37.118.2 stream's source is asked for its configuration. -/
def State.learn (s : State) (d q kind id : Nat) (ask : Option TxFrame) : State :=
  if !s.on F.fldCfg_concEn 0 then s
  else match (List.range 256).find? (fun m => !s.on F.fldStrm_valid (d * 256 + m)) with
  | none => s
  | some m =>
    let i := d * 256 + m
    let s1 := s.clrRegs ((regFields .fldStrm).map (fun f => (f, i)))
    let s2 := ((((s1.wr F.fldStrm_valid i 1).wr F.fldStrm_kind i kind).wr F.fldStrm_ports i (2 ^ q)).wr F.fldStrm_id i id).wr F.fldStrm_conc i 1
    let s3 := s2.setField { s2.field with learnt := s2.field.learnt.filter (· != i) ++ [i], svMax := mdel s2.field.svMax i }
    s3.updFport (4 * d + q) (fun x => { x with replies := x.replies ++ ask.toList })

/-- Blocks of a die's part: every stream in snapshots, ascending, missing where nothing was collected. -/
def State.concPart (s : State) (d t : Nat) : List ConcBlock :=
  let got := mget s.field.conc (t * 2 + d) []
  ((List.range 256).filter (fun m => s.on F.fldStrm_valid (d * 256 + m) && s.on F.fldStrm_conc (d * 256 + m) && s.rd F.fldStrm_rateBase (d * 256 + m) != 0)).map
    (fun m => match got.find? (fun b => b.stream == m) with
      | some b => b
      | none => { stream := m, die := d, kind := s.rd F.fldStrm_kind (d * 256 + m), state := 1 })

def concBytes (b : ConcBlock) : List Byte :=
  leBytes 2 (b.stream + 32768 * b.die) ++ leBytes 1 b.kind ++ leBytes 1 b.state ++ leBytes 2 b.data.length ++ leBytes 2 0 ++ b.data ++
  List.replicate ((8 - b.data.length % 8) % 8) 0

/-- Cut blocks into datagrams of at most `room` bytes of blocks. -/
def cutBlocks (room : Nat) : List ConcBlock → List ConcBlock → Nat → List (List ConcBlock)
  | [], cur, _ => [cur]
  | b :: l, cur, used =>
    let n := (concBytes b).length
    if cur != [] && decide (room < used + n) then cur :: cutBlocks room l [b] n else cutBlocks room l (cur ++ [b]) (used + n)

/-- Publish snapshot `t` from F0 (R350). -/
def State.publish (s : State) (t : Nat) (all : List ConcBlock) : State :=
  let room := (if s.rd F.fldPort_vlanId 0 = 0 then 1472 else 1468) - 32
  -- a block that no frame can hold goes out as a missing one (log entry 55)
  let blocks := all.map (fun b => if room < (concBytes b).length then { b with state := 1, data := [] } else b)
  let grams := cutBlocks room blocks [] 0
  let s1 := (s.cntW F.fldConcStat_snapSeq 0).cnt F.fldConcStat_missing 0 (blocks.filter (fun b => b.state == 1)).length
  let head (k n : Nat) : List Byte :=
    [0x50, 0x5A, 0x53, 0x4E] ++ leBytes 1 1 ++ leBytes 1 0 ++ leBytes 2 n ++ leBytes 8 (s.rd F.idnSerial_serial 0) ++ leBytes 8 t ++
    leBytes 4 (s1.rd F.fldConcStat_snapSeq 0) ++ leBytes 1 k ++ leBytes 1 grams.length ++ leBytes 2 0
  let out := grams.zipIdx.map (fun g => head g.2 g.1.length ++ g.1.flatMap concBytes)
  let s2 := s1.updFport 0 (fun x => { x with snaps := x.snaps ++ out })
  s2.setField { s2.field with parts := mdel (mdel s2.field.parts (t * 2)) (t * 2 + 1) }

/-- CONC_SNAPSHOT_CLOSE (R349). -/
def execConcSnapshotClose (d : Fin 2) (t : Nat) (s : State) : Out :=
  if s.halted (fieldIsland d) || !s.on F.fldCfg_concEn 0 || t % snapStep != 0 || decide (t ≤ mget s.field.closed d 0) ||
    decide (s.now < t + s.rd F.fldConc_concWait 0 * 1000000) then .next s
  else
    let l := s.concPart d t
    .next (s.setField { s.field with
      closed := mset s.field.closed d t,
      conc := s.field.conc.filter (fun c => !(c.1 % 2 == d.val && decide (c.1 / 2 ≤ t))),
      parts := mset s.field.parts (t * 2 + d) l })

/-- CONC_SOUTH_PART (R349). -/
def execConcSouthPart (t : Nat) (s : State) : Out :=
  match mfind s.field.parts (t * 2), mfind s.field.parts (t * 2 + 1) with
  | some n, some so => if s.halted (fieldIsland 0) then .next s else .next (s.publish t (n ++ so))
  | _, _ => .next s

/-- CONC_PUBLISH_TIMEOUT (R349): the south part has not come, and every south stream is missing. -/
def execConcPublishTimeout (t : Nat) (s : State) : Out :=
  match mfind s.field.parts (t * 2) with
  | none => .next s
  | some n =>
    if s.halted (fieldIsland 0) || decide (s.now < t + (s.rd F.fldConc_concWait 0 + 2) * 1000000) then .next s
    else
      let so := (s.concPart 1 t).map (fun b => ({ stream := b.stream, die := 1, kind := b.kind, state := 1 } : ConcBlock))
      .next (s.publish t (n ++ so))

/-- CONC_RATE_LEARNT (R348). -/
def execConcRateLearnt (d : Fin 2) (m : Fin 256) (s : State) : Out :=
  let i := d.val * 256 + m.val
  match mfind s.field.svMax i with
  | none => .next s
  | some n =>
    if !s.field.learnt.contains i || s.rd F.fldStrm_kind i != 1 || s.halted (fieldIsland d) then .next s
    else .next ((s.wr F.fldStrm_rateBase i (n + 1)).setField
      { s.field with learnt := s.field.learnt.filter (· != i), svMax := mdel s.field.svMax i })

/-! ### Received frames (R332 to R338, R359) -/

/-- The stream entry of die `d` that takes a frame of a kind and an identity on die-local port `q`. -/
def State.stream (s : State) (d q kind id : Nat) : Option Nat :=
  (List.range 256).find? (fun m =>
    let i := d * 256 + m
    s.on F.fldStrm_valid i && s.rd F.fldStrm_kind i == kind && s.rd F.fldStrm_id i == id && bitAt (s.rd F.fldStrm_ports i) q)

/-- An item goes to its stream's FIFO and to the snapshots. -/
def State.ingest (s : State) (d m : Nat) (it : Ingest) : State :=
  let i := d * 256 + m
  let s1 := if s.on F.fldStrm_fifoEn i then s.pushItem (d * 32 + s.rd F.fldStrm_fifo i) it else s
  s1.concItem d m it

/-- A learnt sampled-value stream's largest smpCnt. -/
def State.seeSmp (s : State) (i c : Nat) : State :=
  if s.field.learnt.contains i then s.setField { s.field with svMax := mset s.field.svMax i (max c (mget s.field.svMax i 0)) } else s

/-- Sampled values: one item for each ASDU (R337, R338). -/
def State.svFrame (s : State) (d q m appid : Nat) (f : Frame) (l : List Asdu) : State :=
  let i := d * 256 + m
  l.foldl (fun s a =>
    let (t, s) := if a.smpSynch = 0 then (f.rxTime, s) else s.tagSv a.smpCnt (s.rd F.fldStrm_rateBase i) f.rxTime
    let it : Ingest :=
      { rxTime := f.rxTime, tagTime := t, kind := 1, port := q, unsynced := a.smpSynch == 0, stream := m, ident := appid, sub := a.smpCnt,
        aux := a.confRev, vlan := f.vlan, srcMac := f.srcMac, data := a.seqData }
    (s.seeSmp i a.smpCnt).ingest d m it) s

/-- The key of a slot, if it holds one. -/
def State.keyOf (s : State) (d k : Nat) : Option (List Byte) := mfind s.field.keys (d * 64 + k)

/-- The inbound entry whose key a datagram names. -/
def State.inEntry (s : State) (d keyId : Nat) : Option (Nat × List Byte) :=
  (List.range 64).findSome? (fun i =>
    let e := d * 64 + i
    let k := s.rd F.fldIn_key e
    match s.keyOf d k with
    | some key => if s.on F.fldIn_valid e && s.rd F.fldKeyId_keyId (d * 64 + k) == keyId then some (i, key) else none
    | none => none)

/-- Offset of delivery `n` in an inbound ring (R359, R384). -/
def inSlot (base nslots n : Nat) : Nat := base * 1024 + n % (if nslots = 0 then 256 else nslots) * 1024

/-- A setpoint datagram as received (R354). -/
structure SptDatagram where
  good : Bool                 -- `MAGIC` and `VERSION` match, and its length is that of its payload
  keyId : Nat
  seq : Nat
  len : Nat                   -- `PAYLOAD_LEN`
  head : List Byte            -- bytes 0 to 47 + L, which the tag covers
  tag : List Byte
  deriving DecidableEq, Repr

def sptOf (b : List Byte) : SptDatagram :=
  let l := leNat ((b.drop 44).take 2)
  { good := b.take 5 == [0x50, 0x5A, 0x53, 0x50, 1] && b.length == 64 + l
    keyId := leNat ((b.drop 6).take 2)
    seq := leNat ((b.drop 20).take 8)
    len := l
    head := b.take (48 + l)
    tag := b.drop (48 + l) }

/-- An inbound setpoint datagram (R359). -/
def State.inbound (s : State) (d n : Nat) (f : Frame) (b : List Byte) : State :=
  let g := sptOf b
  if !g.good then s.cnt F.fldInCnt_authFail d
  else if 976 < g.len then (s.cnt F.fldInCnt_toHost d).frameToHost n f
  else match s.inEntry d g.keyId with
  | none => s.cnt F.fldInCnt_authFail d
  | some (i, key) =>
    let e := d * 64 + i
    if (Config.hmacSha512 key g.head).toNat / 2 ^ 384 != leNat g.tag.reverse then s.cnt F.fldInCnt_authFail d
    else if g.seq ≤ s.rd F.fldInSeq_lastSeq e then s.cnt F.fldInCnt_replay d
    else if 64 ≤ (mget s.tc0Wait (522 + d) []).length then s.cnt F.fldInCnt_deliverFail d
    else
      let n := mget s.field.inCount e 0
      let s1 := (s.wr F.fldInSeq_lastSeq e g.seq).setField { s.field with inCount := mset s.field.inCount e (n + 1) }
      s1.requestTc0 { src := .field d }
        { body := .setpoint i, cls := 0, dst := .tile (s.rd F.fldIn_array e), src := .field d,
          off := inSlot (s.rd F.fldIn_ringBase e) (s.rd F.fldIn_nslots e) n, ctr := s.rd F.fldIn_ctr e, ctrEn := true, payload := g.head }

/-- Classify a good frame by R335. -/
def State.classify (s : State) (n : Nat) (f : Frame) : State :=
  let d := n / 4
  let q := n % 4
  let answer (s : State) (x : TxFrame) : State := s.updFport n (fun p => { p with replies := p.replies ++ [x] })
  let spt (toPort : Bool) (udp : Nat) : Bool := toPort && udp == s.rd F.fldCfg_sptUdp 0
  let mine := s.rd F.fldPort_ipv4 n
  match f.body with
  | .ptp _ .management => s.frameToHost n f
  | .ptp dom m => if s.on F.fldPort_ptpEn n && dom == s.rd F.fldCfg_ptpDomain 0 then s.hearPtp n m else s
  | .arp mac ip target => if target = mine then answer s (.arpReply mac ip mine) else s.frameToHost n f
  | .icmpEcho src dst data => if dst = mine then answer s (.echoReply f.srcMac src mine data) else s.frameToHost n f
  | .sv appid l =>
    (match s.stream d q 1 appid with
    | some m => s.svFrame d q m appid f l
    | none => (s.frameToHost n f).learn d q 1 appid none)
  | .c37data frag toPort srcUdp udp sizeOk chkOk idcode soc fracsec stat srcIp bytes =>
    let other := if !frag && spt toPort udp then s.inbound d n f bytes else s.frameToHost n f
    if frag || udp != s.rd F.fldCfg_c37Udp 0 || !sizeOk then other
    else (match s.stream d q 0 idcode with
    | none => if chkOk then other.learn d q 0 idcode (some (.c37Command f.srcMac srcIp srcUdp idcode)) else other
    | some m =>
      if !chkOk then s.cnt F.fldPortCnt_rxBad n
      else
        let (t, s1) := s.tagC37 soc fracsec (s.rd F.fldStrm_rateBase (d * 256 + m)) f.rxTime
        let it : Ingest :=
          { rxTime := f.rxTime, tagTime := t, kind := 0, port := q, stream := m, ident := idcode, sub := stat, aux := fracsec, vlan := f.vlan,
            srcMac := f.srcMac, srcIp := srcIp, data := bytes }
        s1.ingest d m it)
  | .c37config toPort udp idcode base bytes =>
    if spt toPort udp then s.inbound d n f bytes
    else
      let s1 := s.frameToHost n f
      if !s.on F.fldCfg_concEn 0 then s1
      else
        let hit := s1.field.learnt.filter (fun i => i / 256 == d && s1.rd F.fldStrm_kind i == 0 && s1.rd F.fldStrm_id i == idcode && s1.on F.fldStrm_valid i)
        hit.foldl (fun s i => (s.wr F.fldStrm_rateBase i base).setField ({ s.field with learnt := s.field.learnt.filter (· != i) } : FieldState)) s1
  | .datagram toPort udp bytes => if spt toPort udp then s.inbound d n f bytes else s.frameToHost n f
  | .pause => s.cnt F.fldPortCnt_rxBad n
  | .other => s.frameToHost n f

/-- FIELD_FRAME_RX (R331 to R338, R540). In sit a frame is discarded uncounted. -/
def execFieldFrameRx (n : Fin 8) (f : Frame) (s : State) : Out :=
  if s.halted (fieldIsland (n / 4)) || !s.on F.fldPort_en n || !s.on F.fldPortStat_link n || !s.stampOk (fieldIsland (n / 4)) f.rxTime then .next s
  else
    let s1 := s.cntW F.fldPortCnt_rxFrames n
    .next (if !f.fcsOk || !f.tagOk || f.length < 64 || 1522 < f.length then s1.cnt F.fldPortCnt_rxBad n else s1.classify n f)

/-- Speed and FEC with which a port can gain its link: those that its registers fix, or any that auto-negotiation may settle (R331). -/
def State.linkFits (s : State) (n speed fec : Nat) : Bool :=
  let an := s.on F.fldPort_anEn n
  let want := s.rd F.fldPort_speed n
  let f := s.rd F.fldPort_fec25 n
  between speed 1 2 && (speed == want || (want == 0 && an)) && (speed == 1 || (between fec 1 3 && (fec == f || (f == 0 && an))))

/-- FIELD_LINK_CHANGE (R331, R332). -/
def execFieldLinkChange (n : Fin 8) (up : Bool) (speed fec : Nat) (s : State) : Out :=
  if s.halted (fieldIsland (n / 4)) || (up && (!s.on F.fldPort_en n || !s.linkFits n speed fec)) then .next s
  else if up then .next (((s.wr F.fldPortStat_link n 1).wr F.fldPortStat_speedAct n speed).wr F.fldPortStat_fecAct n (if speed = 1 then 1 else fec))
  else .next (((s.wr F.fldPortStat_link n 0).wr F.fldPortStat_speedAct n 0).wr F.fldPortStat_fecAct n 0)

/-! ### Keys (R358, R361) -/

/-- `FLD_KEY_CMD` with `COMMIT`. -/
def State.keyCommit (s : State) (d k id : Nat) : State :=
  let key := (List.range 8).flatMap (fun w => leBytes 8 (mget s.field.stage (d * 8 + w) 0))
  let s1 := s.setField { s.field with keys := mset s.field.keys (d * 64 + k) key, stage := s.field.stage.filter (fun x => x.1 / 8 != d) }
  (((s1.wr F.fldKeyCmd_slot d k).wr F.fldKeyCmd_newId d id).wr F.fldKeyId_keyId (d * 64 + k) id).wr F.fldKeyId_loaded (d * 64 + k) 1

/-- `FLD_KEY_CMD` with `ERASE`. -/
def State.keyErase (s : State) (d k : Nat) : State :=
  let s1 := s.setField { s.field with keys := mdel s.field.keys (d * 64 + k), stage := s.field.stage.filter (fun x => x.1 / 8 != d) }
  ((s1.wr F.fldKeyCmd_slot d k).wr F.fldKeyId_keyId (d * 64 + k) 0).wr F.fldKeyId_loaded (d * 64 + k) 0

/-- KEY_COMMIT (R358, R361). -/
def execKeyCommit (port : Fin 2) (d : Fin 2) (slot : Fin 64) (newId : BitVec 16) (s : State) : Out :=
  s.bar port .unit (fun s => s.keyCommit d slot newId.toNat)

/-- KEY_ERASE (R361). -/
def execKeyErase (port : Fin 2) (d : Fin 2) (slot : Fin 64) (s : State) : Out := s.bar port .unit (fun s => s.keyErase d slot)

/-! ### Setpoints out (R351 to R358) -/

/-- A setpoint that cannot meet its deadline (R357). -/
def State.lateSetpoint (s : State) (n : Nat) : State :=
  (s.cnt F.fldSptCnt_late n).barkRate 0x0012 n 1000000 { kind := .fieldDie, num := n / 4 }

/-- Which of two setpoints stands later: the later deadline, of equal ones the more recently accepted. -/
def sptAfter (x y : Spt) : Bool := decide (y.deadline < x.deadline) || (x.deadline == y.deadline && decide (y.order < x.order))

def lastSpt (l : List Spt) (x : Spt) : Spt := l.foldl (fun b y => if sptAfter y b then y else b) x
def firstSpt : List Spt → Option Spt
  | [] => none
  | x :: l => some (l.foldl (fun b y => if sptAfter b y then y else b) x)

/-- A setpoint joins a port's queue of 512. -/
def State.queueSetpoint (s : State) (n : Nat) (x : Spt) : State :=
  if x.deadline < s.now then s.lateSetpoint n
  else
    let p := s.fport n
    let y := { x with order := p.accepted }
    let l := p.setpoints ++ [y]
    let s1 := s.updFport n (fun p => { p with setpoints := if l.length ≤ 512 then l else l.erase (lastSpt p.setpoints y), accepted := p.accepted + 1 })
    if l.length ≤ 512 then s1 else s1.lateSetpoint n

/-- A packet reaches a field die. -/
def State.atField (s : State) (p : Packet) (k : Nat → State → State) : Out :=
  s.arrive p (fun s1 =>
      match p.dst with
      | .field d =>
        if !classOk p then s1.absorb (fieldHome d) p 6
        else if p.bad then s1.nack p 3
        else k d s1
      | _ => s1.nack p 6)

/-- SETPOINT_ACCEPT (R351 to R353). -/
def execSetpointAccept (pkt : Packet) (s : State) : Out :=
  match pkt.body with
  | .setpoint e =>
    s.atField pkt (fun d s =>
      let v := leNat (pkt.payload.take 16)
      let t := bitsAt v 64 10
      let i := d * 1024 + t
      let n := 4 * d + s.rd F.fldTgt_port i
      let a := match pkt.src with | .tile a => a | _ => 512
      let bound := match s.fieldBind a e with
        | some j => s.rd F.fldSptBind_die j == d && s.epRole a e == 1
        | none => false
      if !bound || !s.on F.fldTgt_valid i || (s.keyOf d (s.rd F.fldTgt_key i)).isNone || bitsAt v 74 6 != 0 || bitsAt v 80 16 != 0 ||
        pkt.payload.length < 16 || 1024 < pkt.payload.length then (s.cnt F.fldSptCnt_refused n).nack pkt 1
      else (s.ack pkt).queueSetpoint n
        { deadline := bitsAt v 0 64, target := t, asset := bitsAt v 96 32, payload := pkt.payload.drop 16 })
  | _ => .next s

/-- SETPOINT_DEADLINE_PASS (R357). -/
def execSetpointDeadlinePass (n : Fin 8) (s : State) : Out :=
  if s.halted (fieldIsland (n / 4)) then .next s
  else
    let gone := (s.fport n).setpoints.filter (fun x => decide (x.deadline < s.now))
    let s1 := s.updFport n (fun p => { p with setpoints := p.setpoints.filter (fun x => !decide (x.deadline < s.now)) })
    .next (gone.foldl (fun s _ => s.lateSetpoint n) s1)

/-- The bytes of a datagram before its tag, and the datagram (R354); the tag is computed 120 ns after selection. -/
def State.buildSetpoint (s : State) (d : Nat) (x : Spt) (seq : Nat) (key : List Byte) : List Byte :=
  let i := d * 1024 + x.target
  let head := [0x50, 0x5A, 0x53, 0x50] ++ leBytes 1 1 ++ leBytes 1 0 ++ leBytes 2 (s.rd F.fldKeyId_keyId (d * 64 + s.rd F.fldTgt_key i)) ++
    leBytes 8 (s.rd F.idnSerial_serial 0) ++ leBytes 4 x.asset ++ leBytes 8 seq ++ leBytes 8 x.deadline ++ leBytes 8 (s.now + 120) ++
    leBytes 2 x.payload.length ++ leBytes 2 0 ++ x.payload
  head ++ ((leBytes 64 (Config.hmacSha512 key head).toNat).reverse).take 16

/-- The frame of a setpoint datagram for target entry `i`, DSCP 46 and TTL 64 (R354). -/
def State.sptFrame (s : State) (n i : Nat) (b : List Byte) : List Byte :=
  udpFrame (s.rd F.fldTgt_dstMac i) (s.rd F.fldMac_mac n) (s.rd F.fldPort_vlanId n) (s.rd F.fldPort_pcp n) 46 64 (s.rd F.fldPort_ipv4 n)
    (s.rd F.fldTgt2_dstIp i) (s.rd F.fldTgt2_srcUdp i) (s.rd F.fldTgt2_dstUdp i) b

/-- The frame of a snapshot datagram, to the group's Ethernet address, TTL 16 (R350; log entry 55). -/
def State.snapFrame (s : State) (n : Nat) (b : List Byte) : List Byte :=
  let g := s.rd F.fldConc_concGroup 0
  let u := s.rd F.fldConc_concPort 0
  udpFrame (0x01005E000000 + g % 2 ^ 23) (s.rd F.fldMac_mac n) (s.rd F.fldPort_vlanId n) (s.rd F.fldPort_pcp n) 0 16 (s.rd F.fldPort_ipv4 n) g u u b

/-- A frame is selected: it goes on the wire when that is free. -/
def State.startFrame (s : State) (n : Nat) (f : TxFrame) : State :=
  if (s.fport n).wire.isNone then (s.updFport n (fun p => { p with wire := some f })).put (.frame n f)
  else s.updFport n (fun p => { p with ahead := some f })

/-- Select among the frames below setpoints (R356). -/
def State.selectOther (s : State) (n : Nat) : State :=
  let p := s.fport n
  let snap (s : State) : State := match p.snaps with
    | [] => s
    | b :: l => (s.updFport n (fun p => { p with snaps := l, hostNext := true })).startFrame n (.snapshot (s.snapFrame n b))
  let host (s : State) : State := match p.hostTx with
    | [] => s
    | (b, i) :: l => (s.updFport n (fun p => { p with hostTx := l, hostNext := false })).startFrame n (.host b i)
  match p.ptp, p.replies with
  | k :: l, _ => (s.updFport n (fun p => { p with ptp := l })).startFrame n (.ptp k)
  | [], r :: l => (s.updFport n (fun p => { p with replies := l })).startFrame n r
  | [], [] =>
  if p.hostTx != [] && (p.hostNext || p.snaps == []) then host s
  else snap s

/-- Select the next frame: late setpoints are discarded, and the die selects again (R357). A target at its last `SEQ`, or whose key slot has
been emptied, sends nothing (R355). -/
def State.selectFrame (s : State) (n firstBit : Nat) : Nat → State
  | 0 => s
  | fuel + 1 =>
    match firstSpt (s.fport n).setpoints with
    | none => s.selectOther n
    | some x =>
      let d := n / 4
      let i := d * 1024 + x.target
      let s1 := s.updFport n (fun p => { p with setpoints := p.setpoints.erase x })
      let count := mget s.field.tgtCount i 0
      match s.keyOf d (s.rd F.fldTgt_key i) with
      | none => (s1.lateSetpoint n).selectFrame n firstBit fuel
      | some key =>
        if x.deadline < firstBit || 2 ^ 40 - 1 ≤ count then (s1.lateSetpoint n).selectFrame n firstBit fuel
        else
          let seq := s.rd F.fldSeqEpoch_seqEpoch 0 * 2 ^ 40 + count
          let s2 := s1.setField { s1.field with tgtCount := mset s1.field.tgtCount i (count + 1) }
          s2.startFrame n (.setpoint (s.sptFrame n i (s.buildSetpoint d x seq key)))

/-- PORT_FRAME_SELECT (R356, R357): `firstBit` is the panel time at which the first bit would leave, the later of the port becoming free and
the selection plus 160 ns. -/
def execPortFrameSelect (n : Fin 8) (firstBit : Nat) (s : State) : Out :=
  if s.halted (fieldIsland (n / 4)) || !s.on F.fldPort_en n || !s.on F.fldPortStat_link n || firstBit < s.now + 160 then .next s
  else match (s.fport n).ahead with
    | none => .next (s.selectFrame n firstBit 1024)
    | some g =>      -- a frame selected before the port lost its link leaves first
      .next (if (s.fport n).wire.isNone then (s.updFport n (fun p => { p with ahead := none })).startFrame n g else s)

/-- FRAME_TX_DONE (R356, R434, R438). -/
def execFrameTxDone (n : Fin 8) (txTime : Nat) (s : State) : Out :=
  match (s.fport n).wire with
  | none => .next s
  | some f =>
    if s.halted (fieldIsland (n / 4)) || !s.stampOk (fieldIsland (n / 4)) txTime then .next s
    else
      let sends := s.on F.fldPort_en n && s.on F.fldPortStat_link n
      let s1 := s.updFport n (fun p => { p with wire := none, ahead := if sends then none else p.ahead, lastTx := some txTime })
      let s2 := match f with
        | .setpoint _ => s1.cntW F.fldSptCnt_sent n
        | .host b i => s1.complete i 0 0 b.length 0 txTime
        | _ => s1
      .next (match (s.fport n).ahead with
        | some g => if sends then s2.startFrame n g else s2
        | none => s2)

/-- SETPOINT_DELIVER (R359, R384): into an inbound ring slot of a tile. -/
def execSetpointDeliver (pkt : Packet) (s : State) : Out :=
  match pkt.body with
  | .setpoint _ =>
    if s.initWaits pkt pkt.payload.length then .next s
    else s.atTile pkt (fun a s =>
      let r := s.tryWrite a 4 (whoOf pkt a) pkt.off pkt.payload
      if r.1 = 0 then (if pkt.ctrEn then r.2.ctrAdd a pkt.ctr 1 else r.2).ack pkt
      else (if r.1 = 1 then r.2.deny a (srcUnit pkt.src) else r.2).nack pkt r.1)
  | _ => .next s

/-- The answer to an ingest delivery (R343): a data error is sent once more, any other NACK discards the item. -/
def State.ingestAnswered (s : State) (q : Req) (d f st : Nat) : State :=
  let i := d * 32 + f
  if st = 0 then s
  else if st = 3 && !q.retried then s.request { q with retried := true } q.pkt
  else (s.cnt F.fldFifoStat_failCnt i).barkRate 0x0010 i 1000000 { kind := .fieldDie, num := d } [(24, f)]

end Sys2Proof.Machine
end

