-- ==== Sys2Proof/Machine/Links.lean ====
section
/-! DEFINITION. Link ports and link dies: training, routes, credits, exports, control messages, quiesce (R362 to R393). -/

namespace Sys2Proof.Machine

def State.lport (s : State) (n : Nat) : LinkPort := mget s.links.ports n {}
def State.updLport (s : State) (n : Nat) (f : LinkPort → LinkPort) : State :=
  { s with links := { s.links with ports := mput s.links.ports n {} (f (s.lport n)) } }
def State.lstate (s : State) (n : Nat) : Nat := s.rd F.lnkStat_state n

/-- UP for routing (R377, R388). -/
def State.lup (s : State) (n : Nat) : Bool := s.lstate n == 5

/-- A port that an NG7212-A has not (R4). -/
def State.portFitted (s : State) (n : Nat) : Bool := !(s.is12 && (n == 2 || n == 3))

def State.panelId (s : State) : Nat := s.rd F.lnkCfg_panelId 0

/-- A packet for this panel; one without an identity is nobody's destination (R376). -/
def State.forMe (s : State) (p : SpanPkt) : Bool := p.dstPanel == s.panelId && s.panelId != 4095

/-! ### Words, credits, the choice of the next packet (R366, R369, R370) -/

/-- Link words of a packet. -/
def spanWords (p : SpanPkt) : Nat := 1 + ceilDiv (p.data.length - 32) 64

/-- Words reserved for an LVC, and the shared pool. -/
def lvcRoom (v : Nat) : Nat := if v < 4 then 256 else 512
def lvcShared : Nat := 25600

/-- Words sent on an LVC that the neighbour has not freed. -/
def LinkPort.owed (x : LinkPort) (v : Nat) : Nat := (mget x.sent v 0 + 65536 - mget x.credited v 0 % 65536) % 65536

/-- Room at the receiver for `w` more words of an LVC. -/
def LinkPort.room (x : LinkPort) (v w : Nat) : Bool :=
  decide (x.owed v + w ≤ lvcRoom v) ||
  decide (((List.range 16).map (fun u => x.owed u - lvcRoom u)).sum + w ≤ lvcShared)

/-- The first packet of a class that may go: in its LVC's order, with room. -/
def LinkPort.ready (x : LinkPort) (c : Nat) : Option SpanPkt :=
  x.txq.find? (fun p => p.lvc / 4 == c && x.room p.lvc (spanWords p) &&
    (x.txq.find? (fun q => q.lvc == p.lvc)) == some p)

def State.linkWeight (s : State) (c : Nat) : Nat :=
  max 1 (if c = 1 then s.rd F.fabArb_wTc1 0 else if c = 2 then s.rd F.fabArb_wTc2 0 else s.rd F.fabArb_wTc3 0)

/-- Deficit round robin over TC1 to TC3, in words: a class at its turn gains its weight and sends while its deficit covers the packet. -/
def State.drr (s : State) (x : LinkPort) : Nat → Option (SpanPkt × LinkPort)
  | 0 => none
  | fuel + 1 =>
    if [1, 2, 3].all (fun c => (x.ready c).isNone) then none
    else
      let c := x.turn
      let next := if c = 3 then 1 else c + 1
      match x.ready c with
      | none => s.drr { x with turn := next, deficit := mdel x.deficit c } fuel
      | some p =>
        let w := spanWords p
        let d := mget x.deficit c 0
        if w ≤ d then some (p, { x with deficit := mput x.deficit c 0 (d - w) })
        else s.drr { x with deficit := mput x.deficit c 0 (d + s.linkWeight c), turn := if w ≤ d + s.linkWeight c then c else next } fuel

/-- A port sends while it may: TC0 first (R366). A port that answers a quiesce sends nothing further (R388). -/
def State.pumpPort (s : State) (n : Nat) : Nat → State
  | 0 => s
  | fuel + 1 =>
    let x := s.lport n
    if !(s.lup n || (s.lstate n == 7 && x.quiescing)) || x.peerQuiesced || s.halted (linkIsland n) then s
    else
      let pick := match x.ready 0 with
        | some p => some (p, x)
        | none => s.drr x 1024
      match pick with
      | none => s
      | some (p, y) =>
        let sent := mget y.sent p.lvc 0
        let s1 := s.put (.span n { p with sent := sent })
        (s1.updLport n (fun _ => { y with txq := y.txq.erase p, sent := mput y.sent p.lvc 0 ((sent + spanWords p) % 65536) })).pumpPort n fuel

def pumpFuel : Nat := 4096

/-- A packet joins a port's queue. -/
def State.enqueue (s : State) (n : Nat) (p : SpanPkt) : State :=
  (s.updLport n (fun x => { x with txq := x.txq ++ [p] })).pumpPort n pumpFuel

/-- Words of an arrived packet leave the receive buffer; a credit word reports them. -/
def State.freeWords (s : State) (n v w : Nat) : State :=
  s.updLport n (fun x => { x with freed := mput x.freed v 0 ((mget x.freed v 0 + w) % 65536), unreported := true })

/-! ### Span packets on the mesh (R377) -/

/-- A span header, 32 bytes (R367). -/
def spanHead (p : SpanPkt) : List Byte :=
  leBytes 1 (p.lvc + 16 * p.kind) ++ leBytes 1 p.hops ++ leBytes 2 p.dstPanel ++ leBytes 2 p.srcPanel ++ leBytes 2 p.dstUnit ++
  leBytes 4 (p.dstOffset + 2 ^ 26 * p.ctr) ++ leBytes 1 (b2n p.ctrEn) ++ leBytes 1 0 ++ leBytes 2 p.data.length ++ leBytes 4 p.xid ++
  leBytes 2 p.chunk ++ leBytes 1 p.status ++ leBytes 1 0 ++ leBytes 2 p.sent ++ leBytes 6 0

def spanOf (b : List Byte) : SpanPkt :=
  let v := leNat (b.take 32)
  { lvc := bitsAt v 0 4, kind := bitsAt v 4 3, hops := bitsAt v 8 8, dstPanel := bitsAt v 16 12, srcPanel := bitsAt v 32 12, dstUnit := bitsAt v 48 9,
    dstOffset := bitsAt v 64 26, ctr := bitsAt v 90 6, ctrEn := v.testBit 96, xid := bitsAt v 128 32, chunk := bitsAt v 160 16, status := bitsAt v 176 8,
    data := b.drop 32 }

/-- Is it answer or other reply traffic (R369)? -/
def spanReply (p : SpanPkt) : Bool := p.lvc % 4 / 2 == 1

/-- Words that wait for tokens with a TC0 message are freed when it has been injected (R391). -/
def State.freeHeld (s : State) (d : Nat) : State :=
  let l := mget s.links.tc0Held d []
  let gone := l.take (l.length - (mget s.tc0Wait (514 + d) []).length)
  gone.foldl (fun s x => if x.2 = 0 then s else s.freeWords d x.1 x.2)
    { s with links := { s.links with tc0Held := mput s.links.tc0Held d [] (l.drop gone.length) } }

/-- A link die injects a TC0 message; what its bucket cannot cover waits, with the words that it holds in the receive buffer. -/
def State.dieTc0 (s : State) (d : Nat) (p : Packet) (v w : Nat) : State :=
  let n := (mget s.tc0Wait (514 + d) []).length
  let s1 := (s.freeHeld d).requestTc0 { src := .link d } p
  if n < (mget s1.tc0Wait (514 + d) []).length then
    let s2 := { s1 with links := { s1.links with tc0Held := mset s1.links.tc0Held d (mget s1.links.tc0Held d [] ++ [(v, w)]) } }
    if w = 0 then s2 else s2.cnt F.lnkCnt2_tc0Held d
  else if w = 0 then s1 else s1.freeWords d v w

/-- The link VC of a packet that leaves by port `n` (R378). -/
def State.lvcFor (s : State) (d n : Nat) (linked : Bool) (p : SpanPkt) : Nat :=
  let base := p.lvc / 2 * 2
  if s.on F.lnkPort_dateline n then base + 1
  else if linked && s.rd F.lnkPort_spanId d != s.rd F.lnkPort_spanId n then base else p.lvc

/-- The WRITE that carries a span packet from die `d` to die `n`. -/
def meshSpan (d n : Nat) (p : SpanPkt) : Packet :=
  { body := .write, cls := p.lvc / 4, reply := spanReply p, noack := spanReply p, span := true, dst := .link n, src := .link d,
    payload := spanHead p ++ p.data }

/-- A packet at die `d` goes to port `n`: to its own, or over the mesh to the die of that port. `linked`: its words are in the receive
buffer of `d`. -/
def State.toPort (s : State) (d n : Nat) (linked : Bool) (p0 : SpanPkt) : State :=
  let p := { p0 with lvc := s.lvcFor d n linked p0 }
  let w := spanWords p0
  let free (s : State) : State := if linked then s.freeWords d p0.lvc w else s
  if n = d then (free s).enqueue n p
  else
    let q := meshSpan d n p
    if q.cls = 0 then s.dieTc0 d q p0.lvc (if linked then w else 0)
    else if q.reply then (free s).send q
    else (free s).request { src := .link d } q

/-! ### Routes (R376 to R379) -/

inductive SpanRoute where | here | port (n : Nat) | hold | drop
  deriving DecidableEq, Repr

/-- The first matching row of R377. -/
def State.spanRoute (s : State) (d : Nat) (linked : Bool) (p : SpanPkt) : SpanRoute :=
  let r := p.dstPanel
  let pv := s.on F.lnkRoute_pValid r
  let av := s.on F.lnkRoute_aValid r
  let pri := s.rd F.lnkRoute_primary r
  let alt := s.rd F.lnkRoute_alternate r
  let pair := s.rd F.lnkPort_pair d
  let priUp := pv && s.lup pri
  let waits := pv && s.lstate pri == 6 && !(s.lport pri).failover
  if s.forMe p then .here
  else if !linked && s.panelId = 4095 then .drop
  else if priUp then .port pri
  else if waits then .hold
  else if av && s.lup alt then .port alt
  else if !pv && !av && linked && s.on F.lnkCfg_fwdEn 0 && s.lup pair then .port pair
  else .drop

/-- An export answer (R383). -/
def State.answerFor (s : State) (p : SpanPkt) (st : Nat) : SpanPkt :=
  { lvc := 10, kind := 1, hops := 63, dstPanel := p.srcPanel, srcPanel := s.panelId, xid := p.xid, chunk := p.chunk, status := st }

/-- Where a packet at die `d` goes. A packet that no row takes is discarded; a chunk is then answered, and an answer with no way is not. -/
def State.routeSpan (s : State) (d : Nat) (linked : Bool) (p : SpanPkt) : Nat → State
  | 0 => s
  | fuel + 1 =>
    match s.spanRoute d linked p with
    | .here =>
      if p.kind = 1 then
        let via := match mfind s.links.exports p.xid with | some x => x.die | none => d
        if via = d then s.updLport d (fun x => { x with arrived := x.arrived ++ [(p, linked)] })
        else s.toPort d via linked p
      else s.updLport d (fun x => { x with arrived := x.arrived ++ [(p, linked)] })
    | .port n => s.toPort d n linked p
    | .hold => s.updLport d (fun x => { x with held := x.held ++ [(p, linked)] })
    | .drop =>
      let s1 := (if linked then s.freeWords d p.lvc (spanWords p) else s).cnt F.lnkCnt2_unreach d
      if p.kind = 0 then s1.routeSpan d false (s.answerFor p 2) fuel else s1

/-- Packets that wait at port `n`, or are held for it anywhere, are examined again (R377, R385). -/
def State.reroute (s : State) (n : Nat) : State :=
  let q := (s.lport n).txq
  let s1 := q.foldl (fun s p => s.routeSpan n false p 2) (s.updLport n (fun x => { x with txq := [] }))
  (List.range 8).foldl (fun s d =>
    let h := (s.lport d).held
    h.foldl (fun s x => s.routeSpan d x.2 x.1 2) (s.updLport d (fun x => { x with held := [] }))) s1

/-! ### Link state (R372 to R375, R385) -/

/-- `STATE` changes, with its record; packets follow where the port leaves UP or comes back. -/
def State.setLink (s : State) (n st : Nat) : State :=
  let old := s.lstate n
  if old = st then s
  else
    let s1 := (s.wr F.lnkStat_state n st).bark 0x0014 { kind := .linkPort, num := n } [(24, old), (25, st)]
    if st = 5 then ((s1.wr F.lnkPort_retrain n 0).updLport n (fun x => { x with failover := false })).reroute n
    else if st = 6 then ((s1.cnt F.lnkCnt_retrains n).updLport n (fun x => { x with failover := false })).penalize (640 + n) 4096
    else if st = 2 then s1.updLport n (fun x =>
      { x with sent := [], rcvd := [], freed := [], credited := [], unreported := false, peerQuiesced := false, ackRcvd := false })
    else if st = 7 then s1
    else if 5 ≤ old && old ≤ 7 then s1.reroute n
    else s1

/-- A port with no failed lane it needs (R364): `none` where it fails; else its spares in use, and half width. -/
def State.lanesOk (s : State) (n : Nat) (f : LaneMap) : Option (Nat × Bool) :=
  let v := f.toNat
  let bad := popCount v 48
  let good := 52 - popCount v 52
  if bad ≤ 4 && (List.range bad).all (fun j => !bitAt v (48 + j)) then some (bad, false)
  else if 24 ≤ good && s.on F.lnkPort_halfOk n then some (0, true)
  else none

/-- The lane map is taken into use (R364, R504); nothing when the lanes do not suffice. -/
def State.useLanes (s : State) (n : Nat) (f : LaneMap) : Option State :=
  let s1 := s.wr F.lnkLane_failed n f.toNat
  match s.lanesOk n f with
  | none => none
  | some (k, half) =>
    let was := s.rd F.lnkStat_sparesRx n
    let s2 := (s1.wr F.lnkStat_sparesRx n k).wr F.lnkStat_half n (b2n half)
    some ((s2.penalize (640 + n) (8192 * (k - was))).penalize (640 + n) (if half then 65536 else 0))

def State.linkHalted (s : State) (n : Nat) : Bool := s.halted (linkIsland n)

/-- LINK_LIGHT_DETECT (R373). -/
def execLinkLightDetect (n : Fin 8) (s : State) : Out := .next (if s.lstate n = 1 && !s.linkHalted n then s.setLink n 2 else s)

/-- LINK_TRAIN_DONE (R364). -/
def execLinkTrainDone (n : Fin 8) (failedLanes : LaneMap) (s : State) : Out :=
  if s.lstate n != 2 || s.linkHalted n then .next s
  else match s.useLanes n failedLanes with
    | some s1 => .next (s1.setLink n 3)
    | none => .next ((s.wr F.lnkLane_failed n failedLanes.toNat).setLink n 9)

/-- The identity word that a port sends (R368). -/
def State.sendIdentity (s : State) (n : Nat) : State :=
  s.put (.control n 4 [s.panelId, n, s.rd F.lnkPort_dateline n, s.rd F.lnkPort_spanId n, s.rd F.idnSerial_serial 0])

/-- LINK_ALIGN_DONE (R365, R374). -/
def execLinkAlignDone (n : Fin 8) (s : State) : Out :=
  .next (if s.lstate n = 3 && !s.linkHalted n then (s.setLink n 4).sendIdentity n else s)

/-- The identity check of R374. -/
def State.checkIdentity (s : State) (n : Nat) (w : Identity) : State :=
  let bad := w.spanId != s.rd F.lnkPort_spanId n || w.dateline != s.on F.lnkPort_dateline n || (w.panelId == s.panelId && w.panelId != 4095) ||
    w.serial == s.rd F.idnSerial_serial 0
  if bad then (if s.lstate n = 8 then s else (s.setLink n 8).bark 0x0013 { kind := .linkPort, num := n } [(24, w.panelId)])
  else s.setLink n 5

/-- IDENTITY_WORD (R374). -/
def execIdentityWord (n : Fin 8) (w : Identity) (s : State) : Out :=
  if !(s.lstate n == 4 || s.lstate n == 8) || s.linkHalted n then .next s
  else
    let s1 := ((s.updLport n (fun x => { x with peer := some w })).wr F.lnkStat_peerPanel n w.panelId).wr F.lnkStat_peerPort n w.port
    .next (s1.checkIdentity n w)

/-- LINK_TRAIN_RETRY (R373). -/
def execLinkTrainRetry (n : Fin 8) (s : State) : Out :=
  .next (if between (s.lstate n) 2 4 && !s.linkHalted n then s.setLink n 1 else s)

/-- LINK_LOCK_LOSS (R375). -/
def execLinkLockLoss (n : Fin 8) (s : State) : Out := .next (if s.lup n && !s.linkHalted n then s.setLink n 6 else s)

/-- UNCORR_LIMIT_EXCEEDED (R375). -/
def execUncorrLimitExceeded (n : Fin 8) (s : State) : Out := .next (if s.lup n && !s.linkHalted n then s.setLink n 6 else s)

/-- RETRAIN_DONE (R375). -/
def execRetrainDone (n : Fin 8) (failedLanes : LaneMap) (s : State) : Out :=
  if s.lstate n != 6 || s.linkHalted n then .next s
  else match s.useLanes n failedLanes with
    | some s1 => .next (s1.setLink n 5)
    | none => .next ((s.wr F.lnkLane_failed n failedLanes.toNat).setLink n 9)

/-- LINK_LIGHT_LOST (R375). -/
def execLinkLightLost (n : Fin 8) (s : State) : Out := .next (if s.lstate n = 0 || s.linkHalted n then s else s.setLink n 1)

/-- A write to `LNK_PORT_n` (R373 to R375, R393). -/
def State.wrLnkPort (s : State) (n v m : Nat) : State :=
  let was := s.on F.lnkPort_en n
  if s.newFld F.lnkPort_en n v m != 0 && !s.portFitted n then s.refuseReg .lnkPort n
  else
    let s1 := s.storeReg .lnkPort n v m
    let now := s1.on F.lnkPort_en n
    if now && !was then (s1.setLink n 1).put (.lasers n true)
    else if was && !now then (s1.setLink n 0).put (.lasers n false)
    else
      let s2 := if s1.lstate n = 8 then
          (match (s1.lport n).peer with
            | some w => (s1.sendIdentity n).checkIdentity n w
            | none => s1.sendIdentity n) else s1
      if bitAt v 18 && bitAt m 18 && s2.lup n then (s2.wr F.lnkPort_retrain n 1).setLink n 6 else s2

/-- LNK_PORT_WRITE (R393). -/
def execLnkPortWrite (port : Fin 2) (n : Fin 8) (value : BitVec 64) (s : State) : Out :=
  s.bar port .unit (fun s => s.wrLnkPort n value.toNat fullMask)

/-- LNK_RETRAIN_REQUEST (R375). -/
def execLnkRetrainRequest (port : Fin 2) (n : Fin 8) (s : State) : Out :=
  s.bar port .unit (fun s => if s.lup n then (s.wr F.lnkPort_retrain n 1).setLink n 6 else s)

/-- A write to `LNK_BIND_j` (R380). -/
def State.wrLnkBind (s : State) (j v m : Nat) : State :=
  let a := s.newFld F.lnkBind_array j v m
  let e := s.newFld F.lnkBind_ep j v m
  if s.newFld F.lnkBind_valid j v m != 0 && (s.fieldBind a e).isSome then s.bark 0x0007 { kind := .array, num := a } [(24, j)]
  else s.storeReg .lnkBind j v m

/-- LNK_BIND_WRITE (R380). -/
def execLnkBindWrite (port : Fin 2) (j : Fin 256) (value : BitVec 64) (s : State) : Out :=
  s.bar port .unit (fun s => s.wrLnkBind j value.toNat fullMask)

/-- FAILOVER_TIMEOUT (R377). -/
def execFailoverTimeout (n : Fin 8) (s : State) : Out :=
  if s.lstate n != 6 || s.linkHalted n then .next s
  else .next ((s.updLport n (fun x => { x with failover := true })).reroute n)

/-! ### Received words (R367 to R371) -/

/-- A head word's accounting: words that were lost before it are freed at once, its own are received (R370). -/
def State.headWord (s : State) (n : Nat) (p : SpanPkt) : State :=
  let x := s.lport n
  let lost := (p.sent + 65536 - mget x.rcvd p.lvc 0) % 65536
  let s1 := s.updLport n (fun x => { x with rcvd := mput x.rcvd p.lvc 0 ((p.sent + spanWords p) % 65536) })
  if lost = 0 then s1 else s1.freeWords n p.lvc lost

/-- Codewords that the FEC has corrected are counted, and weigh on the die's health (R371, R504). -/
def State.corrected (s : State) (n k : Nat) : State := if k = 0 then s else (s.cnt F.lnkCnt_corrCw n k).penalizeFine (640 + n) k

/-- SPAN_HEAD_WORD (R367, R370, R376, R377): a packet, and the codewords corrected since the last one. A sit word is the sit engine's own
row. -/
def execSpanHeadWord (n : Fin 8) (w : SpanWord) (s : State) : Out :=
  let p := w.pkt
  if !(s.lup n || s.lstate n == 7) || s.linkHalted n || 15 < p.lvc || 2048 < p.data.length then .next s
  else
    let s1 := (s.corrected n w.corrected).headWord n p
    let free (s : State) : State := s.freeWords n p.lvc (spanWords p)
    .next (if !p.reservedZero || 5 ≤ p.kind then (free s1).cnt F.lnkCnt2_lost n
      else if (p.kind = 3 && p.data == []) || p.kind = 4 then free s1
      else if p.hops = 0 then
        let s2 := (free s1).cnt F.lnkCnt2_hopsExpired n
        if p.kind = 0 then s2.routeSpan n false (s2.answerFor p 2) 2 else s2
      else s1.routeSpan n true { p with hops := p.hops - 1 } 2)

/-- UNCORRECTABLE_CODEWORD (R371, R504): `lost` is a packet whose head word arrived. -/
def execUncorrectableCodeword (n : Fin 8) (lost : Option SpanPkt) (s : State) : Out :=
  if s.lstate n < 4 || s.lstate n = 8 || s.lstate n = 9 || s.linkHalted n then .next s
  else
    let s1 := (s.cnt F.lnkCnt_uncorrCw n).penalize (640 + n) 64
    match lost with
    | none => .next s1
    | some p =>
      let s2 := (((s1.headWord n p).freeWords n p.lvc (spanWords p))).cnt F.lnkCnt2_lost n
      .next (if p.kind = 0 then s2.routeSpan n false (s2.answerFor p 3) 2 else s2)

/-- CREDIT_WORD_TIMER (R368). -/
def execCreditWordTimer (n : Fin 8) (s : State) : Out :=
  let s1 := s.freeHeld n
  let x := s1.lport n
  if !x.unreported || !(s.lup n || s.lstate n == 7) || s.linkHalted n then .next s
  else .next ((s1.updLport n (fun x => { x with unreported := false })).put (.control n 0 ((List.range 16).map (fun v => mget x.freed v 0))))

/-- CREDIT_RESYNC_TIMER (R370). -/
def execCreditResyncTimer (n : Fin 8) (lvc : Fin 16) (s : State) : Out :=
  let x := s.lport n
  if !s.lup n || s.linkHalted n || x.owed lvc = 0 then .next s
  else
    let sent := mget x.sent lvc 0
    .next ((s.updLport n (fun x => { x with sent := mput x.sent lvc 0 ((sent + 1) % 65536) })).put
      (.span n { lvc := lvc, kind := 3, srcPanel := s.panelId, sent := sent }))

/-- DELAY_PROBE (R368, R392). How the round trip follows from a probe is not stated, so its value is free (log entry 3). -/
def execDelayProbe (n : Fin 8) (peerTime echoed : Nat) (s : State) : Out :=
  if s.lstate n != 5 || s.linkHalted n then .next s
  else
    let s1 := s.updLport n (fun x => { x with probe := peerTime })
    if echoed = 0 then .next s1
    else
      let (f, s2) := s1.drawFree
      .next (s2.wr F.lnkStat_rttNs n f)

/-- DELAY_PROBE_TIMER (R368). -/
def execDelayProbeTimer (n : Fin 8) (s : State) : Out :=
  if s.lstate n != 5 || s.linkHalted n then .next s else .next (s.put (.control n 3 [s.now, (s.lport n).probe]))

/-! ### Quiesce (R387, R388) -/

/-- QUIESCE_WORD (R388): routed round, answered, and nothing further sent. -/
def execQuiesceWord (n : Fin 8) (panelId : Nat) (s : State) : Out :=
  if !(s.lup n || s.lstate n == 7) || (s.lport n).peerQuiesced || s.linkHalted n then .next s
  else
    let s1 := (((s.updLport n (fun x => { x with peerQuiesced := true })).setLink n 7).reroute n).put (.control n 2 [s.panelId])
    .next (s1.wr F.lnkStat_peerPanel n panelId)

/-- Steps 1 and 2 of R387. -/
def State.quiesceLinks (s : State) : State :=
  let s1 := { s with links := { s.links with accepting := false } }
  ((List.range 8).filter s1.lup).foldl (fun s n =>
    ((s.put (.control n 1 [s.panelId])).updLport n (fun x => { x with quiescing := true })).setLink n 7) s1

/-! ### Exports (R380 to R383) -/

/-- A packet reaches a link die. -/
def State.atLink (s : State) (p : Packet) (k : Nat → State → State) : Out :=
  s.arrive p (fun s1 =>
      match p.dst with
      | .link d =>
        if !classOk p then s1.absorb (linkHome d) p 6
        else if p.bad then s1.nack p 3
        else k d s1
      | _ => s1.nack p 6)

/-- Chunk `c` of an export: offset from its start, and length (R382). -/
def chunkSpan (dstOff len c : Nat) : Nat × Nat :=
  let first := 2048 - dstOff % 2048
  let lo := if c = 0 then 0 else first + 2048 * (c - 1)
  let hi := min len (first + 2048 * c)
  (lo, hi - lo)

def chunkCount (dstOff len : Nat) : Nat := ceilDiv (dstOff % 2048 + len) 2048

/-- The reads of a chunk: they are cut where a READ_REQ must be. -/
def chunkReads (x : Export) (c : Nat) : List (Nat × Nat × Nat) :=
  let p := chunkSpan x.dstOff x.len c
  (readCuts (x.src + p.1) 3 0 p.2)

/-- EXPORT_START (R381, R382): the descriptor was checked where the SEND was issued. -/
def execExportStart (d : Fin 8) (pkt : Packet) (s : State) : Out :=
  match pkt.body, pkt.src, pkt.dst with
  | .channelItem .., .tile a, .link d' =>
    if d' != d.val then .next s
    else s.atLink pkt (fun d s =>
      if !s.links.accepting || s.panelId = 4095 then s.nack pkt 2
      else
        let v := leNat pkt.payload
        let n := chunkCount (bitsAt v 96 26) (bitsAt v 32 32)
        let x : Export := { die := d, item := pkt, array := a, src := bitsAt v 0 32, len := bitsAt v 32 32, dstPanel := bitsAt v 64 12,
                            dstArray := bitsAt v 80 9, dstOff := bitsAt v 96 26, ctr := bitsAt v 122 6, ctrEn := v.testBit 128, open_ := List.range n }
        let id := s.links.nextXid
        let s1 := { s with links := { s.links with exports := mset s.links.exports id x, nextXid := (id + 1) % 2 ^ 32 } }
        (List.range n).foldl (fun s c => (chunkReads x c).foldl (fun s r =>
          s.request { src := .link d, flight := id, loc := c * 4096 + r.2.2 }
            { body := .readReq r.2.1, dst := .tile a, src := .link d, off := r.1 }) s) s1)
  | _, _, _ => .next s

/-- A chunk of an export is answered; the SEND is answered with the first failure once every chunk is (R383). -/
def State.chunkAnswered (s : State) (id c st : Nat) : State :=
  match mfind s.links.exports id with
  | none => s
  | some x =>
    if !x.open_.contains c then s
    else
      let y := { x with open_ := x.open_.erase c, firstFail := if x.firstFail = 0 then st else x.firstFail }
      if y.open_ == [] then
        let s1 := { s with links := { s.links with exports := mdel s.links.exports id } }
        if y.firstFail = 0 then s1.ack x.item else s1.nack x.item y.firstFail
      else { s with links := { s.links with exports := mset s.links.exports id y } }

/-- Data that a link die has read for a chunk; a chunk with all its data is sent (R382). A failed read fails the chunk. -/
def State.exportRead (s : State) (id loc st : Nat) (bytes : List Byte) : State :=
  let c := loc / 4096
  match mfind s.links.exports id with
  | none => s
  | some x =>
    if st != 0 then s.chunkAnswered id c st
    else
      let pieces := mset x.pieces loc bytes
      let parts := (chunkReads x c).map (fun r => mfind pieces (c * 4096 + r.2.2))
      if parts.any Option.isNone || !x.open_.contains c then
        { s with links := { s.links with exports := mset s.links.exports id { x with pieces := pieces } } }
      else
        let data := (parts.filterMap (fun b => b)).flatten
        let y := { x with pieces := pieces.filter (fun p => p.1 / 4096 != c), sent := x.sent ++ [c] }
        let s1 := { s with links := { s.links with exports := mset s.links.exports id y } }
        s1.routeSpan x.die false
          { lvc := 8, kind := 0, hops := 63, dstPanel := x.dstPanel, srcPanel := s.panelId, dstUnit := x.dstArray, dstOffset := x.dstOff + (chunkSpan x.dstOff x.len c).1,
            ctr := x.ctr, ctrEn := x.ctrEn, xid := id, chunk := c, data := data } 2

/-- Take a packet that has arrived at die `d`; its words leave the receive buffer. -/
def State.takeArrived (s : State) (d : Nat) (p : SpanPkt) (k : State → State) : Out :=
  match (s.lport d).arrived.find? (fun x => x.1 == p) with
  | none => .next s
  | some x =>
    if s.linkHalted d then .next s
    else
      let s1 := s.updLport d (fun y => { y with arrived := y.arrived.erase x })
      .next (k (if x.2 then s1.freeWords d p.lvc (spanWords p) else s1))

/-- EXPORT_CHUNK (R382): one TC2 WRITE, answered when the tile has answered it. -/
def execExportChunk (d : Fin 8) (p : SpanPkt) (s : State) : Out :=
  if p.kind != 0 then .next s
  else s.takeArrived d p (fun s =>
    let tag := s.nextTag
    let s1 := s.request { src := .link d }
      { body := .write, span := true, dst := .tile p.dstUnit, src := .link d, off := p.dstOffset, ctr := p.ctr, ctrEn := p.ctrEn, payload := p.data }
    { s1 with links := { s1.links with chunkWait := mset s1.links.chunkWait tag p } })

/-- The tile has answered a chunk's WRITE at die `d`. -/
def State.chunkWritten (s : State) (d tag st : Nat) : State :=
  match mfind s.links.chunkWait tag with
  | none => s
  | some p => ({ s with links := { s.links with chunkWait := mdel s.links.chunkWait tag } }).routeSpan d false (s.answerFor p st) 2

/-- EXPORT_ANSWER (R383). -/
def execExportAnswer (d : Fin 8) (p : SpanPkt) (s : State) : Out :=
  if p.kind != 1 then .next s else s.takeArrived d p (fun s => s.chunkAnswered p.xid p.chunk p.status)

/-- SPAN_TMO_EXPIRE (R383): a chunk that was sent and is still unanswered counts as unreachable. -/
def execSpanTmoExpire (d : Fin 8) (xid chunk : Nat) (s : State) : Out :=
  match mfind s.links.exports xid with
  | none => .next s
  | some x => if x.die != d.val || !x.sent.contains chunk || s.linkHalted d then .next s else .next (s.chunkAnswered xid chunk 2)

/-! ### Control messages (R380, R384) -/

/-- LNK_CONTROL_ACCEPT (R380): the source array travels with the message, in `XID`. -/
def execLnkControlAccept (d : Fin 8) (pkt : Packet) (s : State) : Out :=
  match pkt.body, pkt.src, pkt.dst with
  | .setpoint e, .tile a, .link d' =>
    if d' != d.val then .next s
    else s.atLink pkt (fun d s =>
      match s.linkBind a e with
      | none => s.nack pkt 1
      | some j =>
        if s.rd F.lnkBind_kind j != 1 || s.rd F.lnkBind_via j != d || s.epRole a e != 1 || 992 < pkt.payload.length then s.nack pkt 1
        else if !s.links.accepting then s.nack pkt 2
        else
          let p : SpanPkt := { lvc := 0, kind := 2, hops := 63, dstPanel := s.rd F.lnkBind_dstPanel j, srcPanel := s.panelId,
                               dstUnit := s.rd F.lnkBind_dstEntry j, xid := a, data := pkt.payload }
          match s.spanRoute d false p with
          | .drop => (s.cnt F.lnkCnt2_unreach d).nack pkt 2
          | .port n =>
            -- a message that its bucket can never cover is absorbed (R321)
            let st := if n = d then 0 else s.tc0Nack (514 + d) (meshSpan d n { p with lvc := s.lvcFor d n false p })
            if st = 2 then (s.cnt F.admShape_denied (514 + d)).nack pkt 2
            else if st != 0 then s.absorb (linkHome d) pkt st
            else (s.ack pkt).routeSpan d false p 2
          | _ => (s.ack pkt).routeSpan d false p 2)
  | _, _, _ => .next s

/-- SPAN_CONTROL_MESSAGE (R384, R391). -/
def execSpanControlMessage (d : Fin 8) (p : SpanPkt) (s : State) : Out :=
  match (s.lport d).arrived.find? (fun x => x.1 == p) with
  | none => .next s
  | some x =>
    if p.kind != 2 || s.linkHalted d then .next s
    else
      let s1 := s.updLport d (fun y => { y with arrived := y.arrived.erase x })
      let i := d.val * 64 + p.dstUnit % 64
      let w := if x.2 then spanWords p else 0
      if !s1.on F.lnkIn_valid i then .next ((if w = 0 then s1 else s1.freeWords d p.lvc w).cnt F.lnkCnt2_unreach d)
      else
        let n := mget s1.links.inCount i 0
        let head := leBytes 2 p.srcPanel ++ leBytes 2 p.xid ++ leBytes 2 p.data.length ++ leBytes 2 0 ++ leBytes 8 s.now ++ leBytes 16 0
        let q : Packet := { body := .setpoint (p.dstUnit % 64), cls := 0, dst := .tile (s1.rd F.lnkIn_array i), src := .link d,
                            off := inSlot (s1.rd F.lnkIn_ringBase i) (s1.rd F.lnkIn_nslots i) n, ctr := s1.rd F.lnkIn_ctr i, ctrEn := true,
                            payload := head ++ p.data }
        .next ({ s1 with links := { s1.links with inCount := mset s1.links.inCount i (n + 1) } }.dieTc0 d q p.lvc w)

/-- A WRITE of a span packet reaches the die of its port (R377): it waits there, or is routed again. An answer for this panel's exports has
reached its `VIA`. -/
def State.linkWrite (s : State) (d : Nat) (pkt : Packet) : State :=
  let p := spanOf pkt.payload
  let s1 := if pkt.reply then s else s.ack pkt
  if s.forMe p then s1.updLport d (fun x => { x with arrived := x.arrived ++ [(p, false)] })
  else if s.lup d || s.lstate d == 6 then s1.enqueue d p
  else s1.routeSpan d false p 2

end Sys2Proof.Machine
end

