-- ==== Sys2Proof/Machine/Sit.lean ====
section
/-! DEFINITION. Sit: raising and ending it, the stop and the restart of islands, span-wide sit, read-out (R537 to R549, R555, R556), and the
stop of the south half's islands (R479). -/

namespace Sys2Proof.Machine

def State.setSit (s : State) (f : SitState → SitState) : State := { s with sit := f s.sit }

def unitNum (u : UnitId) : Nat := kindNum u.kind * 4096 + u.num % 4096

def numUnit (v : Nat) : UnitId :=
  { kind := match v / 4096 with
      | 0 => .array | 1 => .pack | 2 => .fieldDie | 3 => .hostDie | 4 => .linkPort | 5 => .mgmtDie | 6 => .routerSite | 7 => .island | _ => .panel
    num := v % 4096 }

/-! ### Raising and ending (R537, R538, R556) -/

/-- A sit-raised record; in freeze-all MN writes it at resume. `ORIGIN` is this panel's number unless a span word raised the sit. -/
def State.sitRecord (s : State) (ended : Bool) : State :=
  let origin := if s.rd F.monSitStat_source 0 = 5 then s.sit.spanOrigin else s.panelId
  let detail := [(24, s.rd F.monSitStat_source 0), (25, b2n s.sit.all + 2 * b2n ended), (26, origin), (28, s.rd F.monSitStat_sitId 0),
    (32, s.sit.raisedAt)] ++ (if ended then [(40, s.now - s.sit.raisedAt)] else [])
  if s.sit.all && !ended then
    s.setSit (fun x => { x with pendingRecs := x.pendingRecs ++ [{ code := 0x40, time := s.now, detail := detail }] })
  else s.bark 0x0040 {} detail

/-- MN broadcasts the SIT packet (R539). -/
def State.sitPacket (s : State) (all : Bool) : State :=
  s.sendTc0 { body := .sit all, cls := 0, noack := true, dst := .broadcast, src := .mgmt 0 }

/-- Every island runs again, in spine mode (R542); deferred work proceeds; after freeze-all the host ports come back as from a link-down. A
read-out that still runs is dropped, and `MON_RO_CMD` stands as it is (DESIGN CHOICE, log entry 99). -/
def State.sitGo (s : State) : State :=
  let wasAll := s.sit.stopped.contains 1228
  let s1 := s.each s.sit.pendingRecs (fun s r => s.issue 0 r.code r.unit r.detail 1 r.time)
  let s2 := s1.sitRecord true
  let stopped := s2.sit.stopped
  let s3 := { s2.setSit (fun x => { x with stopped := [], told := [], all := x.pinLow && x.pinAll, pendingRecs := [],
                                           bySpan := false }) with
    net := s2.net.filter (fun p => match p.body with | .sit _ => false | _ => true) }
  let s4 := (s3.each stopped State.toSpine).wr F.monSitStat_state 0 0
  let s5 := if wasAll then (s4.resetPort 0).resetPort 1 else s4
  let s6 := s5.each (List.range 64) State.substGo
  let s7 := { s6 with mon := { s6.mon with ro := { s6.mon.ro with running := false } } }
  s7.runDeferred.halfGo

/-- Sit is raised, or a further source asks for it (R537, R538). -/
def State.raiseSit (s : State) (source : Nat) (all : Bool) : State :=
  let s0 := if s.rd F.monSitStat_state 0 = 3 then s.sitGo else s
  let s1 := s0.wr F.monSitStat_source 0 source
  if !s1.inSit then
    let s2 := (s1.wr F.monSitStat_state 0 1).cntW F.monSitStat_sitId 0
    ((s2.setSit (fun x => { x with all := all, raisedAt := s2.now, stopped := [], told := [] })).sitRecord false).sitPacket all
  else if all && !s1.sit.all then (s1.setSit (fun x => { x with all := true })).sitPacket true
  else s1

/-- The latch is set. A span word remembers that it set the latch (R545). -/
def State.setLatch (s : State) (source : Nat) (all : Bool) (span : Option (Nat × Nat)) : State :=
  let s1 := s.setSit (fun x => match span with
    | some w => if x.latch then x else { x with latch := true, bySpan := true, spanOrigin := w.1, spanId := w.2 }
    | none => { x with latch := true, bySpan := if x.latch then x.bySpan else false })
  (s1.wr F.monSitStat_latch 0 1).raiseSit source all

/-- Sit ends when nothing holds it. -/
def State.endSit (s : State) : State :=
  if s.sit.latch || s.sit.pinLow || s.rd F.monSitStat_state 0 = 0 then s else s.wr F.monSitStat_state 0 3

def State.clearLatch (s : State) : State :=
  ((s.setSit (fun x => { x with latch := false, bySpan := false })).wr F.monSitStat_latch 0 0).endSit

/-! ### Span-wide sit (R544, R545) -/

/-- A die's engine keeps the last 16 keys. -/
def State.keepKey (s : State) (d : Nat) (k : Nat × Nat × Nat) : State :=
  { s with links := { s.links with sitKeys := mset s.links.sitKeys d ((k :: mget s.links.sitKeys d []).take 16) } }

/-- Send a sit word on every UP port but one, where `SPAN_OUT` is set. -/
def State.sitForward (s : State) (w : SitWord) (but : Nat) : State :=
  if !s.on F.monSitCfg_spanOut then s
  else s.each ((List.range 8).filter (fun m => m != but && s.lup m)) (fun s m => s.put (.sitWord m w))

/-- The panel originates a sit word; one that ends a sit names the raise that it ends. A panel with no identity originates nothing
(R376). -/
def State.sitOriginate (s : State) (op : Nat) (all : Bool) : State :=
  if s.panelId = 4095 then s
  else
    let n := s.links.spanSits + 1
    let s1 := if op = 0 then { s.setSit (fun x => if x.bySpan then x else { x with spanOrigin := s.panelId, spanId := n }) with
      links := { s.links with spanSits := n } } else s
    let w : SitWord := { op := op, all := all, origin := if op = 0 then s.panelId else s1.sit.spanOrigin,
                         sitId := if op = 0 then n else s1.sit.spanId, tOrigin := s1.now }
    (s1.each (List.range 8) (fun s d => s.keepKey d (w.origin, w.sitId, op))).sitForward w 8

/-- SIT_WORD (R545). The engine runs through sit. -/
def execSitWord (n : Fin 8) (w : SitWord) (s : State) : Out :=
  let k := (w.origin, w.sitId, w.op)
  if !s.lup n || 1 < w.op || (mget s.links.sitKeys n []).contains k then .next s
  else
    let s1 := (s.keepKey n k).sitForward w n
    .next (if !s1.on F.monSitCfg_spanInEn then s1
      else if w.op = 0 then s1.setLatch 5 w.all (some (w.origin, w.sitId))
      else if s1.sit.latch && s1.sit.bySpan && s1.sit.spanOrigin == w.origin && s1.sit.spanId == w.sitId then s1.clearLatch
      else s1)

/-! ### The sources (R537) -/

/-- SIT_PIN_LOW (R537). -/
def execSitPinLow (s : State) : Out :=
  if s.sit.pinLow then .next s
  else
    let all := s.on F.monSitCfg_pinAll
    .next (((s.setSit (fun x => { x with pinLow := true, pinAll := all })).wr F.monSitStat_pin 0 1).raiseSit 0 all)

/-- SIT_PIN_HIGH (R537). -/
def execSitPinHigh (s : State) : Out :=
  if !s.sit.pinLow then .next s
  else .next (((s.setSit (fun x => { x with pinLow := false })).wr F.monSitStat_pin 0 0).endSit)

/-- Raise from a source that sets the latch, with a sit word where it asks for one. -/
def State.latchRaise (s : State) (source : Nat) (all span : Bool) : State :=
  let s1 := if span then s.sitOriginate 0 all else s
  s1.setLatch source all none

/-- Resume from a source that clears the latch. -/
def State.latchResume (s : State) (span : Bool) : State := (if span then s.sitOriginate 1 false else s).clearLatch

/-- MON_SIT_RAISE (R537). -/
def execMonSitRaise (port : Fin 2) (all span : Bool) (s : State) : Out := s.bar port .mon (fun s => s.latchRaise (1 + port) all span)

/-- MON_SIT_RESUME (R537). -/
def execMonSitResume (port : Fin 2) (span : Bool) (s : State) : Out := s.bar port .mon (fun s => s.latchResume span)

/-! ### Stopping and restarting islands (R479, R539, R542) -/

/-- SIT_PACKET (R539): the island has received the broadcast. -/
def execSitPacket (i : Fin 1230) (pkt : Packet) (s : State) : Out :=
  match pkt.body with
  | .sit _ => .next (if s.islandHears pkt i && !s.halted i && !s.sit.told.contains i then s.setSit (fun x => { x with told := x.told ++ [i.val] }) else s)
  | _ => .next s

/-- MN and the host dies, which go on in freeze-fabric and stop last in freeze-all. -/
def stopsLast (i : Nat) : Bool := decide (1226 ≤ i) && decide (i ≤ 1228)

/-- Every other island that MN can reach has stopped: the panel is in freeze-fabric. -/
def State.sitStopped (s : State) : State :=
  if s.rd F.monSitStat_state 0 = 1 &&
      (List.range Config.nIslands).all (fun i => stopsLast i || s.halted i || !(islandSites i).any (s.reaches (mgmtHome 0))) then s.wr F.monSitStat_state 0 2 else s

/-- An island stops for sit. A host die's link goes down with it, and `PPS_OUT` goes low with MN (R540). -/
def State.sitStop (s : State) (i : Nat) : State :=
  let s1 := s.setSit (fun x => { x with stopped := x.stopped ++ [i] })
  if i = 1226 || i = 1227 then s1.updPort (i - 1226) (fun x => { x with linkUp := false })
  else if i = 1228 then { s1 with pins := { s1.pins with ppsOut := false } }
  else s1.sitStopped

/-- Islands of the south half. -/
def southIslands : List Nat := southPacks.flatMap packIslands

/-- An island stops for `PRT_HALF`; with the last one the half is stopped (R479). -/
def State.halfStopOne (s : State) (i : Nat) : State :=
  let s1 := if s.halted i then s else { s.runIsland i false with boot := { s.boot with halfStopped := s.boot.halfStopped ++ [i] } }
  if southIslands.all s1.halted then
    ((s1.wr F.prtHalf_state 0 2).wr F.prtHalf_stop 0 0).bark 0x0043 {} [(24, 1), (25, 2)]
  else s1

/-- ISLAND_SAFE_STOP (R479, R539). -/
def execIslandSafeStop (i : Fin 1230) (s : State) : Out :=
  let st := s.rd F.monSitStat_state 0
  if st = 1 || st = 2 then
    .next (if s.halted i then s
      else if stopsLast i then (if st = 2 && s.sit.all then s.sitStop i else s)
      else if st = 1 && s.sit.told.contains i then s.sitStop i else s)
  else if st = 0 && s.rd F.prtHalf_state 0 = 1 && southIslands.contains i then .next (s.halfStopOne i)
  else .next s

/-- SIT_RESUME (R542). -/
def execSitResume (s : State) : Out := .next (if s.rd F.monSitStat_state 0 = 3 then s.sitGo else s)

/-! ### Read-out (R546 to R549) -/

/-- In sit, freeze-fabric, with every island stopped that stops. -/
def State.freezeFabric (s : State) : Bool := s.rd F.monSitStat_state 0 == 2 && !s.sit.all

/-- The byte as the banks hold it, and whether its word fails its check: any flip under SECDED64, else the byte's parity. -/
def State.storedByte (s : State) (site addr : Nat) : Byte :=
  Memory.read s.mem (cellKey site addr) ^^^ BitVec.ofNat 8 (bitsAt (s.flip site (addr / 8)) (8 * (addr % 8)) 8)

/-- Words of a range whose check bits fail, by the protection of the region that holds each word. -/
def State.failWords (s : State) (a site addr len : Nat) : List Nat :=
  (List.range (len / 8)).map (· + addr / 8) |>.filter (fun w =>
    let f := s.flip site w
    match s.region a (8 * w) 8 with
    | some n => if s.rd F.tmRgn_prot (a * 16 + n) = 1 then f != 0 else (List.range 8).any (parityBad f)
    | none => (List.range 8).any (parityBad f))

/-- Registers of a unit in offset order, for space 11: those of R426 that are numbered by the unit, each at its own width (R548; log entry 59). -/
def unitRegs (k : UnitKind) (n : Nat) : List (Reg × Nat) :=
  let run (r : Reg) (i c : Nat) : List (Reg × Nat) := (List.range c).map (fun j => (r, i + j))
  match k with
  | .array => [(.arrFlags, n), (.tmCtrSat, n), (.tmErrCnt, n), (.tmErrLog, n), (.tmErrThresh, n), (.tmDeny, n), (.chCfg, n)] ++
      run .tmRgn (n * 16) 16 ++ run .tmCtr (n * 64) 64 ++ run .chEp (n * 64) 64 ++ run .chEpState (n * 64) 64 ++ run .chEpCnt (n * 64) 64
  | .pack => [(.pwrPack, n), (.pwrPackStat, n), (.thmHub, n), (.hubCfg, n), (.hubState, n), (.hubErrCnt, n), (.hubErrCnt2, n), (.hubErrLog, n),
      (.hubErrTime, n), (.hubHits, n), (.hubMisses, n), (.hubPfUsed, n), (.hubPfWasted, n), (.hubTemp, n), (.fltReserve, n)]
  | .fieldDie => run .fldPort (4 * n) 4 ++ run .fldMac (4 * n) 4 ++ run .fldPortStat (4 * n) 4 ++ run .fldPortCnt (4 * n) 4 ++
      run .fldSptCnt (4 * n) 4 ++ [(.fldErr, n), (.fldInCnt, n), (.fldKeyCmd, n)] ++ run .fldKeyStage (n * 8) 8 ++ run .fldKeyId (n * 64) 64 ++
      run .fldStrm (n * 256) 256 ++ run .fldFifo (n * 32) 32 ++ run .fldFifoStat (n * 32) 32 ++ run .fldIn (n * 64) 64 ++ run .fldInSeq (n * 64) 64 ++
      run .fldTgt (n * 1024) 1024 ++ run .fldTgt2 (n * 1024) 1024
  | .hostDie => [(.hifCfg, n), (.hifStat, n), (.hifErr, n), (.rngDbBase, n), (.rngDbCfg, n)] ++ run .rngSqBase (n * 256) 256 ++
      run .rngSqCfg (n * 256) 256 ++ run .rngSqStat (n * 256) 256 ++ run .rngCqBase (n * 128) 128 ++ run .rngCqCfg (n * 128) 128 ++
      run .rngCqStat (n * 128) 128
  | .linkPort => [(.lnkPort, n), (.lnkStat, n), (.lnkLane, n), (.lnkCnt, n), (.lnkCnt2, n)] ++ run .lnkIn (n * 64) 64
  | .routerSite => [(.thmTile, n), (.thmRaw, n), (.fabRtrCnt, n), (.fltHealth, n)]
  | .island => [(.clkIsl, n), (.clkMargin, n)]
  | _ => []

def padTo64 (b : List Byte) : List Byte := b ++ List.replicate ((64 - b.length % 64) % 64) 0

/-- Bytes of a space as stored, where the spec gives what they are. -/
def State.spaceBytes (s : State) (u : UnitId) (space off len : Nat) : Option (List Byte) :=
  match space, u.kind with
  | 0, .array => some ((List.range len).map (fun j => s.storedByte (s.siteOf u.num) (off + j)))
  | 1, .array =>
    let half (h : AccHalf) : List Byte := (List.range 256).flatMap (fun r =>
      (if h.tag == .fp64 then (mget h.rows r []).flatMap (leBytes 8) else (mget h.rows r []).flatMap (leBytes 4)))
    let pad (b : List Byte) : List Byte := (b ++ List.replicate (262144 - b.length) 0).take 262144
    some (((pad (half (s.arr u.num).accA) ++ pad (half (s.arr u.num).accB)).drop off).take len)
  | 5, .array => some (padTo64 ((List.range 64).flatMap (fun e => leBytes 8 (s.rdReg .chEpState (u.num * 64 + e)))))
  | 11, k => match unitRegs k u.num with
    | [] => none
    | l => some (padTo64 (l.flatMap (fun r => leBytes (regPlace r.1).bytes (s.rdReg r.1 r.2))))
  | _, _ => none

/-- Spaces that a unit has (R548). -/
def unitSpaces : UnitKind → List Nat
  | .array => [0, 1, 2, 3, 4, 5, 11]
  | .pack => [7, 8, 11]
  | .fieldDie => [10, 11]
  | .linkPort => [9, 11]
  | .routerSite => [6, 11]
  | _ => [11]

/-- Bytes of a space. -/
def State.spaceLen (s : State) (u : UnitId) (space : Nat) : Nat :=
  match space with
  | 0 => 67108864
  | 1 => 524288
  | 2 => 131072
  | _ => match s.spaceBytes u space 0 0 with
    | some b => b.length
    | none => 64 * (1 + Config.roUnits (kindNum u.kind) u.num space)

/-- Units of the panel, by kind and number; vacant arrays and gated reserves are left out (R549). -/
def State.roUnitList (s : State) : List UnitId :=
  let of (k : UnitKind) (l : List Nat) : List UnitId := l.map (fun n => { kind := k, num := n })
  of .array ((List.range 512).filter (fun a => !s.arrVacant a && !s.packDark (arrPack a))) ++ of .pack (s.packList.filter (fun p => !s.packDark p)) ++
  of .fieldDie [0, 1] ++ of .hostDie [0, 1] ++ of .linkPort (List.range 8) ++ of .mgmtDie [0, 1] ++ of .routerSite s.siteList ++
  of .island (List.range Config.nIslands) ++ of .panel [0]

/-- The records of a stream: unit, space, offset, length at most 1 MiB (R546, R547). -/
def State.roRecords (s : State) : List (UnitId × Nat × Nat × Nat) :=
  let us := if s.on F.monRoSel_allUnits then s.roUnitList else s.roUnitList.filter (fun u => unitNum u == s.rd F.monRoSel_unit 0)
  us.flatMap (fun u => ((unitSpaces u.kind).filter (fun sp => bitAt (s.rd F.monRoSel_spaces 0) sp)).flatMap (fun sp =>
    let n := s.spaceLen u sp
    (List.range (ceilDiv n 1048576)).map (fun k => (u, sp, 1048576 * k, min 1048576 (n - 1048576 * k)))))

/-- Data of a record; what the spec does not lay out is free. -/
def State.roData (s : State) (r : UnitId × Nat × Nat × Nat) : List Byte × State :=
  match s.spaceBytes r.1 r.2.1 r.2.2.1 r.2.2.2 with
  | some b => (b, s)
  | none => ((List.range r.2.2.2).map (fun j => BitVec.ofNat 8 (Config.freeNat (s.free + j))), { s with free := s.free + r.2.2.2 })

/-- A record's header (R547). -/
def State.roHeader (s : State) (r : UnitId × Nat × Nat × Nat) (seq : Nat) : List Byte :=
  let bad := if r.2.1 = 0 then s.failWords r.1.num (s.siteOf r.1.num) r.2.2.1 r.2.2.2 else []
  ([0x50, 0x5A, 0x52, 0x4F, 1] : List Byte) ++ leBytes 1 r.2.1 ++ leBytes 2 (unitNum r.1) ++ leBytes 8 r.2.2.1 ++ leBytes 4 r.2.2.2 ++ leBytes 4 bad.length ++
  leBytes 8 (match bad.head? with | some w => 8 * w | none => 0xFFFFFFFFFFFFFFFF) ++ leBytes 4 (s.rd F.monSitStat_sitId 0) ++ leBytes 4 seq ++
  List.replicate 24 0

/-- Write records while they fit in the buffer and `left` allows; the place reached, and whether the stream is over. -/
def State.roWrite (s : State) (at_ : Nat) : List (UnitId × Nat × Nat × Nat) → Nat → Bool × State
  | rs, left =>
    let room := 4096 * s.rd F.monRoLen_pages 0
    match rs with
    | [] =>
      if room < at_ + 64 || left = 0 then (false, s)
      else
        let hdr := ([0x50, 0x5A, 0x52, 0x4F, 1, 0xFF, 0, 0] : List Byte) ++ leBytes 8 0 ++ leBytes 4 s.mon.ro.next ++ leBytes 4 0 ++
          leBytes 8 0xFFFFFFFFFFFFFFFF ++ leBytes 4 (s.rd F.monSitStat_sitId 0) ++ leBytes 4 s.mon.ro.next ++ List.replicate 24 0
        let s1 := (s.toHost s.mon.ro.port (s.rd F.monRoBase_addr 0 + at_) hdr).cnt F.monRoStat_lines 0 1
        (true, { s1 with mon := { s1.mon with ro := { s1.mon.ro with next := s1.mon.ro.next + 1 } } })
    | r :: t =>
      if room < at_ + 64 + r.2.2.2 || left = 0 then (false, s)
      else
        let d := s.roData r
        let s1 := (d.2.toHost s.mon.ro.port (s.rd F.monRoBase_addr 0 + at_) (s.roHeader r s.mon.ro.next ++ d.1)).cnt F.monRoStat_lines 0
          (1 + r.2.2.2 / 64)
        { s1 with mon := { s1.mon with ro := { s1.mon.ro with next := s1.mon.ro.next + 1 } } }.roWrite (at_ + 64 + r.2.2.2) t (left - 1)

/-- `MON_RO_CMD` with `GO` (R546): a stream that stopped for a full buffer continues, any other starts afresh. -/
def State.roGo (s : State) : State :=
  if s.mon.ro.running then s
  else if !s.freezeFabric then s.wr F.monRoStat_status 0 5
  else
    let cont := s.rd F.monRoStat_status 0 == 3
    let s1 := if cont then s else s.wr F.monRoStat_lines 0 0
    ({ s1 with mon := { s1.mon with ro := { running := true, port := s1.rd F.monRoCmd_port 0, next := if cont then s1.mon.ro.next else 0 } } }.wr
      F.monRoStat_status 0 1).wr F.monRoCmd_go 0 1

/-- READOUT_GO (R546). -/
def execReadoutGo (port : Fin 2) (s : State) : Out := s.bar port .mon State.roGo

/-- `MON_RO_CMD` with `ABORT`. -/
def State.roAbort (s : State) : State := if s.mon.ro.running then s.wr F.monRoCmd_abort 0 1 else s

/-- READOUT_ABORT (R555). -/
def execReadoutAbort (port : Fin 2) (s : State) : Out := s.bar port .mon State.roAbort

/-- READOUT_STREAM_END (R546): the records that the stream wrote since `GO`. An abort stops it after some record. -/
def execReadoutStreamEnd (s : State) : Out :=
  if !s.mon.ro.running || !s.freezeFabric then .next s
  else
    let abort := s.on F.monRoCmd_abort
    let (f, s1) := if abort then s.drawFree else (0, s)
    let rs := s1.roRecords.drop s1.mon.ro.next
    let r := s1.roWrite 0 rs (if abort then 1 + f % (rs.length + 1) else rs.length + 1)
    let st := if !(r.2.portUp r.2.mon.ro.port) then 6 else if r.1 then 2 else if abort then 4 else 3
    let s2 := ((r.2.wr F.monRoStat_status 0 st).wr F.monRoCmd_go 0 0).wr F.monRoCmd_abort 0 0
    .next ({ s2 with mon := { s2.mon with ro := { s2.mon.ro with running := false } } }.bark 0x0042 {}
      [(24, st), (28, s2.mon.ro.next), (32, s2.rd F.monRoStat_lines 0)])

end Sys2Proof.Machine
end

