-- ==== Sys2Proof/Machine/Boot.lean ====
section
/-! DEFINITION. Power-up, stages and phases of bring-up, configuration records, attestation, whole-panel reset, firmware (R448 to R471, R476,
R481, R508 to R511). -/

namespace Sys2Proof.Machine

def State.setBoot (s : State) (f : BootState → BootState) : State := { s with boot := f s.boot }

/-! ### Configuration records (R464 to R468) -/

def leAt (b : List Byte) (i n : Nat) : Nat := leNat ((b.drop i).take n)

/-- Type, offset, length of each section that lies inside the bytes. -/
def sectionsOf (b : List Byte) : List (Nat × Nat × Nat) :=
  ((List.range (min (leAt b 32 4) 64)).map (fun k => (leAt b (40 + 16 * k) 2, leAt b (44 + 16 * k) 4, leAt b (48 + 16 * k) 4))).filter
    (fun x => decide (x.2.1 + x.2.2 ≤ b.length))

def sectionAt (b : List Byte) (ty : Nat) : Option (List Byte) :=
  ((sectionsOf b).find? (fun x => x.1 == ty)).map (fun x => (b.drop x.2.1).take x.2.2)

/-- Read a record (R465) or an overlay (R468) from its bytes. -/
def parseRecord (overlay : Bool) (b : List Byte) : ConfigRecord where
  magicOk := b.take 4 == (if overlay then [0x50, 0x5A, 0x4F, 0x56] else [0x50, 0x5A, 0x43, 0x52])
  lengthOk := leAt b 8 4 == b.length && decide (b.length ≤ 1048576) && decide (172 ≤ b.length) && decide (1 ≤ leAt b 32 4) &&
    decide (leAt b 32 4 ≤ 64) && (sectionsOf b).length == leAt b 32 4 && (!overlay || (sectionsOf b).all (fun x => x.1 == 4)) && leAt b 6 2 == 0 && leAt b 18 6 == 0 && leAt b 36 4 == 0
  version := leAt b 4 2
  recSeq := leAt b 12 4
  variant := leAt b 16 1
  stepping := leAt b 17 1
  serial := leAt b 24 8
  siteMap := match sectionAt b 1 with
    | some x => if x.length = 64 then some (x.map (·.toNat)) else none
    | none => none
  repairLists := match sectionAt b 2 with
    | some x => [x.map (·.toNat)]
    | none => []
  spineDelays := match sectionAt b 3 with
    | some x => if x.length = 2460 then some ((List.range 1230).map (fun i => leAt x (2 * i) 2)) else none
    | none => none
  defaults := match sectionAt b 4 with
    | some x => (List.range (x.length / 16)).map (fun i => ⟨leAt x (16 * i) 4, leAt x (16 * i + 4) 1, leAt x (16 * i + 8) 8⟩)
    | none => []
  vendorKey := match sectionAt b 5 with
    | some x => if x.length = 133 then some x else none
    | none => none
  certificate := match sectionAt b 6 with
    | some x => if x.length = 265 then some (x.take 133, x.drop 133) else none
    | none => none
  operatorHash := match sectionAt b 7 with
    | some x => if x.length = 64 then some (BitVec.ofNat 512 (leNat x)) else none
    | none => none
  signedBytes := b.take (b.length - 132)
  signature := b.drop (b.length - 132)

/-- The part of a register that an entry writes: register, instance, and its bits as value and mask. -/
def entryAt (e : RegDefault) : Option (Reg × Nat × Nat × Nat) :=
  match regAt 0 e.offset with
  | none => none
  | some (r, i, b) =>
    if (e.width = 4 || e.width = 8) && b % 4 = 0 && b + e.width ≤ (regPlace r).bytes then
      some (r, i, e.value % 2 ^ (8 * e.width) * 2 ^ (8 * b), (2 ^ (8 * e.width) - 1) * 2 ^ (8 * b))
    else none

/-- Registers that a record fills from its header and sections, never from register defaults (R466). -/
def fromSections (r : Reg) : Bool := [Reg.fabSite, .fltReserve, .idnPart, .idnSerial, .idnVer].contains r

/-- An entry names only fields whose reset is cfg and leaves every other field at its reset value (R466). -/
def entryOk (e : RegDefault) : Bool :=
  match entryAt e with
  | none => false
  | some (r, i, v, m) =>
    !fromSections r && (regFields r).any (fun f => f.reset == .cfg && bitsAt m f.lo f.w != 0) &&
    (regFields r).all (fun f => f.reset == .cfg || bitsAt m f.lo f.w == 0 || bitsAt v f.lo f.w == fldReset f i)

/-- Fields shown as cfg take the entry's value. -/
def State.loadEntry (s : State) (e : RegDefault) : State :=
  match entryAt e with
  | none => s
  | some (r, i, v, m) =>
    (regFields r).foldl (fun s f =>
      if f.reset == .cfg && bitsAt m f.lo f.w != 0 then s.wr f i (mixBits (s.rd f i) (bitsAt v f.lo f.w) (bitsAt m f.lo f.w)) else s) s

/-- What R466 asks of a record beside the rollback floor. -/
def recordSound (r : ConfigRecord) : Bool :=
  r.magicOk && r.lengthOk && r.version == 1 && (r.variant == 0x16 || r.variant == 0x12) && r.siteMap.isSome && r.spineDelays.isSome &&
  (match r.vendorKey, r.certificate with
    | some k, some c => Config.sha512 k == Config.vendorKeyHash && Config.ecdsaVerify k r.signature r.signedBytes &&
        c.1 == Config.devicePublicKey && Config.ecdsaVerify k c.2 c.1
    | _, _ => false) &&
  r.defaults.all entryOk

/-- The rollback floor; one that fails its check is treated as 0 (R467). -/
def State.recFloor (s : State) : Nat := if s.boot.floorOk then s.boot.floor else 0

/-- A record is valid (R466). -/
def State.recordValid (s : State) (r : ConfigRecord) : Bool := recordSound r && decide (s.recFloor ≤ r.recSeq)

/-- The valid copy with the higher `REC_SEQ` (R464); area A where both have the same. -/
def State.chooseRecord (s : State) : Option ConfigRecord :=
  match s.boot.recA.filter s.recordValid, s.boot.recB.filter s.recordValid with
  | some a, some b => some (if a.recSeq < b.recSeq then b else a)
  | some a, none => some a
  | none, b => b

/-- Failure code of stage 2 where no copy is valid (R459, R469). -/
def State.recordCode (s : State) : Nat :=
  if s.boot.recA.any recordSound || s.boot.recB.any recordSound then 0x08 else 0x03

/-- Blocks whose cfg fields an overlay may change (R468). -/
def overlayReg (r : Reg) : Bool :=
  [Reg.lnkCfg, .lnkPort, .lnkRoute, .fldCfg, .fldConc, .fldPort, .fldMac, .clkCfg, .clkUtc, .admSrc].contains r

/-- An overlay verifies (R468). -/
def overlaySound (r o : ConfigRecord) : Bool :=
  o.magicOk && o.lengthOk && o.version == 1 && o.serial == r.serial && o.siteMap.isNone && o.repairLists == [] && o.spineDelays.isNone &&
  o.vendorKey.isNone && o.certificate.isNone && o.operatorHash.isNone &&
  (match r.operatorHash with
    | some h => Config.ecdsaVerify (Config.operatorKey h) o.signature o.signedBytes
    | none => false)

/-- Apply one overlay entry; whether it was applied. -/
def State.overlayEntry (s : State) (e : RegDefault) : Bool × State :=
  match entryAt e with
  | none => (false, s)
  | some (r, i, v, _) =>
    if !entryOk e || !overlayReg r then (false, s)
    else if r = .admSrc then
      let s1 := s.sumAdm
      let rate := bitsAt v 0 16
      let burst := bitsAt v 16 8
      let rs := s1.rd F.admTotal_rateSum 0 - s1.rd F.admSrc_rate i + rate
      let bs := s1.rd F.admTotal_burstSum 0 - s1.rd F.admSrc_burst i + burst
      if s1.rd F.admLimit_rateLim 0 < rs || s1.rd F.admLimit_burstLim 0 < bs || (s1.srcUnfitted i && (rate != 0 || burst != 0)) then (false, s)
      else (true, s.loadEntry e)
    else (true, s.loadEntry e)

/-- Use a record: what stage 2 loads from it, then from the overlay. -/
def State.useRecord (s : State) (r : ConfigRecord) : State :=
  let s1 := s.setBoot (fun b => { b with record := some r, floor := max s.recFloor r.recSeq, floorOk := true })
  let s2 := (((((s1.wr F.idnPart_partNum 0 (if r.variant = 0x12 then 0x7212 else 0x7216)).wr F.idnPart_variant 0 r.variant).wr
    F.idnPart_stepping 0 r.stepping).wr F.idnSerial_serial 0 r.serial).wr F.idnVer_recSeq 0 r.recSeq)
  let s3 := r.defaults.foldl State.loadEntry s2
  let s4 := match s3.boot.overlay with
    | none => s3
    | some o =>
      if !overlaySound r o then s3
      else
        let q := o.defaults.foldl (fun (q : Bool × State) e => let x := q.2.overlayEntry e; (q.1 && x.1, x.2)) (true, s3)
        (q.2.wr F.idnOvl_ovlSeq 0 o.recSeq).wr F.idnOvl_ovlOk 0 (b2n q.1)
  let s5 := s4.sumAdm
  s5.each s5.packList (fun s p =>
    let (f, s) := s.drawFree
    let lo := s.rd F.pwrPack_avFloor p
    let hi := s.rd F.pwrPack_avCeil p
    (s.wr F.pwrPackStat_avSet p (lo + f % (hi + 1 - lo))).syncFreq p)

/-! ### Stages (R457 to R459, R469, R470) -/

/-- Milliseconds since the start of power-up or reset: the model counts markers of 1 µs. -/
def State.sinceStart (s : State) : Nat := s.time.marker / 1000

/-- Units of the stage registers, for records. -/
def stageUnit (u : Nat) : UnitId :=
  if u < 2 then { kind := .mgmtDie, num := u } else if u < 4 then { kind := .hostDie, num := u - 2 } else {}

/-- Write a report and issue its record (R459). -/
def State.stageReport (s : State) (u stage : Nat) (failed : Bool) (code info : Nat) : State :=
  let s1 := if failed then s else s.wr F.idnStage_stage u stage
  (((s1.wr F.idnStage_failed u (b2n failed)).wr F.idnStage_code u code).wr F.idnStage_timeMs u s.sinceStart).bark 0x0041 (stageUnit u)
    [(24, u), (25, stage), (26, b2n failed), (27, code), (28, info)]

/-- The next stage of a unit. -/
def State.nextStage (s : State) (u : Nat) : Nat := if s.rd F.idnStage_stage u = 0xF then 0 else s.rd F.idnStage_stage u + 1

def lastStage (u : Nat) : Nat := if u < 2 then 5 else if u < 4 then 4 else 3

/-- Current phase of bring-up; phase 1 from the start (R453). -/
def State.phase (s : State) : Nat := max 1 (s.rd F.idnState_phase 0)

/-- Bring-up is going on. -/
def State.inBringup (s : State) : Bool :=
  s.boot.converting && !s.boot.resetNLow && !s.boot.panelReset && s.rd F.idnState_panelState 0 == 0 && !s.boot.mnFailed && !s.boot.cfgFailed

def State.stagePassed (s : State) (u n : Nat) : Bool := s.rd F.idnStage_stage u != 0xF && decide (n ≤ s.rd F.idnStage_stage u)

/-- A stage may end now: its unit has not failed, and what it needs is there. -/
def State.stageReady (s : State) (u : Nat) : Bool :=
  let n := s.nextStage u
  let up := s.boot.converting && !s.boot.resetNLow && !s.boot.panelReset && !s.boot.mnFailed && !s.boot.cfgFailed &&
    s.rd F.idnState_panelState 0 != 2
  up && decide (n ≤ lastStage u) && !s.on F.idnStage_failed u &&
  (if u = 0 then s.inBringup
   else if u = 1 then s.inBringup && (n != 2 || s.stagePassed 0 2)
   else if u < 4 then
     s.boot.busesUp && (n < 3 || s.stagePassed 0 4) &&
     (n < 2 || (s.hport (u - 2)).linkUp) && (n < 4 || s.rd F.idnState_panelState 0 == 1)
   else s.inBringup && s.phase == 4 && !(s.is12 && decide (22 ≤ u)))

/-- MN fails a stage: bring-up halts, and `ALERT_N` is held low (R458). -/
def State.mnStop (s : State) (cfg : Bool) : State :=
  (s.setBoot (fun b => if cfg then { b with cfgFailed := true } else { b with mnFailed := true })).syncAlert

/-- MN verifies its records: the outcome of its stage 2 (R464 to R469). A floor that fails its check is reported (R467). -/
def State.verifyRecords (s : State) : State :=
  let s1 := if s.boot.floorOk then s else s.bark 0x0041 (stageUnit 0) [(24, 0), (25, 2), (26, 0), (27, 0x03), (28, 0)]
  match s1.chooseRecord with
  | none => (s1.stageReport 0 2 true s1.recordCode 0).mnStop true
  | some r =>
    let s2 := (s1.useRecord r).stageReport 0 2 false 0 0
    -- the buses start, and with them the edge rails: `PWR_OK` is released (R451)
    (s2.setBoot (fun b => { b with busesUp := true })).syncPwrOk

/-- What a passed stage of MN does. -/
def State.mnStage (s : State) (n : Nat) : State :=
  if n = 1 then
    s.each (List.range 8) (fun s w => s.wr F.idnKeyFp_fp w (bitsAt (Config.sha512 Config.devicePublicKey).toNat (64 * w) 64))
  else if n = 3 then s.wr F.idnVer_fwVersion 0 (mget s.firm.running 5 0)
  else if n = 5 then
    let s1 := if s.boot.seqEpochOk then s else s.bark 0x0041 (stageUnit 0) [(24, 0), (25, 5), (26, 0), (27, 0x03), (28, 0)]
    let e := if s.boot.seqEpochOk then (s.boot.seqEpoch + 1) % 2 ^ 24 else 1
    (s1.setBoot (fun b => { b with seqEpoch := e, seqEpochOk := true })).wr F.fldSeqEpoch_seqEpoch 0 e
  else s

/-- Failed wires of a direction, for which its 8 spares must do; pairs of which no wire works (R31, R32, R235). -/
def seamFailed (t : SeamTest) (dir : Nat) : Nat := (t.failed.filter (fun x => x.1.val == dir)).eraseDups.length
def seamTooMany (t : SeamTest) : Bool := decide (8 < seamFailed t 0) || decide (8 < seamFailed t 1)
def seamPairGone (t : SeamTest) : Bool := t.pairs.any (fun x => t.pairs.any (fun y => y.1 == x.1 && y.2.1 == x.2.1 && y.2.2 != x.2.2))

/-- Spares used in a direction: one for each failed data wire. -/
def seamSpares (t : SeamTest) (dir : Nat) : Nat := (t.failed.filter (fun x => x.1.val == dir && decide (x.2.val < 2048))).eraseDups.length

/-- The spare onto which a failed data wire is steered: the working spares in ascending order for the failed wires in theirs (log entry 98). -/
def seamSteer (t : SeamTest) (dir wire : Nat) : Option Nat :=
  let bad (w : Nat) : Bool := t.failed.any (fun x => x.1.val == dir && x.2.val == w)
  if bad wire then ((List.range 8).filter (fun k => !bad (2048 + k)))[((List.range wire).filter bad).length]? else none

/-- The working wire of a pair. -/
def seamSelect (t : SeamTest) (dir pair : Nat) : Nat :=
  b2n (t.pairs.any (fun x => x.1.val == dir && x.2.1.val == pair && x.2.2.val == 0))

/-- A stage of the seam link of column `c` ends (R31, R32, R235, R457). -/
def State.seamStage (s : State) (c n : Nat) (failed : Bool) (code : Nat) (test : SeamTest) : State :=
  let s0 := if n = 0 then s.setBoot (fun b => { b with seams := mset b.seams c test }) else s
  let t := mget s0.boot.seams c {}
  let wires := (n = 1 && seamTooMany t) || (n = 2 && seamPairGone t)
  let info := if n = 0 then 0 else seamSpares t 0 + 65536 * seamSpares t 1
  if failed || wires then
    let l := linkSouth 11 c
    let s1 := ((s0.stageReport (4 + c) n true (if wires then 0x05 else code) info).bark 0x000C {} [(24, c)]).setBoot
      (fun b => { b with seamOut := b.seamOut ++ [c] })
    (s1.declare (linkEnds l).1 l).declare (linkEnds l).2 l
  else s0.stageReport (4 + c) n false 0 info

/-- Bytes 28 to 31 of a host die's report: the negotiated width, then the speed (R459; log entry 98). -/
def State.hostInfo (s : State) (p : Nat) : Nat := s.rd F.hifStat_width p + 65536 * s.rd F.hifStat_speed p

/-- STAGE_COMPLETE (R457, R458). -/
def execStageComplete (u : Fin 28) (failed : Bool) (code : Nat) (seam : SeamTest) (s : State) : Out :=
  if !s.stageReady u then .next s
  else
    let n := s.nextStage u
    -- stage 1 of a management die fails with 0x01 alone (R470)
    let c := if u.val < 2 && n = 1 then 0x01 else code
    if u.val = 0 then
      .next (if failed then (s.stageReport 0 n true c 0).mnStop false
        else if n = 2 then s.verifyRecords else (s.stageReport 0 n false 0 0).mnStage n)
    else if u.val = 1 then
      .next (if failed then (s.stageReport 1 n true c 0).wr F.idnState_msDegraded 0 1 else s.stageReport 1 n false 0 0)
    else if u.val < 4 then
      -- stage 2 waits for a partner: it does not fail (R458)
      .next (if failed && n = 2 then s
        else if failed then (s.stageReport u n true c (s.hostInfo (u - 2))).updPort (u - 2) (fun x => { x with linkUp := false })
        else s.stageReport u n false 0 (s.hostInfo (u - 2)))
    else .next (s.seamStage (u - 4) n failed code seam)

/-! ### The input and the rails (R448 to R452) -/

/-- What MN's flash, the pins and the power panel keep through every reset (R464, R467, R491, R507, R533). -/
def State.kept (s : State) : State :=
  let b := s.boot
  { State.reset with
    boot := { State.reset.boot with
      inputOk := b.inputOk, converting := b.converting, busesUp := b.busesUp, resetNLow := b.resetNLow, packRails := b.packRails,
      railsDone := b.railsDone, recA := b.recA, recB := b.recB, overlay := b.overlay, floor := b.floor, floorOk := b.floorOk,
      seqEpoch := b.seqEpoch, seqEpochOk := b.seqEpochOk }
    faults := { State.reset.faults with
      failedFlash := s.faults.failedFlash, mapFlash := s.faults.mapFlash, barkLog := s.faults.barkLog,
      firm := { highest := s.firm.highest, running := s.firm.running, images := s.firm.images } }
    time := { State.reset.time with refOk := s.time.refOk }
    sit := { State.reset.sit with pinLow := s.sit.pinLow }
    mon := { State.reset.mon with chalCount := s.mon.chalCount, tapAddr := s.mon.tapAddr, tdo := s.mon.tdo }
    pins := { State.reset.pins with pwrOk := s.pins.pwrOk }
    outs := s.outs, free := s.free, pending := s.pending }.wr F.monSitStat_pin 0 (b2n s.sit.pinLow)

/-- What the power panel holds through every reset short of a loss of input (R36): failed cells, latched packs, the brake. MN's registers and
alerts show it again. -/
def State.keepPanel (t s : State) : State :=
  let dark := s.rd F.fltPackDark_dark 0
  let brake := s.rd F.pwrStat_brake 0
  let t1 := (((t.wr F.pwrIn_cellsN 0 (s.rd F.pwrIn_cellsN 0)).wr F.pwrIn_cellsS 0 (s.rd F.pwrIn_cellsS 0)).wr F.fltPackDark_dark 0 dark).wr
    F.pwrStat_brake 0 brake
  let t2 := { t1 with power := { t1.power with brakeAt := brake } }.each (maskList dark 64) (fun t p =>
    t.each (packIslands p) (fun t i => t.runIsland i false))
  (t2.alert 0 (dark != 0)).alert 1 (decide (2 ≤ t2.failedCells 0) || decide (2 ≤ t2.failedCells 1))

/-- All conversion stops (R448, R450): nothing on the panel keeps its state but the flash. -/
def State.powerLost (s : State) : State :=
  let s1 := s.kept.setBoot (fun b => { b with inputOk := false, converting := false, busesUp := false, packRails := [], railsDone := false })
  { s1 with pins := { pwrOk := false, alertN := true, ppsOut := false }
            mon := { s1.mon with tapAddr := State.reset.mon.tapAddr, tdo := State.reset.mon.tdo } }

/-- Conversion starts from the beginning. -/
def State.powerUp (s : State) : State :=
  if s.boot.converting then s else s.powerLost.setBoot (fun b => { b with inputOk := true, converting := true })

/-- INPUT_POWER_UP (R448). -/
def execInputPowerUp (s : State) : Out := .next s.powerUp

/-- INPUT_LOSS (R448). -/
def execInputLoss (s : State) : Out := .next (if s.boot.converting then s.powerLost else s.setBoot (fun b => { b with inputOk := false }))

/-- INPUT_RESTART (R448): the input has been within its limits for 100 ms. -/
def execInputRestart (s : State) : Out := .next s.powerUp

/-- PACK_RAIL_RAISE (R450): the next fitted pack, in ascending number. -/
def execPackRailRaise (s : State) : Out :=
  if s.boot.railsDone || !s.boot.busesUp || !s.inBringup then .next s
  else match s.packList.find? (fun p => !s.boot.packRails.contains p) with
    | none => .next (s.setBoot (fun b => { b with railsDone := true }))
    | some p =>
      let l := s.boot.packRails ++ [p]
      .next (s.setBoot (fun b => { b with packRails := l, railsDone := s.packList.all (fun q => l.contains q) }))

/-! ### Phases (R453 to R456, R460 to R463) -/

/-- Positions that carry numbers k = 0 to 7 by the manufacturing map (R11). -/
def mapPositions (res : Nat) : List Nat := ((List.range 9).filter (fun q => q != (if res < 9 then res else 8)))

/-- The site table and the reserves of one pack, from the record's map and what flash says of substitutions and failures (R463, R491). -/
def State.loadPack (s : State) (r : ConfigRecord) (p : Nat) : State :=
  if !s.packFitted p then (packArrays p).foldl (fun s a => s.wr F.fabSite_state a 2) ((s.wr F.fltReserve_resPos p 0xF).wr F.fltReserve_subK p 0xF)
  else
    let res := (r.siteMap.getD []).getD p 0xFF
    let moved := mget s.faults.mapFlash p 0
    let failed := mget s.faults.failedFlash p 0
    let s1 := ((s.wr F.fltReserve_resPos p (if moved != 0 || 9 ≤ res || bitAt failed res then 0xF else res)).wr F.fltReserve_subK p
      (if moved = 0 then 0xF else moved - 1)).wr F.fltReserve_failedSites p failed
    (List.range 8).foldl (fun s k =>
      let q := if moved = k + 1 then res else (mapPositions res).getD k 0
      let a := p * 8 + k
      let s := s.wr F.fabSite_site a (packSite p q)
      if bitAt failed q then (s.wr F.fabSite_state a 1).cnt F.idnState_vacant 0 else s) s1

/-- A tile, a router, a hub or an edge die of a part that the variant lacks does not run (R4). -/
def State.unfitted (s : State) : List Nat :=
  (List.range 64).filter (fun p => !s.packFitted p) |>.flatMap packIslands |> (· ++ (if s.is12 then [linkIsland 2, linkIsland 3] else []))

/-- The array island of each unused reserve or failed tile is gated at ready (R463, R488). -/
def State.spareSites (s : State) : List Nat := s.siteList.filter (fun t => (s.arrayAt t).isNone)

/-- What the end of a phase needs. -/
def State.phaseOver (s : State) : Bool :=
  match s.phase with
  | 1 => s.stagePassed 0 2 && (s.stagePassed 1 2 || s.on F.idnStage_failed 1) && s.boot.railsDone
  | 2 => s.stagePassed 0 5 && (s.stagePassed 1 5 || s.on F.idnStage_failed 1) &&
      (s.stagePassed 2 1 || s.on F.idnStage_failed 2) && (s.stagePassed 3 1 || s.on F.idnStage_failed 3)
  | 4 => (List.range 24).all (fun c => (s.is12 && decide (18 ≤ c)) || s.stagePassed (4 + c) 3 || s.on F.idnStage_failed (4 + c))
  | 5 => s.packList.all (fun p => s.packDark p || s.stackState p != 0)
  | 7 => s.siteList.all (fun t => s.siteDead t || s.packDark (sitePack t) || bitAt (s.rd F.fltReserve_failedSites (sitePack t)) (sitePos t) ||
        s.boot.knownDone.contains t) && s.faults.substs == [] && s.changes == []
  | _ => true

/-- The panel is ready (R454, R463). -/
def State.goReady (s : State) : State :=
  let s1 := ((s.wr F.idnState_panelState 0 1).wr F.idnState_phase 0 0).wr F.idnState_upMs 0 s.sinceStart
  let s2 := s1.each s1.spareSites (fun s t => s.runIsland t false)
  if s2.rd F.clkCfg_timeSrc 0 != 0 && s2.rd F.clkStat_timeState 0 = 0 then s2.wr F.clkStat_timeState 0 1 else s2

/-! What the tests of a bring-up say (R460, R461) -/

/-- Routers all of whose links to routers that are not themselves dead are dead (R460). -/
def State.cutOff (s : State) (sites links : List Nat) : List Nat :=
  s.siteList.filter (fun t => (linksOf t).all (fun l =>
    let e := linkEnds l
    let y := if e.1 = t then e.2 else e.1
    links.contains l || sites.contains y || !s.siteFitted y))

/-- Tiles that test the tile at site `x`: its neighbours whose routers are live. -/
def State.testers (s : State) (x : Nat) : List Nat :=
  ((List.range 4).filterMap (fun d => (beyondOf x d).map (·.1))).filter (fun t => s.siteFitted t && !s.siteDead t)

/-- Suspects: tiles that at least half of their testers fail, and testers that fail two or more neighbours which their other testers all
pass. `l` pairs a tester with the neighbour that it reports. -/
def State.suspectsOf (s : State) (l : List (Nat × Nat)) : List Nat :=
  let ok := l.filter (fun e => s.siteFitted e.2 && (s.testers e.2).contains e.1)
  let fails (t x : Nat) : Bool := ok.any (fun e => e.1 == t && e.2 == x)
  s.siteList.filter (fun x =>
    let ts := s.testers x
    let n := (ts.filter (fun t => fails t x)).length
    let lone := (ok.filter (fun e => e.1 == x)).map (·.2) |>.eraseDups |>.filter (fun y =>
      let others := (s.testers y).filter (· != x)
      others != [] && others.all (fun t => !fails t y))
    (n != 0 && decide (ts.length ≤ 2 * n)) || decide (2 ≤ lone.length))

/-- BRINGUP_PHASE_END (R453). Phase 4 gives the first mask, from the routers whose islands failed to start and the links whose tests failed;
phase 6 the enabled ports, phase 7 the suspects of its neighbour tests. -/
def execBringupPhaseEnd (deadSites : List (Fin 576)) (deadLinks : List (Fin 1104)) (failedTests : List (Fin 576 × Fin 576)) (s : State) : Out :=
  if !s.inBringup || !s.phaseOver then .next s
  else
    let next (s : State) : State := s.wr F.idnState_phase 0 (s.phase + 1)
    .next (match s.phase with
      | 2 =>
        let s1 := s.each s.unfitted (fun s i => s.runIsland i false)
        next s1
      | 3 => next (s.each ((List.range Config.nIslands).filter (fun i => (s.isl i).running)) State.toSpine)
      | 4 =>
        let s1 := match s.boot.record with
          | none => s
          | some r => s.each (List.range 64) (fun s p => s.loadPack r p)
        -- a pack that the power panel still holds latched off stays out (R36, R496)
        let dark := s1.packList.filter s1.packDark
        let stuck := (deadSites.map (·.val)).filter s1.siteFitted
        let sites := stuck ++ dark.flatMap packSites
        let links := deadLinks.map (·.val) ++ s1.localDead.map (· % 2048) ++ dark.flatMap packLinks
        let s2 := s1.each stuck (fun s t => s.runIsland (576 + t) false)
        next ((s2.newMask (addBits s2.mnMask.1 (sites ++ s2.cutOff sites links)) (addBits s2.mnMask.2 links)).each (dark.flatMap packArrays)
          (fun s a => s.fence a 7))
      | 5 => next (s.each (List.range 8) (fun s n => if s.on F.lnkPort_en n && s.portFitted n && s.lstate n = 0 then s.setLink n 1 else s))
      | 7 => (s.setBoot (fun b => { b with suspects := s.suspectsOf (failedTests.map (fun e => (e.1.val, e.2.val))) })).goReady
      | _ => next s)

/-! ### Whole-panel reset (R472, R476, R543) -/

/-- The encoding of `IDN_CAUSE` (R481). -/
def causeNum : ResetCause → Nat
  | .powerUp => 0
  | .resetN => 1
  | .panelRstH0 => 2
  | .panelRstH1 => 3
  | .monitor => 4
  | .firmware => 5

/-- Steps 3 to 5 of R476, once the link ports have quiesced. -/
def State.panelResetGo (s : State) : State :=
  if !s.boot.panelReset || (List.range 8).any (fun n => s.lstate n == 7 && (s.lport n).quiescing) then s
  else ((s.kept.keepPanel s).wr F.idnCause_cause 0 (causeNum s.boot.pendingCause)).syncAlert

/-- Steps 1 and 2 of R476. Sit ends without a resume: the arrays' islands stay as they stand (R543); every other reset is abandoned (R477). -/
def State.panelReset (s : State) (cause : ResetCause) : State :=
  if s.boot.panelReset || !s.boot.converting then s
  else
    let s1 := (s.wr F.idnState_panelState 0 2).setBoot (fun b =>
      { b with panelReset := true, pendingCause := cause, resets := [], deferred := [], mnFailed := false, cfgFailed := false })
    let s2 := ((s1.setSit (fun x => { x with latch := false, all := false, told := [], bySpan := false, pendingRecs := [],
                                             stopped := x.stopped.filter (fun i => decide (i < 576)) })).wr F.monSitStat_state 0 0).wr
      F.monSitStat_latch 0 0
    s2.quiesceLinks.panelResetGo

/-- PANEL_RESET (R476, R482). -/
def execPanelReset (port : Fin 2) (key : BitVec 8) (s : State) : Out :=
  s.bar port .unit (fun s => if key = 0xA5 then s.panelReset (if port = 0 then .panelRstH0 else .panelRstH1) else s)

/-- RESET_N_LOW (R472, R452). -/
def execResetNLow (s : State) : Out :=
  if s.boot.resetNLow then .next s else .next ((s.setBoot (fun b => { b with resetNLow := true })).panelReset .resetN)

/-- RESET_N_RELEASE (R452, R476): bring-up runs from management stage 0. -/
def execResetNRelease (s : State) : Out := .next (s.setBoot (fun b => { b with resetNLow := false }))

/-- A quiescing port stops: what it still holds is lost, its lasers go off (R387, Step 4). The last port lets a whole-panel reset go on. -/
def State.quiesceEnd (s : State) (n : Nat) : State :=
  let x := s.lport n
  let s1 := s.updLport n (fun x => { x with txq := [], quiescing := false })
  let s2 := if x.txq == [] then s1 else s1.cnt F.lnkCnt2_lost n x.txq.length
  ((s2.setLink n 0).put (.lasers n false)).panelResetGo

/-- QUIESCE_TIMEOUT (R387): `QUIESCE_MS` has passed since the port's quiesce word. -/
def execQuiesceTimeout (n : Fin 8) (s : State) : Out :=
  if s.lstate n != 7 || !(s.lport n).quiescing then .next s else .next (s.quiesceEnd n)

/-- QUIESCE_ACKNOWLEDGE (R387, R388): a port that has sent all that it held need not wait longer. -/
def execQuiesceAcknowledge (n : Fin 8) (panelId : Nat) (s : State) : Out :=
  if s.lstate n != 7 || !(s.lport n).quiescing then .next s
  else
    let s1 := (s.updLport n (fun x => { x with ackRcvd := true })).wr F.lnkStat_peerPanel n panelId
    .next (if (s1.lport n).txq == [] then s1.quiesceEnd n else s1)

/-- CREDIT_WORD (R370): the port may send more; a quiescing port that has been acknowledged and has sent its last packet stops. -/
def execCreditWord (n : Fin 8) (freed : List Nat) (s : State) : Out :=
  if freed.length != 16 || s.linkHalted n then .next s
  else
    let s1 := (s.updLport n (fun x =>
      { x with credited := (List.range 16).foldl (fun m v => mput m v 0 (freed.getD v 0 % 65536)) [] })).pumpPort n pumpFuel
    .next (if s1.lstate n = 7 && (s1.lport n).quiescing && (s1.lport n).ackRcvd && (s1.lport n).txq == [] then s1.quiesceEnd n else s1)

/-! ### The DOE mailbox (R471) -/

/-- A port answers DOE requests: its link is up and host stage 3 has passed. -/
def State.doeUp (s : State) (p : Nat) : Bool := s.barUp p && !(p == 1 && s.rd F.prtHalf_state 0 == 2)

def recordBytes (r : ConfigRecord) : List Byte := r.signedBytes ++ r.signature

/-- The overlay in use. -/
def State.overlayInUse (s : State) : Option ConfigRecord :=
  match s.boot.record, s.boot.overlay with
  | some r, some o => if s.rd F.idnOvl_ovlSeq 0 == o.recSeq && overlaySound r o then some o else none
  | _, _ => none

/-- Bytes 0 to 271 of an attestation report. -/
def State.attestation (s : State) (nonce : BitVec 256) : List Byte :=
  let hash (b : List Byte) : List Byte := leBytes 64 (Config.sha512 b).toNat
  ([0x81, 0, 0, 0, 0, 0, 0, 0] : List Byte) ++ leBytes 8 (s.rd F.idnSerial_serial 0) ++ leBytes 1 (s.rd F.idnPart_variant 0) ++
  leBytes 1 (s.rd F.idnPart_stepping 0) ++ leBytes 2 0 ++ leBytes 4 (s.rd F.idnVer_recSeq 0) ++ leBytes 4 (s.rd F.idnOvl_ovlSeq 0) ++
  leBytes 4 (s.rd F.idnVer_fwVersion 0) ++ (match s.boot.record with | some r => hash (recordBytes r) | none => leBytes 64 0) ++
  hash (mget s.firm.images 5 []) ++ (match s.overlayInUse with | some o => hash (recordBytes o) | none => leBytes 64 0) ++
  leBytes 8 s.now ++ leBytes 2 (s.rd F.idnState_vacant 0) ++ leBytes 6 0 ++ leBytes 32 nonce.toNat

/-- DOE_ATTESTATION (R471). -/
def execDoeAttestation (port : Fin 2) (nonce : BitVec 256) (s : State) : Out :=
  if !s.doeUp port then .next s
  else
    let b := s.attestation nonce
    .next (s.put (.doe port (b ++ (Config.deviceSign b ++ List.replicate 132 0).take 132)))

/-- DOE_CERTIFICATE (R471). -/
def execDoeCertificate (port : Fin 2) (s : State) : Out :=
  if !s.doeUp port then .next s
  else match s.boot.record with
    | none => .next s
    | some r =>
      let c := r.certificate.getD ([], [])
      .next (s.put (.doe port (([0x82, 0, 0, 0, 0, 0, 0, 0] : List Byte) ++ c.1 ++ c.2)))

/-! ### Firmware (R508 to R512) -/

/-- Units that receive an image of a kind, by their number in R503. -/
def State.fwTargets (s : State) (kind : Nat) : List Nat :=
  if kind = 0 then ((List.range 512).filter (fun a => s.arrOk a && !s.packDark (arrPack a))).map s.siteOf
  else if kind = 1 then (s.packList.filter (fun p => !s.packDark p && !s.faults.hubFenced.contains p)).map (· + 576) else []

/-- The image that MN holds, in chunk order. -/
def State.heldImage (s : State) : List Byte := s.firm.chunks.flatMap (·.2)

/-- Write a record or an overlay to its area: a record to the older of A and B (R464, R508). -/
def State.storeRecord (s : State) (overlay : Bool) (r : ConfigRecord) : State :=
  if overlay then s.setBoot (fun b => { b with overlay := some r })
  else s.setBoot (fun b =>
    match b.recA, b.recB with
    | none, _ => { b with recA := some r }
    | some _, none => { b with recB := some r }
    | some x, some y => if y.recSeq < x.recSeq then { b with recB := some r } else { b with recA := some r })

/-- FW_IMAGE_WRITTEN (R508). -/
def execFwImageWritten (readbackOk : Bool) (s : State) : Out :=
  match s.firm.manifest with
  | none => .next s
  | some m =>
    if s.rd F.fltFwStat_fwState 0 != 2 || s.firm.chunks.length != m.nChunks || !readbackOk || s.mnHalted then .next s
    else if m.kind ≤ 1 then
      let l := s.fwTargets m.kind
      .next ((((s.setFirm { s.firm with missing := l.map (fun u => (u, m.nChunks)) }).wr F.fltFwStat_fwState 0 3).wr F.fltFwStat_round 0 0).wr
        F.fltFwStat_unitsMissing 0 l.length)
    else
      let s1 := if 6 ≤ m.kind then s.storeRecord (m.kind == 7) (parseRecord (m.kind == 7) s.heldImage) else s
      .next (s1.wr F.fltFwStat_fwState 0 4)

/-- A unit that still lacks a chunk after round 4 (R510). -/
def State.fwFail (s : State) (kind u n : Nat) : State :=
  let s1 := (s.bark 0x0025 {} [(24, u), (26, kind), (28, n)]).cnt F.fltFwStat_fwFenced 0
  if kind = 0 then
    match s1.arrayAt u with
    | some a => s1.fence a 6
    | none => s1
  else { s1 with faults := { s1.faults with hubFenced := s1.faults.hubFenced ++ [u - 576] } }.darkGathers (u - 576)

/-- FW_ROUND_END (R509, R510): the units that lack chunks, and how many each. -/
def execFwRoundEnd (missing : NMap Nat) (s : State) : Out :=
  match s.firm.manifest with
  | none => .next s
  | some m =>
    if s.rd F.fltFwStat_fwState 0 != 3 || s.inSit then .next s
    else
      let l := missing.filter (fun e => (mfind s.firm.missing e.1).isSome && e.2 != 0 && (s.fwTargets m.kind).contains e.1)
      let s1 := (s.setFirm { s.firm with missing := l }).wr F.fltFwStat_unitsMissing 0 l.length
      .next (if l == [] then s1.wr F.fltFwStat_fwState 0 4
        else if s1.rd F.fltFwStat_round 0 < 4 then s1.wr F.fltFwStat_round 0 (s1.rd F.fltFwStat_round 0 + 1)
        else ((s1.each l (fun s e => s.fwFail m.kind e.1 e.2)).wr F.fltFwStat_fwState 0 4))

def State.fwStatus (s : State) (st : Nat) : State := s.wr F.fltFwCmd_status 0 st

/-- `FLT_FW_CMD` with `ACTIVATE` (R511). -/
def State.fwActivate (s : State) : State :=
  match s.firm.manifest with
  | none => s.fwStatus 1
  | some m =>
    if s.rd F.fltFwStat_fwState 0 != 4 then s.fwStatus 1
    else if m.kind ≤ 1 && s.regions != [] then s.fwStatus 2
    else
      let f := s.firm
      let s1 := (s.setFirm { f with highest := mset f.highest m.kind (max m.fwVersion (mget f.highest m.kind 0)),
                                    images := if m.kind ≤ 5 then mset f.images m.kind s.heldImage else f.images }).fwStatus 0
      if m.kind ≤ 1 then
        let s2 := (s1.wr F.fltFwStat_fwState 0 5).wr F.fltFwCmd_activate 0 1
        let s3 := if m.kind = 0 then s2.each ((List.range 512).filter (fun a => s2.arrOk a && !s2.packDark (arrPack a))) (fun s a => s.requestReset 20 a)
          else s2.each (s2.packList.filter (fun p => !s2.packDark p)) (fun s p => s.requestReset 21 p)
        s3.endActivation
      else (s1.setFirm { s1.firm with running := mset s1.firm.running m.kind m.fwVersion }).panelReset .firmware

/-- FW_ACTIVATE (R511). -/
def execFwActivate (port : Fin 2) (s : State) : Out := s.bar port .unit (fun s => s.rw1s F.fltFwCmd_activate State.fwActivate)

/-- `FLT_FW_CMD` with `ABANDON` (R512): an image in progress is discarded; one being activated no longer is. -/
def State.fwAbandon (s : State) : State :=
  if s.firm.manifest.isNone || s.rd F.fltFwStat_fwState 0 = 5 then s
  else (((s.setFirm { s.firm with manifest := none, chunks := [], missing := [] }).wr F.fltFwStat_fwState 0 6).wr F.fltFwStat_chunksHeld 0 0).wr
    F.fltFwStat_unitsMissing 0 0 |>.fwStatus 3

/-- FW_ABANDON (R512). -/
def execFwAbandon (port : Fin 2) (s : State) : Out := s.bar port .unit State.fwAbandon

end Sys2Proof.Machine
end

