-- ==== Sys2Proof/Machine/Fabric.lean ====
section
/-! DEFINITION. Routers and MN's work for them: flits, dead links, the mask, the escape table, groups, drain-then-change (R254 to R262, R264,
R271 to R276, R318). -/

namespace Sys2Proof.Machine

/-! ### Multicast and reduction groups (R276) -/

def State.groupStatus (s : State) (st : Nat) : State := (s.wr F.fabGrpCmd_status 0 st).wr F.fabGrpCmd_go 0 0

/-- The staged member mask. -/
def State.stagedMask (s : State) : Nat := (List.range 8).foldl (fun m n => m + s.rd F.fabGrpStage_mask n * 2 ^ (64 * n)) 0

/-- A reduction group whose REDUCE is active at a member. -/
def State.groupInUse (s : State) (g : Nat) : Bool :=
  (mfind s.rounds g).isSome || s.changes.any (fun c => c.scope == scopeRed g) ||
  (maskList (mget s.redGroups g 0) 512).any (fun m => (s.arr m).flights.any (fun f => recKind f.record == some .reduce && Rf f.record 16 0 16 == g))

/-- Some member of `mask` already has 64 reduction groups besides `g`. -/
def State.groupsFull (s : State) (g mask : Nat) : Bool :=
  (maskList mask 512).any (fun m => decide (64 ≤ ((s.redGroups.filter (fun x => x.1 != g && x.2.testBit m)).length)))

/-- `FAB_GRP_CMD` with `GO`: refused, or carried out by drain-then-change. A write while `GO` is set changes nothing. -/
def State.groupCommand (s : State) (op g : Nat) : State :=
  if s.on F.fabGrpCmd_go 0 then s
  else
    let s1 := ((s.wr F.fabGrpCmd_op 0 op).wr F.fabGrpCmd_group 0 g).wr F.fabGrpCmd_go 0 1
    let red := op == 1 || op == 3
    let mask := if op ≤ 1 then s.stagedMask else 0
    if !red && 511 < g then s1.groupStatus 1
    else if red && s1.groupInUse g then s1.groupStatus 3
    else if op == 1 && s1.groupsFull g mask then s1.groupStatus 2
    else s1.addChange { scope := if red then scopeRed g else scopeMcast g, op := op, mask := mask }

/-- MCAST_GROUP_WRITE (R276). -/
def execMcastGroupWrite (port : Fin 2) (g : Fin 4096) (s : State) : Out := s.bar port .unit (fun s => s.groupCommand 0 g)

/-- REDUCTION_GROUP_WRITE (R276). -/
def execReductionGroupWrite (port : Fin 2) (g : Fin 4096) (s : State) : Out := s.bar port .unit (fun s => s.groupCommand 1 g)

/-- MCAST_GROUP_CLEAR (R276). -/
def execMcastGroupClear (port : Fin 2) (g : Fin 4096) (s : State) : Out := s.bar port .unit (fun s => s.groupCommand 2 g)

/-- REDUCTION_GROUP_CLEAR (R276). -/
def execReductionGroupClear (port : Fin 2) (g : Fin 4096) (s : State) : Out := s.bar port .unit (fun s => s.groupCommand 3 g)

/-! ### Drain-then-change (R275) -/

/-- Does a packet fall within a scope of Step 3? -/
def State.inScope (s : State) (scope : Nat) (p : Packet) : Bool :=
  if scope < 64 then inPack scope p.src || inPack scope p.dst
  else if scope < 100 then false
  else if scope < 10000 then
    (match p.body, p.dst with
    | .signal _, .tile m => (mget s.mcast (scope - 100) 0).testBit m
    | _, _ => false)
  else (match p.body, p.dst with
    | .reducePart g .., _ => g == scope - 10000
    | .redCredit g _, .tile _ => g == scope - 10000
    | .redDone g .., _ => g == scope - 10000
    | _, _ => false)

/-- Virtual channels of the escape routing (R245). -/
def escapeVCs : List Nat := [3, 5, 7, 9, 11, 13]

def bufKey (site port vc : Nat) : Nat := (site * 6 + port) * 14 + vc

/-- A router may answer the drain query: no packet or unanswered request that it injected lies within the scope, or, for the escape table, its
escape VCs are empty. A reduction group also waits for its round. -/
def State.routerDrained (s : State) (site scope : Nat) : Bool :=
  if scope = 64 then
    (List.range 6).all (fun p =>
      escapeVCs.all (fun v => mget s.mesh.bufs (bufKey site p v) [] == []) &&
      (mget s.mesh.wires (site * 6 + p) {}).fly.all (fun f => !escapeVCs.contains f.vc))
  else
    !s.net.any (fun p => !p.route.held && p.route.site == site && s.inScope scope p) &&
    !s.reqs.any (fun q => !q.2.pkt.route.held && q.2.pkt.route.site == site && s.inScope scope q.2.pkt) &&
    (scope < 10000 || (mfind s.rounds (scope - 10000)).isNone)

/-- Routers that take part in a table change: those that hear MN and can answer it. -/
def State.partakers (s : State) : List Nat :=
  s.siteList.filter (fun t => s.siteOk t && s.reaches (mgmtHome 0) t && (s.viaFrom t (mgmtHome 0)).isSome)

/-- The FAB_CTL of kind `k` for the change under way reaches the routers: it leaves the net. -/
def State.fabCtl (s : State) (k scope : Nat) : Option State :=
  if s.inSit then none
  else (s.net.find? (fun p => p.body == .fabCtl k scope && s.mayMove p)).map s.take

def State.setChange (s : State) (c : FabChange) : State := { s with changes := c :: s.changes.tail }

/-- FAB_HOLD (R275, Step 1): MN's hold takes effect, and its drain query follows. -/
def execFabHold (s : State) : Out :=
  match s.changes with
  | [] => .next s
  | c :: _ =>
    if c.step != 1 then .next s
    else match s.fabCtl 0 c.scope with
      | none => .next s
      | some s0 =>
        let s1 := { s0 with holds := s0.holds ++ [c.scope] }.setChange { c with step := 2 }
        .next ((if c.scope < 64 then
            s1.each (packArrays c.scope) (fun s a => if s.rd F.fabSite_state a = 0 then s.wr F.fabSite_state a 3 else s)
          else s1).fabSend 1)

/-- FAB_DRAIN_QUERY (R275, Step 2). -/
def execFabDrainQuery (s : State) : Out :=
  match s.changes with
  | [] => .next s
  | c :: _ =>
    if c.step != 2 then .next s
    else match s.fabCtl 1 c.scope with
      | none => .next s
      | some s1 => .next (s1.setChange { c with step := 3, drained := [] })

/-- FAB_DRAIN_REPORT (R275, Step 3): a router answers; with the last answer MN broadcasts the update. -/
def execFabDrainReport (site : Fin 576) (s : State) : Out :=
  match s.changes with
  | [] => .next s
  | c :: _ =>
    if c.step != 3 || s.inSit || c.drained.contains site.val || !s.partakers.contains site.val || !s.routerDrained site c.scope then .next s
    else
      let d := site.val :: c.drained
      let all := s.partakers.all (fun t => d.contains t)
      let s1 := s.setChange { c with drained := d, step := if all then 4 else 3 }
      .next (if all then s1.fabSend 3 else s1)

/-- The tables take the change. -/
def State.applyTable (s : State) (c : FabChange) : State :=
  if c.scope < 64 then s.moveSite c
  else if c.scope = 64 then
    (if c.mask = s.rd F.fabState_maskGen 0 && s.rd F.fabState_escMode 0 = 2 then
      { s with escTable := some s.maskNow }.wr F.fabState_escMode 0 1 else s)
  else if c.scope < 10000 then { s with mcast := mput s.mcast (c.scope - 100) 0 c.mask }
  else { s with redGroups := mput s.redGroups (c.scope - 10000) 0 c.mask }

/-- FAB_TABLE_UPDATE (R275, Steps 4 and 5). The site that a number leaves is kept until the release. -/
def execFabTableUpdate (s : State) : Out :=
  match s.changes with
  | [] => .next s
  | c :: _ =>
    if c.step != 4 then .next s
    else match s.fabCtl 3 c.scope with
      | none => .next s
      | some s =>
        let old := s.siteOf c.array
        .next (((s.applyTable c).setChange { c with step := 6, site := if c.scope < 64 then old else c.site }).fabSend 4)

/-- FAB_RELEASE (R275, Step 6). -/
def execFabRelease (s : State) : Out :=
  match s.changes with
  | [] => .next s
  | c :: rest =>
    if c.step != 6 then .next s
    else match s.fabCtl 4 c.scope with
      | none => .next s
      | some s =>
        let s1 := (({ s with changes := rest, holds := s.holds.filter (· != c.scope) }).wr F.fabState_drainBusy 0 (b2n (rest != []))).releaseHeld
        let s2 := if c.scope < 64 then
            let s2 := s1.each (packArrays c.scope) (fun s a => if s.rd F.fabSite_state a = 3 then s.wr F.fabSite_state a 0 else s)
            s2.endSubst { c with site := s2.siteOf c.array } c.site
          else if c.scope = 64 then s1
          else s1.groupStatus 0
        .next (if rest == [] then s2 else s2.fabSend 0)

/-! ### The mask (R271, R272) -/

/-- A router that is down: its pack's rail is, or its island has stopped for good (R271). -/
def State.routerDown (s : State) (t : Nat) : Bool := s.packDark (sitePack t) || !(s.isl (576 + t)).running

/-- A live router that has declared the link dead has a TC0 route to MN for its report (R272). -/
def State.reported (s : State) (l : Nat) : Bool :=
  let e := linkEnds l
  [e.1, e.2].any (fun t => s.declared t l && s.siteOk t && !s.routerDown t && (s.viaFrom t (mgmtHome 0)).isSome)

/-- DEAD_LINK_REPORT (R272): reports of links that routers have declared dead reach MN, which finds the routers that are down; it adds both to
the mask and broadcasts it. -/
def execDeadLinkReport (links : List (Fin 1104)) (sites : List (Fin 576)) (s : State) : Out :=
  let ls := (links.map (·.val)).filter (fun l => !s.mnMask.2.testBit l && s.reported l)
  let ts := (sites.map (·.val)).filter (fun t => s.siteFitted t && !s.mnMask.1.testBit t && s.routerDown t)
  if (ls == [] && ts == []) || s.inSit then .next s
  else
    let s1 := ls.foldl (fun s l => s.bark 0x000F {} [(24, l)]) s
    .next (s1.newMask (addBits s1.mnMask.1 ts) (addBits s1.mnMask.2 ls))

/-- The mask registers take a mask. -/
def State.putMask (s : State) (sites links gen : Nat) : State :=
  let s1 := s.each (List.range 9) (fun s n => s.wr F.fabMaskSite_dead n (bitsAt sites (64 * n) 64))
  let s2 := s1.each (List.range 18) (fun s n => s.wr F.fabMaskLink_dead n (bitsAt links (64 * n) 64))
  s2.wr F.fabState_maskGen 0 gen

/-- Every hub that holds a mirror of a dark pack, and that the mask reaches, promotes it (R228). -/
def State.promoteDark (s : State) (mask : Packet) (p : Nat) : State :=
  s.each (s.mirrored p) (fun s t =>
    let q := packSite (Table.mirrorOf t.2 p) 2
    if s.canPromote t.1 p t.2 && s.hears mask q then s.promoteSeg t.1 p t.2 else s)

/-! ### The escape table (R256) -/

/-- The up end of a link is the end with the smaller depth and site id, from the root with the lowest site id. -/
def escUp (d : List (Nat × Nat)) (x y : Nat) : Bool :=
  let k (t : Nat) : Nat := (match d.find? (fun p => p.1 == t) with | some p => p.2 | none => 9999) * 1024 + t
  decide (k y < k x)

/-- Routers and `DOWN` states reached from a set by legal hops, breadth first, with distances. -/
def View.escBfs (v : View) (d : List (Nat × Nat)) : Nat → Nat → List (Nat × Bool) → List ((Nat × Bool) × Nat) → List ((Nat × Bool) × Nat)
  | 0, _, _, seen => seen
  | fuel + 1, n, front, seen =>
    if front == [] then seen
    else
      let p := front.foldl (fun (q : List (Nat × Bool) × List ((Nat × Bool) × Nat)) x =>
        (v.neighbours x.1).foldl (fun (q : List (Nat × Bool) × List ((Nat × Bool) × Nat)) y =>
          let up := escUp d x.1 y.2
          let z := (y.2, !up)
          if (up && x.2) || q.2.any (fun w => w.1 == z) then q else (q.1 ++ [z], q.2 ++ [(z, n + 1)])) q) ([], seen)
      v.escBfs d fuel (n + 1) p.1 p.2

/-- Length of a shortest legal route. -/
def View.escDist (v : View) (d : List (Nat × Nat)) (t dst : Nat) (down : Bool) : Option Nat :=
  if t = dst then some 0
  else ((v.escBfs d 1152 0 [(t, down)] [((t, down), 0)]).find? (fun w => w.1.1 == dst)).map (·.2)

/-- The table's output for a router, a destination and a `DOWN` state, and the `DOWN` state beyond it; none: the packet is absorbed. -/
def View.escOut (v : View) (t dst : Nat) (down : Bool) : Option (Nat × Bool) :=
  match (List.range 576).find? v.site with
  | none => none
  | some root =>
    let d := v.depths root
    match v.escDist d t dst down with
    | none => none
    | some n => ((v.neighbours t).find? (fun y =>
        let up := escUp d t y.2
        !(up && down) && v.escDist d y.2 dst (down || !up) == some (n - 1))).map (fun y => (y.1, down || !(escUp d t y.2)))

/-! ### Where a flit goes (R245, R250 to R258) -/

/-- The first hop of the XY route. -/
def xyPort (t d : Nat) : Option Nat := (viaHops t d (siteRow t, siteCol t)).head?.map (·.2)

/-- The next hop of a carried route at router `t`, which the packet has entered by `inPort`: a route that crosses a router twice enters it by
two ports. -/
def viaPort (src dst : Nat) (via : Nat × Nat) (t inPort : Nat) : Option Nat :=
  let hs := viaHops src dst via
  let ins := inPort :: hs.map (fun h => facing h.2)      -- port by which each hop's router was entered
  ((hs.zip (if t = src then ins else 6 :: ins.tail)).find? (fun x => x.1.1 == t && x.2 == inPort)).map (·.1.2)

/-- The next hop on the escape VC, with the `DOWN` state beyond it: XY, or the installed table; a pinned flow never uses the table. -/
def State.escNext (s : State) (t inPort : Nat) (f : Flit) : Option (Nat × Bool) :=
  match f.pkt.pinned, f.pkt.route.via with
  | true, some v => (viaPort f.srcSite f.dstSite v t inPort).map (fun o => (o, f.down))
  | _, _ => match s.escTable with
    | none => (xyPort t f.dstSite).map (fun o => (o, f.down))
    | some m => (s.viewOf m).escOut t f.dstSite f.down

/-- Outputs that bring a packet one hop closer, by live links to live routers; E and W before N and S (R254). -/
def State.productive (s : State) (t d : Nat) : List Nat :=
  [1, 3, 0, 2].filter (fun o => (s.view t).hop (t, o) && (match beyondOf t o with
    | some x => decide (absDiff (siteRow x.1) (siteRow d) + absDiff (siteCol x.1) (siteCol d) < absDiff (siteRow t) (siteRow d) + absDiff (siteCol t) (siteCol d))
    | none => false))

/-- Flits of a buffer (R246). -/
def vcRoom (vc : Nat) : Nat := if vc ≤ 1 then 4 else 8

/-- Flits of a VC that an input port holds, or that are on their way to it: each holds one of its sender's credits. -/
def Mesh.used (m : Mesh) (site port vc : Nat) : Nat :=
  (mget m.bufs (bufKey site port vc) []).length + ((mget m.wires (site * 6 + port) {}).fly.filter (fun f => f.vc == vc)).length

/-- Credits that router `t` holds for a VC of an output (R246). -/
def State.credits (s : State) (t out vc : Nat) : Nat := match beyondOf t out with
  | some x => vcRoom vc - s.mesh.used x.1 (facing out) vc
  | none => 0

/-- Flits queued at router `t` for an output on a VC. -/
def Mesh.queued (m : Mesh) (t out vc : Nat) : Nat :=
  (m.locks.map (fun l => if l.1 / 84 == t && l.2.out == out && l.2.vc == vc then
    ((mget m.bufs l.1 []).filter (fun f => f.pkt == l.2.pkt)).length else 0)).sum

/-- The score of R254: flits queued, and credits in use. -/
def State.score (s : State) (t out vc : Nat) : Nat :=
  s.mesh.queued t out vc + (match beyondOf t out with | some x => s.mesh.used x.1 (facing out) vc | none => 0)

/-- Class, kind and routing of a VC (R245). -/
def vcClass (vc : Nat) : Nat := if vc < 2 then 0 else (vc - 2) / 4 + 1
def vcReply (vc : Nat) : Nat := if vc < 2 then vc else (vc - 2) / 2 % 2
def vcEscape (vc : Nat) : Bool := decide (2 ≤ vc) && vc % 2 == 1

/-- The VC on which a packet is injected (R245, R258). -/
def firstVC (p : Packet) : Nat :=
  if p.cls = 0 then b2n p.reply else 2 + (p.cls - 1) * 4 + 2 * b2n p.reply + b2n p.pinned

/-- What a router does with a head flit. -/
inductive Turn where
  | eject
  | out (port vc : Nat) (down : Bool)
  | wait
  | refuse (status : Nat)      -- absorb the packet with this NACK status
  deriving DecidableEq, Repr

/-- A hop that must be taken as it is: absorbed where it is dead (R253, R256). -/
def State.forced (s : State) (t vc d : Nat) (o : Nat × Bool) : Turn :=
  if (s.view t).hop (t, o.1) then .out o.1 vc o.2 else .refuse (s.deadStatus t d)

/-- The route of a head flit at router `t` (R250, R253 to R258). -/
def State.turn (s : State) (t inPort : Nat) (f : Flit) : Turn :=
  let d := f.dstSite
  if !classOk f.pkt then .refuse 6
  else if t = d then .eject
  else if f.vc < 2 then
    match f.pkt.route.via with
    | some v => (match viaPort f.srcSite d v t inPort with
        | some o => s.forced t f.vc d (o, f.down)
        | none => .refuse 2)
    | none => .refuse 2
  else if vcEscape f.vc then
    match s.escNext t inPort f with
    | some o => s.forced t f.vc d o
    | none => .refuse (s.deadStatus t d)
  else if !s.connected t d then .refuse (s.deadStatus t d)
  else
    let ps := s.productive t d
    if ps.all (fun o => s.credits t o f.vc == 0) then
      -- the escape VC, where it may be entered (R255, R256)
      if s.rd F.fabState_escMode 0 = 2 then .wait
      else match s.escNext t inPort f with
        | some o => if (s.view t).hop (t, o.1) && s.credits t o.1 (f.vc + 1) != 0 then .out o.1 (f.vc + 1) o.2 else .wait
        | none => .wait
    else
      let best := ps.foldl (fun b o => if s.score t o f.vc < s.score t b f.vc then o else b) (ps.headD 0)
      .out best f.vc f.down

/-- Outputs that a router copies a broadcast to: from its own unit or along the row onwards in the row and into the column, along the column
onwards (R263). -/
def State.copyTo (s : State) (t inPort : Nat) : List Nat :=
  (if (beyondOf t inPort).isNone then [0, 1, 2, 3]
  else match inPort with
    | 0 => [2]
    | 2 => [0]
    | 1 => [0, 2, 3]
    | _ => [0, 1, 2]).filter (fun o => (s.view t).hop (t, o))

/-! ### Switching (R246, R247) -/

/-- Does the flit open its packet, or close it? -/
def flitHead (f : Flit) : Bool := f.kind == 0 || f.kind == 3
def flitTail (f : Flit) : Bool := f.kind == 2 || f.kind == 3

/-- What the first flit of an input VC asks of an output, if it does: the output VC and the `DOWN` state beyond. The VC must be free, or hold
this packet, and a credit must be there; a broadcast needs a credit of every output that it is copied to. -/
def State.wants (s : State) (t inPort vc out : Nat) : Option (Nat × Bool × Flit) :=
  let k := bufKey t inPort vc
  match mget s.mesh.bufs k [] with
  | [] => none
  | f :: _ =>
    let taken (o v : Nat) : Bool := s.mesh.locks.any (fun l => l.1 / 84 == t && l.2.out == o && l.2.vc == v)
    match mfind s.mesh.locks k with
    | some l => if l.out == out && s.credits t out l.vc != 0 then some (l.vc, f.down, f) else none
    | none =>
      if f.dstSite = 1023 then
        let outs := s.copyTo t inPort
        if outs.contains out && outs.all (fun o => s.credits t o f.vc != 0 && !taken o f.vc) then some (f.vc, f.down, f) else none
      else match s.turn t inPort f with
        | .out o v d => if o == out && s.credits t out v != 0 && !taken out v then some (v, d, f) else none
        | _ => none

/-- The requests for an output: input port, input VC, output VC, `DOWN` state, flit. -/
def State.requests (s : State) (t out : Nat) : List (Nat × Nat × Nat × Bool × Flit) :=
  (List.range 6).flatMap (fun i => (List.range 14).filterMap (fun v => (s.wants t i v out).map (fun w => (i, v, w.1, w.2.1, w.2.2))))

/-- The weight of a class (R277). -/
def State.arbWeight (s : State) (c : Nat) : Nat :=
  max 1 (if c = 1 then s.rd F.fabArb_wTc1 0 else if c = 2 then s.rd F.fabArb_wTc2 0 else s.rd F.fabArb_wTc3 0)

/-- Of two alternatives that are ready, the one not granted last. -/
def alternate (ready0 ready1 : Bool) (last : Nat) : Nat := if ready0 && ready1 then 1 - last else b2n ready1

/-- The output VC that is granted among those requested, and where the arbitration then stands: TC0 first, its VCs alternating; then the class
whose deficit lasts, else the next one that is ready, which gains its weight; in it reply and request, and adaptive and escape, alternate. -/
def State.pickVC (s : State) (a : OutArb) (vcs : List Nat) : Nat × OutArb :=
  if vcs.contains 0 || vcs.contains 1 then
    let v := alternate (vcs.contains 0) (vcs.contains 1) a.tc0
    (v, { a with tc0 := v })
  else
    let ready (c : Nat) : Bool := vcs.any (fun v => vcClass v == c)
    let stay := a.left != 0 && ready a.cls
    let next := [a.cls % 3 + 1, (a.cls + 1) % 3 + 1, a.cls]
    let c := if stay then a.cls else (next.find? ready).getD a.cls
    let left := (if stay then a.left else s.arbWeight c) - 1
    let inKind (k : Nat) : List Nat := vcs.filter (fun v => vcClass v == c && vcReply v == k)
    let k := alternate (inKind 0 != []) (inKind 1 != []) (mget a.reply c 0)
    let e := alternate ((inKind k).any (fun v => !vcEscape v)) ((inKind k).any vcEscape) (mget a.escape (2 * c + k) 0)
    (2 + (c - 1) * 4 + 2 * k + e,
      { a with cls := c, left := left, reply := mput a.reply c 0 k, escape := mput a.escape (2 * c + k) 0 e })

/-- One flit leaves its buffer and enters the wires of the outputs that it goes to; its packet holds the output VC until its tail. -/
def State.launch (s : State) (t inPort vc : Nat) (outs : List Nat) (ovc : Nat) (down : Bool) (f : Flit) : State :=
  let k := bufKey t inPort vc
  let g := { f with vc := ovc, down := down }
  let m := s.mesh
  let locks := if flitTail f then mdel m.locks k
    else if flitHead f then mset m.locks k { out := outs.headD 0, vc := ovc, pkt := f.pkt } else m.locks
  let wires := outs.foldl (fun w o => match beyondOf t o with
    | some x =>
      let j := x.1 * 6 + facing o
      let y := mget w j {}
      mset w j { y with fly := y.fly ++ [g], sent := (g :: y.sent).take 16 }
    | none => w) m.wires
  { s with mesh := { m with bufs := mput m.bufs k [] (mget m.bufs k []).tail, locks := locks, wires := wires } }

/-- An output grants one flit (R247): among the inputs that request the VC, the first after the last granted. -/
def State.grant (s : State) (t out : Nat) : State :=
  let reqs := s.requests t out
  if reqs == [] then s
  else
    let a := mget s.mesh.arbs (t * 6 + out) {}
    let (v, a1) := s.pickVC a (reqs.map (·.2.2.1))
    let last := mget a1.input v 0
    let order := (List.range 6).map (fun i => (last + i) % 6)
    match order.findSome? (fun i => reqs.find? (fun r => r.1 == i && r.2.2.1 == v)) with
    | none => s
    | some (i, vc, _, down, f) =>
      let s1 := { s with mesh := { s.mesh with arbs := mset s.mesh.arbs (t * 6 + out) { a1 with input := mset a1.input v (i + 1) } } }
      s1.launch t i vc (if f.dstSite = 1023 then s.copyTo t i else [out]) v down f

/-! ### Injection of flits -/

/-- Flit `i` of a packet on a VC (R239, R240). -/
def State.flitOf (s : State) (p : Packet) (vc i : Nat) : Flit :=
  let n := pktFlits p
  { vc := vc, kind := if n = 1 then 3 else if i = 0 then 0 else if i + 1 = n then 2 else 1, bad := p.bad,
    dstSite := if p.dst = .broadcast then 1023 else s.destSite p, srcSite := p.route.site,
    viaRow := (p.route.via.map (·.1)).getD 31, viaCol := (p.route.via.map (·.2)).getD 31, fidx := i, pkt := p }

/-- A packet may leave its unit by this port, as first settled or by another of the unit's routers. -/
def State.portOf (s : State) (p : Packet) (site inPort : Nat) : Bool :=
  (s.ports p.src).contains (site, inPort) && (s.mesh.leftSource p == 0 || p.route.site == site)

/-- The next flit of a VC that an attached unit injects at a port: of the packet that it injected first and has not sent whole. -/
def State.inject (s : State) (site inPort vc : Nat) : State :=
  match s.net.find? (fun p => !p.route.held && firstVC p == vc && s.portOf p site inPort && decide (s.mesh.leftSource p < pktFlits p)) with
  | none => s
  | some p =>
    if vcRoom vc ≤ s.mesh.used site inPort vc || (match p.src with | .tile a => s.arrFenced a | _ => false) then s
    else
      -- a packet that has not moved takes its route from the router it enters
      let q := if p.route.site = site then p else s.markAt site p
      if noRoute q then s
      else
        let f := s.flitOf q vc (s.mesh.leftSource p)
        let j := site * 6 + inPort
        let y := mget s.mesh.wires j {}
        { s with net := s.net.map (fun x => if x = p then q else x),
                 mesh := { s.mesh with wires := mset s.mesh.wires j { y with fly := y.fly ++ [f], sent := (f :: y.sent).take 16 } } }

/-! ### Reception (R239, R240, R261) -/

/-- Wires of a link (R234): payload byte `j` on wires 8j to 8j + 7 with parity wire 2048 + j, the sideband on wires 2304 to 2367. What the
receiver's checks find of wrong wires: a payload byte with odd parity; the number of sideband bits. -/
def parityFails (flips : List Nat) : Bool :=
  (List.range 256).any (fun j => (flips.filter (fun w => w / 8 == j || w == 2048 + j)).length % 2 == 1)
def sideFlips (flips : List Nat) : Nat := (flips.filter (fun w => decide (2304 ≤ w))).length

/-- The wires that a transfer gets wrong, by their part of the link. -/
def wrongWires (payload : List (Fin 2048)) (parity : List (Fin 256)) (side : List (Fin 64)) : List Nat :=
  payload.map (·.val) ++ parity.map (2048 + ·.val) ++ side.map (2304 + ·.val)

/-- A packet in the net changes, and its flits with it. -/
def State.rewrite (s : State) (p q : Packet) : State :=
  let g (f : Flit) : Flit := if f.pkt = p then { f with pkt := q } else f
  { s with
    net := s.net.map (fun x => if x = p then q else x)
    mesh := { s.mesh with
      bufs := s.mesh.bufs.map (fun b => (b.1, b.2.map g))
      locks := s.mesh.locks.map (fun l => (l.1, { l.2 with pkt := if l.2.pkt = p then q else l.2.pkt }))
      wires := s.mesh.wires.map (fun w => (w.1, { w.2 with fly := w.2.fly.map g, sent := w.2.sent.map g }))
      eject := s.mesh.eject.map (fun b => (b.1, b.2.map g)) } }

/-- Bytes of a packet's carried payload with the wrong bits that no check found in flit `i`; those of its header make it malformed (log entry
97). -/
def garbled (p : Packet) (i : Nat) (flips : List Nat) : Option Packet :=
  let base := if i = 0 then 0 else 224 + 256 * (i - 1)
  let skip := if i = 0 then 32 else 0
  let data := flips.filter (fun w => decide (w < 2048))
  if data.any (fun w => decide (w / 8 < skip)) then none
  else
    let b := data.foldl (fun (b : List Byte) w =>
      let j := base + (w / 8 - skip)
      if j < b.length then b.set j (b.getD j 0 ^^^ BitVec.ofNat 8 (2 ^ (w % 8))) else b) (carried p)
    some { p with payload := if p.route.zrc then zrcUnpack p.payload.length b else b, route := { p.route with zrc := false } }

/-- A packet on its way is absorbed at a router. -/
def State.absorbFlit (s : State) (site : Nat) (p : Packet) (st : Nat) : State := (s.take p).absorb site p st

/-- A flit that the receiver takes: the head is routed or its packet absorbed; at its destination it goes to the port of its unit, a broadcast
to the buffer that feeds its copies. -/
def State.acceptFlit (s : State) (site inPort : Nat) (f : Flit) : State :=
  let s := match f.pkt.body with
    | .service _ => if inPort < 4 then { s with host := { s.host with teleBg := s.host.teleBg + 1 } } else s
    | _ => s
  let buffer : State :=
    let k := bufKey site inPort f.vc
    { s with mesh := { s.mesh with bufs := mset s.mesh.bufs k (mget s.mesh.bufs k [] ++ [f]) } }
  if f.dstSite = 1023 then (if s.copyTo site inPort == [] then s else buffer)
  else if f.dstSite = site then { s with mesh := { s.mesh with eject := mset s.mesh.eject site (mget s.mesh.eject site [] ++ [f]) } }
  else match (if flitHead f then s.turn site inPort f else .wait) with
    | .refuse st => s.absorbFlit site f.pkt st
    | _ => buffer

/-- Head flits that wait at a router whose next hop is now dead are absorbed, and so are packets whose body can no longer follow. -/
def State.sweep (s : State) : State :=
  s.each s.mesh.bufs (fun s b =>
    match mget s.mesh.bufs b.1 [] with
    | [] => s
    | f :: _ =>
      let t := b.1 / 84
      if f.dstSite = 1023 then s
      else match mfind s.mesh.locks b.1 with
        | some l => if (s.view t).hop (t, l.out) then s else s.absorbFlit t f.pkt (s.deadStatus t f.dstSite)
        | none => match s.turn t (b.1 / 14 % 6) f with
          | .refuse st => s.absorbFlit t f.pkt st
          | _ => s)

/-- FLIT_ARRIVAL (R261): the oldest flit on the way to an input port, or the one that the sending router's output, or the attached unit, sends
next. A parity error, or a sideband error of one bit, asks for a replay; after three failed replays the flit goes on marked `BAD`, or, with an
uncorrectable sideband, its packet is absorbed and the link is dead. `payload`, `parity` and `side` are the wires that this transfer gets wrong,
`vc` the VC on which an attached unit sends. -/
def execFlitArrival (site : Fin 576) (inPort : Fin 6) (vc : Fin 14) (payload : List (Fin 2048)) (parity : List (Fin 256)) (side : List (Fin 64))
    (s : State) : Out :=
  let from_ := beyondOf site inPort
  let j := site.val * 6 + inPort.val
  let dead := match from_ with
    | some x => !s.siteOk x.1 || s.halted (576 + x.1) || !s.linkOk x.2
    | none => false
  if !s.siteOk site || s.halted (576 + site) || dead then .next s
  else
    let s0 := if (mget s.mesh.wires j {}).fly != [] then s
      else match from_ with
        | some x => s.grant x.1 (facing inPort)
        | none => s.inject site inPort vc
    let w := mget s0.mesh.wires j {}
    let fl := wrongWires payload parity side
    match w.fly with
    | [] => .next s0
    | f :: rest =>
      let nside := sideFlips fl
      let bad := parityFails fl || nside != 0
      let keep (s : State) (w : Wire) : State := { s with mesh := { s.mesh with wires := mset s.mesh.wires j w } }
      let s1 := if bad then (s0.cnt F.fabRtrCnt_parErr site).penalize site 256 else s0
      if !bad then
        let s2 := keep s1 { w with fly := rest, fails := 0 }
        if fl == [] then .next (s2.acceptFlit site inPort f)
        else match garbled f.pkt f.fidx fl with
          | some q => .next ((s2.acceptFlit site inPort f).rewrite f.pkt q)
          | none => .next (s2.absorbFlit site f.pkt 6)
      else if w.fails < 3 then .next ((keep (s1.cnt F.fabRtrCnt_replays site) { w with fails := w.fails + 1 }).penalize site 64)
      else
        let s2 := keep s1 { w with fly := rest, fails := 0 }
        if 2 ≤ nside then
          .next (match from_ with
            | some x => ((s2.absorbFlit site f.pkt 2).declare site x.2).sweep
            | none => s2.absorbFlit site f.pkt 2)
        else if parityFails fl then
          let s3 := ((s2.cnt F.fabRtrCnt_badFwd site).penalize site 4096).acceptFlit site inPort { f with bad := true }
          .next (s3.rewrite f.pkt { f.pkt with bad := true })
        else .next (s2.acceptFlit site inPort f)

/-- LINK_IDLE_TIMEOUT (R272): the router stops using the link at once. -/
def execLinkIdleTimeout (site : Fin 576) (outPort : Fin 6) (s : State) : Out :=
  match beyondOf site outPort with
  | none => .next s
  | some x =>
    if !s.siteOk site || s.halted (576 + site) || s.linkDead x.2 || s.declared site x.2 then .next s
    else .next (s.declare site x.2).sweep

/-- DEAD_MASK (R271, R256, R228): every router applies the generation; escape entry is held until its table is installed. -/
def execDeadMask (pkt : Packet) (s : State) : Out :=
  match pkt.body with
  | .deadMask g =>
    if !s.mayMove pkt || s.inSit then .next s
    else
      let s1 := s.take pkt
      match mfind s1.maskSent g with
      | none => .next s1
      | some (ts, ls) =>
        let none_ := ts = 0 && ls = 0
        let s2 := { s1 with
          maskSent := mdel s1.maskSent g
          localDead := s1.localDead.filter (fun l => !ls.testBit (l % 2048))
          escTable := if none_ then none else s1.escTable }
        let s3 := (s2.putMask ts ls g).wr F.fabState_escMode 0 (if none_ then 0 else 2)
        .next (s3.each ((List.range 64).filter s3.packDark) (fun s p => s.promoteDark pkt p)).sweep
  | _ => .next s

/-- ESCAPE_TABLE_COMPUTED (R256): MN installs the table of the mask in force by drain-then-change. -/
def execEscapeTableComputed (s : State) : Out :=
  let g := s.rd F.fabState_maskGen 0
  if s.rd F.fabState_escMode 0 != 2 || s.changes.any (fun c => c.scope == 64 && c.mask == g) || s.inSit then .next s
  else .next (s.addChange { scope := 64, mask := g })

/-- The TC0-consumer-stall record: at most one per destination per millisecond, standing for those between (R318, R441). -/
def State.stallBark (s : State) (site dst : Nat) : State := s.barkRate 0x000A dst 1000000 { kind := .routerSite, num := site } []

/-- EJECT_GUARD_EXPIRE (R318). A broadcast is absorbed at this router alone. -/
def execEjectGuardExpire (site : Fin 576) (pkt : Packet) (s : State) : Out :=
  if !s.mayMove pkt || pkt.cls != 0 || s.inSit then .next s
  else if pkt.dst = .broadcast then
    if !s.hears pkt site then .next s
    else
      let s1 := { s with mesh := { s.mesh with deaf := (site.val, pkt) :: s.mesh.deaf } }
      .next ((s1.cnt F.fabRtrCnt_absorbed site).stallBark site (1024 + site))
  else if (s.stopsAt pkt).isSome || s.destSite pkt != site.val then .next s
  else .next (((s.take pkt).absorb site pkt 2).stallBark site (srcUnit pkt.dst))

/-- GAP_NOTICE (R265). -/
def execGapNotice (pkt : Packet) (s : State) : Out :=
  match pkt.body, pkt.dst with
  | .gapNotice u d e, .mgmt m =>
    s.arrive pkt (fun s => s.bark 0x000B { kind := .mgmtDie, num := m } [(24, u), (26, d), (28, e)])
  | _, _ => .next s

end Sys2Proof.Machine
end

