-- ==== Sys2Proof/Machine/Packets.lean ====
section
/-! DEFINITION. Requests that reach a tile, and replies that reach a requester (R145, R182 to R185, R259, R260, R265, R382, R473, R531). -/

namespace Sys2Proof.Machine

/-! ### Requests at a tile -/

/-- What a checked write to a tile answers (R182, R186, R259). -/
def State.writeDone (s : State) (p : Packet) (a st : Nat) : State :=
  if st = 0 then (if p.ctrEn then s.ctrAdd a p.ctr 1 else s).ack p
  else if st = 1 then (s.deny a (srcUnit p.src)).nack p 1
  else s.nack p 3

/-- A unit that takes no packet of a type absorbs it as malformed (R259, R262). -/
def State.refusePkt (s : State) (p : Packet) : Out :=
  s.arrive p (fun s => s.absorb (s.destSite p) p 6)

/-- WRITE_PACKET (R182). A span packet that one link die carries to another goes on there (R377). -/
def execWritePacket (pkt : Packet) (s : State) : Out :=
  match pkt.body with
  | .write =>
    match pkt.dst with
    | .tile _ =>
      if s.initWaits pkt pkt.payload.length then .next s
      else s.atTile pkt (fun a s =>
        if pkt.payload.length = 0 || 4096 < pkt.payload.length then s.nack pkt 6
        else
          let r := s.tryWrite a 6 (whoOf pkt a) pkt.off pkt.payload
          r.2.writeDone pkt a r.1)
    | .link _ => s.atLink pkt (fun d s => if pkt.span then s.linkWrite d pkt else s.nack pkt 6)
    | _ => s.refusePkt pkt
  | _ => .next s

/-- Who reads: a link die reads for the array that exports (R382). -/
def readerOf (p : Packet) (a : Nat) : Who := match p.src with
  | .link _ => .own
  | _ => whoOf p a

/-- READ_REQ (R183). -/
def execReadReq (pkt : Packet) (s : State) : Out :=
  match pkt.body with
  | .readReq len =>
    match pkt.dst with
    | .tile _ =>
      if s.initWaits pkt len then .next s
      else s.atTile pkt (fun a s =>
        if len = 0 || 4096 < len then s.nack pkt 6
        else
          let r := s.tryRead a 5 (readerOf pkt a) pkt.off len
          if r.1 = 0 then r.2.2.send { replyTo pkt .readData 0 with payload := r.2.1 }
          else if r.1 = 1 then (r.2.2.deny a (srcUnit pkt.src)).nack pkt 1
          else r.2.2.nack pkt 3)
    | _ => s.refusePkt pkt
  | _ => .next s

/-- ATOMIC (R184, R185): elements of 4 bytes. -/
def execAtomic (pkt : Packet) (s : State) : Out :=
  match pkt.body with
  | .atomic op =>
    match pkt.dst with
    | .tile _ =>
      if s.initWaits pkt pkt.payload.length then .next s
      else s.atTile pkt (fun a s =>
        if !between op 1 2 || pkt.payload.length = 0 || 4096 < pkt.payload.length || pkt.payload.length % 4 != 0 || pkt.off % 4 != 0 then s.nack pkt 6
        else
          let r := s.atomicTile a (whoOf pkt a) pkt.off op pkt.payload
          r.2.writeDone pkt a r.1)
    | _ => s.refusePkt pkt
  | _ => .next s

/-- SIGNAL_PACKET (R145). -/
def execSignalPacket (pkt : Packet) (s : State) : Out :=
  match pkt.body with
  | .signal v =>
    match pkt.dst with
    | .tile _ => s.atTile pkt (fun a s => (s.ctrAdd a pkt.ctr v).ack pkt)
    | _ => s.refusePkt pkt
  | _ => .next s

/-- SERVICE_PACKET (R531): its unit takes it. What scrub, telemetry, firmware and resync do there their own commands say. -/
def execServicePacket (pkt : Packet) (s : State) : Out :=
  match pkt.body with
  | .service _ =>
    match pkt.dst with
    | .tile _ => s.atTile pkt (fun _ s => s.ack pkt)
    | .hub _ => s.atHub pkt (fun _ s => s.ack pkt)
    | _ =>
      s.arrive pkt (fun s =>
        if !classOk pkt then s.absorb (s.destSite pkt) pkt 6
        else if pkt.bad then s.nack pkt 3 else s.ack pkt)
  | _ => .next s

/-! ### Answers -/

/-- What an answer says: a status of R259, and what came with it. -/
structure Answer where
  st : Nat := 0
  result : Nat := 0
  epoch : Nat := 0
  data : List Byte := []
  granted : Bool := true
  deriving DecidableEq, Repr

/-- Statuses that prune a copy of a multicast (R265). -/
def prunes (st : Nat) : Bool := st == 2 || st == 4 || st == 5

/-- The array that a request went to. -/
def targetOf (q : Req) : Nat := match q.pkt.dst with
  | .tile b => b
  | _ => 0x1FF

/-- A bound SEND is answered by its die (R351, R380, R383): a status word without an epoch. -/
def State.boundAnswered (s : State) (a n e : Nat) (q : Req) (st : Nat) : State :=
  let code := match st with
    | 0 => 0
    | 1 => 0x07
    | 3 => 0x09
    | 6 => 0x06
    | _ => 0x08
  let isItem := match q.pkt.body with
    | .channelItem .. => true
    | _ => false
  let peer := if isItem then leNat ((q.pkt.payload.drop 10).take 2) % 512 else 0
  let s1 := if st = 0 then s.cntW F.chEpCnt_items (epKey a e) else s
  s1.endIO a n (statusWord code false false (if st = 0 then q.pkt.payload.length else 0) 0 peer)

/-- A COMMIT's claim is answered (R153). -/
def State.claimAnswered (s : State) (a n : Nat) (f : Flight) (x : Answer) : State :=
  if x.st != 0 then (s.finish a n).failFlight a n (nackStatus x.st)
  else if !x.granted then (s.updFlight a n (fun f => { f with await := .nothing, reads := [] })).updRun a (fun r => { r with superseded := true })
  else match sendPairs s a n f.record with
    | .ok s1 => s1
    | .error e => (e.2.updFlight a n (fun f => { f with await := if f.out == [] then .nothing else .replies })).failFlight a n e.1

/-- Every hub of a gather fails it: its reserve has come back (R132). -/
def State.failAllHubs (s : State) (gid st : Nat) : State :=
  (maskList (s.gather gid).packs 64).foldl (fun s q => s.failGather gid q st) s

/-- A packet of a gather is answered (R132, R219, R269). -/
def State.gatherAnswered (s : State) (gid : Nat) (q : Req) (st : Nat) : State :=
  match q.pkt.body, q.pkt.dst, q.pkt.src with
  | .gatherReserve .., _, _ => if st = 0 then s.sendLists gid else s.failAllHubs gid (nackStatus st)
  | .gatherList .., .hub p, _ => if st = 0 then s else s.failGather gid p (nackStatus st)
  | .bagPart .., _, .hub p =>
    if st = 0 then (s.updGather gid (fun g => { g with bagsDone := g.bagsDone + 1 })).checkGather gid else s.failGather gid p (nackStatus st)
  | _, _, _ => s

/-- A sender takes the reader's epoch from every answer, also from one that comes after its SEND has ended (R295). -/
def State.learnEpoch (s : State) (q : Req) (x : Answer) : State :=
  match q.pkt.body, q.pkt.dst with
  | .channelItem e mode srcEp _ _ _, .tile b =>
    if x.st = 0 && mode != 1 && s.epPeer q.array srcEp == (b, e) then s.updEp q.array srcEp (fun y => { y with peerEpoch := x.epoch }) else s
  | _, _ => s

/-- A request of a record is answered. -/
def State.flightAnswered (s : State) (tag : Nat) (q : Req) (x : Answer) : State :=
  let s := s.learnEpoch q x
  let a := q.array
  let n := q.flight
  match s.flight a n with
  | none => s
  | some f =>
    let s1 := s.updFlight a n (fun f => { f with out := f.out.filter (· != tag) })
    match f.await with
    | .answer e =>
      if (s.ep a e).outs.any (fun o => o.flight == n) then s1.itemAnswered a n x.st x.result x.epoch else s1.boundAnswered a n e q x.st
    | .token => s1.claimAnswered a n f x
    | .gather gid => s1.gatherAnswered gid q x.st
    | .reduce g => (s1.failFlight a n (nackStatus x.st)).redPump g redFuel
    | _ =>
      -- data of a remote LOAD goes to its place
      let w := match q.pkt.body with
        | .readReq _ => if x.st = 0 then writeOwn s1 a 2 q.loc x.data else .ok s1
        | _ => .ok s1
      let s2 := match w with
        | .ok s => s
        | .error e => e.2.failFlight a n e.1
      let s3 := if x.st = 0 then s2
        else if f.copies != 0 && prunes x.st then s2.updFlight a n (fun f => { f with gaps := f.gaps ++ [targetOf q] })
        else s2.failFlight a n (nackStatus x.st)
      let s4 := if q.expert = 0 then s3
        else (s3.updFlight a n (fun f => { f with experts := f.experts.zipIdx.map (fun y =>
          if y.2 + 1 = q.expert then { y.1 with waiting := y.1.waiting - 1, refused := y.1.refused || x.st != 0 } else y.1) })).dispatchGo a n
      s4.updFlight a n (fun f => if f.out == [] && f.await == .replies then { f with await := .nothing, reads := [] } else f)

/-- A leader message comes back unanswered or refused (R159, R500). -/
def State.leaderNack (s : State) (l : Nat) (q : Req) (st : Nat) : State :=
  let lose (s : State) : State :=
    match s.regionOf l with
    | none => s
    | some g => if g.phase == .standby then s.loseStandby l (targetOf q) else s.loseMember l (targetOf q) (nackStatus st)
  match q.pkt.body with
  | .stepMsg (.stepStart ..) =>
    let s1 := match s.regionOf l with
      | some g => if st = 4 then s.setRegion l { g with vacant := true } else s
      | none => s
    lose s1
  | .stepMsg (.cancel _) => lose s
  | .stepMsg (.backupRequest id ..) => s.noBackup l id
  | _ => s

/-- A request of a descriptor is answered; the descriptor completes with its last answer, with a record for each pruned member (R265, R434,
R438). -/
def State.descrAnswered (s : State) (tag : Nat) (q : Req) (i : DId) (x : Answer) : State :=
  match s.descr i with
  | none => s
  | some f =>
    let s1 := if x.st = 0 && x.data != [] then s.descrWrite f q.loc x.data else s
    let many := f.d.opcode == 3 && f.d.ctrEn
    let g := { f with
      rtags := f.rtags.filter (· != tag)
      status := if x.st = 0 || (many && prunes x.st) || f.status != 0 then f.status else nackCompletion x.st
      pruned := if many && prunes x.st then f.pruned ++ [targetOf q] else f.pruned }
    let s2 := s1.updDescr i (fun _ => g)
    if g.rtags != [] then s2
    else
      let s3 := s2.each g.pruned (fun s m => s.bark 0x000B { kind := .hostDie, num := f.port } [(24, m), (26, g.copies - g.pruned.length), (28, g.copies)])
      s3.complete i g.status 0 (if g.status = 0 then f.d.len else 0) 0 s.now

/-- An item's answer meets an array in reset: the item has left its endpoint (R299, R473). -/
def State.itemLost (s : State) (a n : Nat) (x : Answer) : State :=
  match (List.range 64).find? (fun e => (s.ep a e).outs.any (fun o => o.flight == n)) with
  | none => s
  | some e =>
    let s1 := s.updEp a e (fun y => { y with outs := y.outs.filter (fun o => o.flight != n) })
    if x.st = 0 && x.result ≤ 1 then s1 else s1.countDiscard a e

/-- An answer retires its request (R259, R260). Answers to a unit in reset are discarded and counted (R473). -/
def State.answered (s : State) (tag : Nat) (q : Req) (x : Answer) (counted : Bool) : State :=
  let s1 := { s with reqs := mdel s.reqs tag }
  let lost (a : Nat) : Bool := match q.src with
    | .tile _ => s.inReset a
    | .hub p => s.packInReset p
    | _ => false
  if lost q.array then
    let s2 := if counted then s1.cnt F.fabRtrCnt_absorbed (s1.homeOf q.src) else s1
    s2.itemLost q.array q.flight x
  else match q.descr, q.fifo, q.src with
    | some i, _, _ => s1.descrAnswered tag q i x
    | none, some d, _ => s1.ingestAnswered q d.1 d.2 x.st
    | none, none, .link d =>
      (match q.pkt.body with
        | .readReq _ => s1.exportRead q.flight q.loc x.st x.data
        | _ => s1.chunkWritten d tag x.st)
    | none, none, _ => if q.flight = 0 then (if x.st = 0 then s1 else s1.leaderNack q.array q x.st) else s1.flightAnswered tag q x

/-- A reply reaches its requester; one that no request awaits is discarded and counted (R260). A reply that arrived bad says data error. -/
def State.atReply (s : State) (p : Packet) (x : Answer) : Out :=
  if !p.reply then .next s
  else s.arrive p (fun s =>
    match mfind s.reqs p.rtag with
    | none => s.cnt F.fabRtrCnt_absorbed (s.homeOf p.dst)
    | some q =>
      if q.src != p.dst then s.cnt F.fabRtrCnt_absorbed (s.homeOf p.dst)
      else s.answered p.rtag q (if p.bad then { st := 3 } else x) true)

/-- READ_DATA (R183). -/
def execReadData (pkt : Packet) (s : State) : Out :=
  match pkt.body with
  | .readData => s.atReply pkt { data := pkt.payload }
  | _ => .next s

/-- ACK (R259). A token's answer comes back as one. -/
def execAck (pkt : Packet) (s : State) : Out :=
  match pkt.body with
  | .ack _ result epoch => s.atReply pkt { result := result, epoch := epoch }
  | .tokenAnswer g => s.atReply pkt { granted := g }
  | _ => .next s

/-- NACK (R259). -/
def execNack (pkt : Packet) (s : State) : Out :=
  match pkt.body with
  | .nack => s.atReply pkt { st := if pkt.status = 0 then 6 else pkt.status }
  | _ => .next s

/-- REQUEST_TIMEOUT (R260): a NACK of status 0x02 that the injecting unit makes itself. The unit's clock must run (R541). -/
def execRequestTimeout (rtag : Nat) (s : State) : Out :=
  match mfind s.reqs rtag with
  | none => .next s
  | some q =>
    let waits := q.pkt.route.held || s.tc0Wait.any (fun w => w.2.any (fun e => e.2.rtag == rtag))
    if waits || s.dstHalted { q.pkt with dst := q.src } then .next s else .next (s.answered rtag q { st := 2 } false)

end Sys2Proof.Machine
end

