-- ==== Sys2Proof/Machine/Bar.lean ====
section
/-! DEFINITION. A BAR0 access to any register (R18 to R23, R424 to R427, R456). -/

namespace Sys2Proof.Machine

/-! ### Registers whose write is more than storing fields -/

/-- A write that sets bit `b`. -/
def sets (v m b : Nat) : Bool := bitAt v b && bitAt m b

/-- `CH_EP_STATE_n`: `OPEN` with `CLOSE` is a reserved encoding (R313). -/
def State.wrEpState (s : State) (i v m : Nat) : State :=
  let s1 := s.storeReg .chEpState i v m
  let a := i / 64
  let e := i % 64
  if sets v m 48 && sets v m 49 then s1.refuseReg .chEpState i
  else if sets v m 48 then s1.setOpen a e
  else if sets v m 49 then s1.setClose a e
  else s1

/-- `PCK_TBL_CMD` (R210). -/
def State.wrTblCmd (s : State) (v m : Nat) : State :=
  if !sets v m 0 then s.storeReg .pckTblCmd 0 v m
  else if s.tblCmd.isSome then s
  else
    let s1 := s.storeReg .pckTblCmd 0 v m
    let p := s1.rd F.pckTblCmd_pack
    let op := s1.rd F.pckTblCmd_op
    s1.tblCommand op p (match op with
      | 0 => State.tblInstall
      | 1 => State.tblRemove
      | 2 => fun s => s.tblPromote p
      | 3 => fun s => s.tblResync p
      | 4 => fun s => s.tblDemote p
      | 5 => fun s => s.tblDeclare p
      | _ => fun s => s.tblReturn p)

/-- `FAB_GRP_CMD` (R267). -/
def State.wrGrpCmd (s : State) (v m : Nat) : State :=
  if !sets v m 0 then s.storeReg .fabGrpCmd 0 v m
  else s.rw1s F.fabGrpCmd_go (fun s =>
    let s1 := s.storeReg .fabGrpCmd 0 v m
    s1.groupCommand (s1.rd F.fabGrpCmd_op) (s1.rd F.fabGrpCmd_group))

/-- `FAB_PIN_n`: `CLASS` 0 is reserved in a write that leaves `VALID` at 1 (R277). -/
def State.wrPin (s : State) (i v m : Nat) : State :=
  s.storeRegBut .fabPin F.fabPin_class (s.newFld F.fabPin_valid i v m != 0 && s.newFld F.fabPin_class i v m == 0) i v m

/-- `FLD_KEY_STAGE_dw`: a word of the staged key (R361). -/
def State.wrKeyStage (s : State) (i v m : Nat) : State :=
  s.setField { s.field with stage := mset s.field.stage i (mixBits (mget s.field.stage i 0) v m) }

/-- `FLD_KEY_CMD_d` (R361). -/
def State.wrKeyCmd (s : State) (d v m : Nat) : State :=
  let s1 := s.storeReg .fldKeyCmd d v m
  let k := s1.rd F.fldKeyCmd_slot d
  if sets v m 6 then s1.keyCommit d k (s1.rd F.fldKeyCmd_newId d)
  else if sets v m 7 then s1.keyErase d k
  else s1

/-- `THM_CFG`: `CRIT` lies between `TARGET` + 5 and 110 (R535). -/
def State.wrThmCfg (s : State) (v m : Nat) : State :=
  let c := s.newFld F.thmCfg_crit 0 v m
  s.storeRegBut .thmCfg F.thmCfg_crit
    (bitsAt m 8 8 != 0 && (decide (c < s.newFld F.thmCfg_target 0 v m + 5) || decide (110 < c))) 0 v m

/-- `PWR_ALERT_MASK` (R534). -/
def State.wrAlertMask (s : State) (v m : Nat) : State := (s.storeReg .pwrAlertMask 0 v m).syncAlert

/-- `PRT_HALF` (R479). -/
def State.wrHalf (s : State) (v m : Nat) : State :=
  if sets v m 0 then s.rw1s F.prtHalf_stop State.halfStop
  else if sets v m 1 then s.rw1s F.prtHalf_start State.halfStart
  else s

/-- `PRT_CMD` (R446). -/
def State.wrPrtCmd (s : State) (v m : Nat) : State :=
  if !sets v m 4 then s.storeReg .prtCmd 0 v m
  else s.rw1s F.prtCmd_reset (fun s =>
    let s1 := s.storeReg .prtCmd 0 v m
    s1.requestReset 2 (s1.rd F.prtCmd_part))

/-- `PRT_ARR_RST` (R482). -/
def State.wrArrRst (s : State) (v m : Nat) : State :=
  if !sets v m 9 then s.storeReg .prtArrRst 0 v m
  else s.rw1s F.prtArrRst_go (fun s =>
    let s1 := (s.storeReg .prtArrRst 0 v m).wr F.prtArrRst_go 0 1
    s1.requestReset 0 (s1.rd F.prtArrRst_array))

/-- `PRT_PACK_RST` (R482). -/
def State.wrPackRst (s : State) (v m : Nat) : State :=
  if !sets v m 6 then s.storeReg .prtPackRst 0 v m
  else s.rw1s F.prtPackRst_go (fun s =>
    let s1 := (s.storeReg .prtPackRst 0 v m).wr F.prtPackRst_go 0 1
    s1.requestReset 1 (s1.rd F.prtPackRst_pack))

/-- `FLT_FENCE` (R512). How a known-answer run of a returning tile ends is free. -/
def State.wrFence (s : State) (v m : Nat) : State :=
  let s1 := s.storeReg .fltFence 0 v m
  if !sets v m 10 then s1
  else
    let a := s1.rd F.fltFence_array
    if s1.rd F.fltFence_op = 0 then s1.hostFence a
    else
      let (f, s2) := s1.drawFree
      s2.fenceReturn a (f % 2 == 1)

/-- `FLT_SWAP` (R493). -/
def State.wrSwap (s : State) (v m : Nat) : State :=
  if !sets v m 10 then s.storeReg .fltSwap 0 v m
  else s.rw1s F.fltSwap_go (fun s =>
    let s1 := s.storeReg .fltSwap 0 v m
    s1.swapGo (s1.rd F.fltSwap_array) (s1.on F.fltSwap_copy))

/-- `FLT_PACK_CMD` (R497). Whether the short persists and which links stay dead is free. -/
def State.wrPackCmd (s : State) (v m : Nat) : State :=
  if !sets v m 6 then s.storeReg .fltPackCmd 0 v m
  else s.rw1s F.fltPackCmd_retry (fun s =>
    let (f, s1) := (s.storeReg .fltPackCmd 0 v m).drawFree
    let p := s1.rd F.fltPackCmd_pack
    s1.packRetry p (f % 2 == 1) ((packLinks p).filter (fun l => bitAt f (l + 1))))

/-- `FLT_FW_CMD` (R511, R512). -/
def State.wrFwCmd (s : State) (v m : Nat) : State :=
  if sets v m 0 then s.rw1s F.fltFwCmd_activate State.fwActivate
  else if sets v m 1 then s.fwAbandon
  else s

/-- `MON_SIT_CMD` (R537, R555): `RAISE` with `RESUME` is reserved. -/
def State.wrSitCmd (s : State) (source v m : Nat) : State :=
  if sets v m 0 && sets v m 3 then s.refuseReg .monSitCmd 0
  else if sets v m 0 then s.latchRaise source (sets v m 1) (sets v m 2)
  else if sets v m 3 then s.latchResume (sets v m 2)
  else s

/-- `MON_RO_CMD` (R546). -/
def State.wrRoCmd (s : State) (v m : Nat) : State :=
  let s1 := s.storeReg .monRoCmd 0 v m
  let s2 := if sets v m 0 then s1.roGo else s1
  if sets v m 1 then s2.roAbort else s2

/-! ### Any register -/

/-- Where an access comes from: a host port, or the monitor, which sees H0's per-port blocks. -/
inductive Access0 where
  | host (port : Nat)
  | monitor
  deriving DecidableEq, Repr

def Access0.port : Access0 → Nat
  | .host p => p
  | .monitor => 0

def Access0.sitSource : Access0 → Nat
  | .host p => 1 + p
  | .monitor => 3

def Access0.cause : Access0 → ResetCause
  | .host p => if p = 0 then .panelRstH0 else .panelRstH1
  | .monitor => .monitor

/-- A write of the bits `m` of `v` to instance `i` of a register. -/
def State.wrReg (s : State) (by_ : Access0) (r : Reg) (i v m : Nat) : State :=
  match r with
  | .arrFlags => let (f, s1) := s.drawFree; s1.wrFlags i v m (f % 2 == 1)
  | .tmRgn => s.wrRgn (i / 16) (i % 16) v m
  | .pckTblCmd => s.wrTblCmd v m
  | .fabGrpCmd => s.wrGrpCmd v m
  | .fabPin => s.wrPin i v m
  | .chEp => s.wrChEp (i / 64) (i % 64) (mixBits (s.rdReg .chEp i) v m)
  | .chEpState => s.wrEpState i v m
  | .admSrc => s.wrAdmSrc i (mixBits (s.rdReg .admSrc i) v m)
  | .fldFifo => s.wrFifo i v m
  | .fldKeyStage => s.wrKeyStage i v m
  | .fldKeyCmd => s.wrKeyCmd i v m
  | .lnkPort => s.wrLnkPort i v m
  | .lnkBind => s.wrLnkBind i v m
  | .clkCfg => s.wrClkCfg v m
  | .clkMarginCfg => s.wrMarginCfg v m
  | .clkCmd => if sets v m 0 then s.rw1s F.clkCmd_set State.setTime else s
  | .rngEvtBase => s.wrRing .rngEvtBase F.rngEvtCfg_en F.rngEvtCfg_log2Size F.rngEvtBase_addr v m
  | .rngEvtCfg => s.wrRing .rngEvtCfg F.rngEvtCfg_en F.rngEvtCfg_log2Size F.rngEvtBase_addr v m
  | .rngFrxBase => s.wrRing .rngFrxBase F.rngFrxCfg_en F.rngFrxCfg_log2Size F.rngFrxBase_addr v m
  | .rngFrxCfg => s.wrRing .rngFrxCfg F.rngFrxCfg_en F.rngFrxCfg_log2Size F.rngFrxBase_addr v m
  | .rngSqBase => s.wrSqBase i v m
  | .rngSqCfg => s.wrSqCfg i v m
  | .rngCqBase => s.wrCqBase i v m
  | .rngCqCfg => s.wrCqCfg i v m
  | .prtMap => s.wrPrtMap i v m
  | .prtCmd => s.wrPrtCmd v m
  | .prtHalf => s.wrHalf v m
  | .prtArrRst => s.wrArrRst v m
  | .prtPackRst => s.wrPackRst v m
  | .prtPanelRst => if bitsAt m 0 8 = 0xFF && bitsAt v 0 8 = 0xA5 then s.panelReset by_.cause else s
  | .fltFence => s.wrFence v m
  | .fltSwap => s.wrSwap v m
  | .fltPackCmd => s.wrPackCmd v m
  | .fltFwCmd => s.wrFwCmd v m
  | .pwrAlertMask => s.wrAlertMask v m
  | .pwrPack => s.wrPwrPack i v m
  | .thmCfg => s.wrThmCfg v m
  | .monSitCmd => s.wrSitCmd by_.sitSource v m
  | .monRoCmd => s.wrRoCmd v m
  | r => s.storeReg r i v m

/-- The value that a read of a register returns. A read of `CLK_TIME` latches `CLK_TIME_FRAC` (R420). -/
def State.readReg (s : State) (r : Reg) (i : Nat) : Nat × State :=
  match r with
  | .clkTime => (s.time.ns, s.wr F.clkTimeFrac_frac 0 (s.time.frac / 4096))
  | r => (s.rdReg r i, s)

/-! ### Offsets -/

/-- How the block of an offset behaves before ready and in sit (R456, R540). -/
def useOf (off : Nat) : BarUse := if off < 0x30000 then .host else if off / 0x10000 = 0xB then .mon else .unit

/-- The offset lies in the window of an array that is vacant or not fitted. -/
def State.windowShut (s : State) (off : Nat) : Bool :=
  decide (0x1200000 ≤ off) && decide (off < 0x1400000) && s.arrVacant ((off - 0x1200000) / 0x1000)

/-- The MSI-X table and the pending-bit array (R443). -/
def inMsix (off : Nat) : Bool := decide (0x18000 ≤ off) && decide (off < 0x20000)
def inPba (off : Nat) : Bool := decide (0x17000 ≤ off) && decide (off < 0x17100)

/-- A write to one dword of the MSI-X table. A pending vector that is unmasked is signalled. -/
def State.wrMsix (s : State) (p k v : Nat) : State :=
  let vec := k / 4
  let s1 := s.updPort p (fun x => { x with msix := mset x.msix k (v % 2 ^ 32) })
  if k % 4 = 3 && !s1.msixMasked p vec && (s1.hport p).msixPend.contains vec then
    (s1.updPort p (fun x => { x with msixPend := x.msixPend.filter (· != vec) })).put (.msix p vec)
  else s1

/-- The four bytes at an offset take part in no register. -/
def State.reserved4 (s : State) (p off : Nat) : Bool :=
  s.windowShut off || !(inMsix off || inPba off || (regAt p off).isSome)

/-- A 4-byte write. -/
def State.write4 (s : State) (by_ : Access0) (off v : Nat) : State :=
  if s.windowShut off then s
  else if inMsix off then s.wrMsix by_.port ((off - 0x18000) / 4) v
  else match regAt by_.port off with
    | none => s
    | some (r, i, b) => s.wrReg by_ r i (v % 2 ^ 32 * 2 ^ (8 * b)) (0xFFFFFFFF * 2 ^ (8 * b))

/-- An 8-byte write reaches one 64-bit register, or up to two 32-bit registers. -/
def State.write8 (s : State) (by_ : Access0) (off v : Nat) : State :=
  match regAt by_.port off with
  | some (r, i, _) =>
    if (regPlace r).bytes = 8 && !s.windowShut off then s.wrReg by_ r i v fullMask
    else (s.write4 by_ off (v % 2 ^ 32)).write4 by_ (off + 4) (v / 2 ^ 32)
  | none => (s.write4 by_ off (v % 2 ^ 32)).write4 by_ (off + 4) (v / 2 ^ 32)

/-- Size, alignment and offset are as R425 asks. -/
def State.accessOk (s : State) (p off width : Nat) : Bool :=
  (width == 4 || width == 8) && off % width == 0 && !(s.reserved4 p off && (width == 4 || s.reserved4 p (off + 4)))

/-- A BAR0 write that has reached the device. -/
def State.barWrite (s : State) (by_ : Access0) (off width v : Nat) : State :=
  if !s.accessOk by_.port off width then s.cnt F.hifErr_badAcc by_.port
  else if width = 4 then s.write4 by_ off v
  else s.write8 by_ off v

def State.read4 (s : State) (p off : Nat) : Nat × State :=
  if s.windowShut off then (0, s)
  else if inMsix off then
    let k := (off - 0x18000) / 4
    (mget (s.hport p).msix k (if k % 4 = 3 then 1 else 0), s)
  else if inPba off then (listMask (((s.hport p).msixPend.filter (fun v => v / 32 == (off - 0x17000) / 4)).map (· % 32)), s)
  else match regAt p off with
    | none => (0, s)
    | some (r, i, b) =>
      let (v, s1) := s.readReg r i
      (bitsAt v (8 * b) 32, s1)

/-- A BAR0 read that has reached the device: 0, counted, where R425 calls it bad. -/
def State.barRead (s : State) (p off width : Nat) : Nat × State :=
  if !s.accessOk p off width then (0, s.cnt F.hifErr_badAcc p)
  else if width = 4 then s.read4 p off
  else match regAt p off with
    | some (r, i, b) =>
      if (regPlace r).bytes = 8 && b = 0 && !s.windowShut off then s.readReg r i
      else
        let (l, s1) := s.read4 p off
        let (h, s2) := s1.read4 p (off + 4)
        (l + h * 2 ^ 32, s2)
    | none =>
      let (l, s1) := s.read4 p off
      let (h, s2) := s1.read4 p (off + 4)
      (l + h * 2 ^ 32, s2)

/-- REGISTER_WRITE (R18, R425). -/
def execRegisterWrite (port : Fin 2) (offset : BitVec 26) (width : Nat) (value : BitVec 64) (s : State) : Out :=
  s.bar port (useOf offset.toNat) (fun s => s.barWrite (.host port) offset.toNat width value.toNat)

end Sys2Proof.Machine
end

