-- ==== Sys2Proof/Machine/Sweuk.lean ====
section
/-! DEFINITION. The test access port and the Sweuk monitor (R550 to R554). -/

namespace Sys2Proof.Machine

def State.setMon (s : State) (f : MonState → MonState) : State := { s with mon := f s.mon }

/-- `len` bytes of a read-out space from an offset; what the spec does not lay out is free. `none`: no such bytes. -/
def State.roSlice (s : State) (u : UnitId) (space off len : Nat) : Option (List Byte × State) :=
  if !s.roUnitList.contains u || !(unitSpaces u.kind).contains space || s.spaceLen u space < off + len then none
  else match s.spaceBytes u space off len with
    | some b => some (if space = 0 || space = 1 then b else (b.drop off).take len, s)
    | none => some (s.roData (u, space, off, len))

/-! ### The TAP (R550) -/

/-- The housekeeping rail is up. -/
def State.tapUp (s : State) : Bool := s.boot.converting

/-- TAP_IDCODE (R550). -/
def execTapIdcode (s : State) : Out :=
  if !s.tapUp then .next s
  else
    let known := s.stagePassed 0 2 && !s.boot.cfgFailed
    let part := if !known then 0x7200 else if s.is12 then 0x7212 else 0x7216
    let step := if known then s.rd F.idnPart_stepping 0 % 16 else 0
    .next (s.setMon (fun x => { x with tdo := step * 2 ^ 28 + part * 2 ^ 12 + Config.manufacturerId.toNat * 2 + 1 }))

/-- TAP_SIT_ALL (R537, R550). -/
def execTapSitAll (bit : Bool) (s : State) : Out := .next (if !s.tapUp || !bit then s else s.latchRaise 4 true false)

/-- TAP_RESUME (R537, R550). -/
def execTapResume (bits : BitVec 2) (s : State) : Out :=
  .next (if !s.tapUp || !bitAt bits.toNat 0 then s else s.latchResume (bitAt bits.toNat 1))

/-- TAP_RESET (R543, R550). -/
def execTapReset (key : BitVec 8) (s : State) : Out := .next (if !s.tapUp || key != 0xA5 then s else s.panelReset .monitor)

/-- TAP_RO_ADDR (R550). -/
def execTapRoAddr (addr : BitVec 64) (s : State) : Out := .next (if !s.tapUp then s else s.setMon (fun x => { x with tapAddr := addr }))

/-- TAP_RO_DATA (R550). Outside sit it returns 0; a word that the read-out does not reach is free. -/
def execTapRoData (s : State) : Out :=
  if !s.tapUp then .next s
  else
    let a := s.mon.tapAddr.toNat
    let u : UnitId := { numUnit (bitsAt a 0 16) with num := bitsAt a 0 12 }
    let r : Nat × State := if !s.inSit then (0, s)
      else match s.roSlice u (bitsAt a 16 8) (8 * bitsAt a 24 40) 8 with
        | some x => (leNat x.1, x.2)
        | none => (Config.freeNat s.free % 2 ^ 64, { s with free := s.free + 1 })
    .next (r.2.setMon (fun x => { x with tdo := r.1, tapAddr := BitVec.ofNat 64 (a % 2 ^ 24 + (bitsAt a 24 40 + 1) % 2 ^ 40 * 2 ^ 24) }))

/-! ### Forms, privilege and replies (R551, R552, R554) -/

/-- The monitor answers: MN runs, and management stage 0 has been reached. -/
def State.swkUp (s : State) : Bool := !(!s.boot.converting || (s.boot.resetNLow && !s.boot.panelReset) || s.sit.stopped.contains 1228) &&
  s.rd F.idnStage_stage 0 != 0xF

/-- The firmware monitor answers, from management stage 4 onward. -/
def State.swkFw (s : State) : Bool :=
  !s.boot.cfgFailed && (decide (4 < s.rd F.idnStage_stage 0) || (s.rd F.idnStage_stage 0 == 4 && !s.on F.idnStage_failed 0))

/-- A reply of one line. -/
def State.say (s : State) (word : String) (vals : List Nat) : State := s.put (.reply [(word, vals)])

def State.err (s : State) (code : Nat) : State := s.say "err" [code]

/-- A line that names a command: silent while MN is stopped, `err 04` where the form in use does not offer the command, `err 03` without
the privilege it needs, else what the command does. -/
def State.swk (s : State) (rom priv : Bool) (k : State → State) : Out :=
  if !s.swkUp then .next s
  else
    let s1 := s.setMon (fun x => { x with baudTrial := false })
    .next (if !s1.swkFw && !rom then s1.err 4 else if priv && !s1.mon.privileged then s1.err 3 else k s1)

/-- SWK_UNKNOWN_COMMAND (R554). -/
def execSwkUnknownCommand (s : State) : Out := .next (if s.swkUp then s.err 1 else s)

/-! ### Reports -/

/-- Commands by name, with those that the mask-ROM monitor offers first. -/
def romCommands : List String := ["help", "id", "stage", "log", "reset panel", "recload", "baud", "chal", "auth", "logout"]
def fwCommands : List String := ["time", "rd", "wr", "sit", "resume", "ro", "reset array", "reset pack", "clrfail"]

/-- SWK_HELP (R553). -/
def execSwkHelp (s : State) : Out :=
  s.swk true false (fun s => s.put (.reply (("ok", []) :: (romCommands ++ if s.swkFw then fwCommands else []).map (fun c => (c, [])))))

/-- SWK_ID (R553). -/
def execSwkId (s : State) : Out :=
  s.swk true false (fun s =>
    let ver := if s.boot.record.isNone then Config.maskRomVersion.toNat else s.rd F.idnVer_fwVersion 0
    s.say "ok" [s.rd F.idnSerial_serial 0, s.rd F.idnPart_variant 0, s.rd F.idnPart_stepping 0, s.rd F.idnVer_recSeq 0, ver,
      s.rd F.idnState_panelState 0, s.rd F.idnState_phase 0])

/-- SWK_STAGE (R553). -/
def execSwkStage (s : State) : Out :=
  s.swk true false (fun s => s.put (.reply (("ok", []) :: (List.range 28).map (fun u => ("stage", [u, s.rdReg .idnStage u])))))

/-- SWK_TIME (R553). -/
def execSwkTime (s : State) : Out := s.swk false false (fun s => s.say "ok" [s.now, s.rd F.clkStat_timeState 0])

/-- SWK_LOG (R533, R553). -/
def execSwkLog (n : Option Nat) (s : State) : Out :=
  s.swk true false (fun s => s.put (.reply (("ok", []) ::
    (s.faults.barkLog.take (n.getD 16)).reverse.map (fun r => ("log", [r.seq, r.time, r.code, unitNum r.unit, r.count])))))

/-! ### Registers, sit and read-out -/

/-- A BAR0 access of the monitor: a block that does not work now reads 0 and is counted, as through H0 (R456). -/
def State.monShut (s : State) (off : Nat) : Bool := s.barShut 0 (useOf off)

/-- SWK_RD (R425, R553). -/
def execSwkRd (offset : BitVec 26) (width : Nat) (s : State) : Out :=
  s.swk false false (fun s =>
    if width != 4 && width != 8 then s.err 2
    else if s.monShut offset.toNat then (s.cnt F.hifErr_badAcc 0).say "ok" [0]
    else
      let (v, s1) := s.barRead 0 offset.toNat width
      s1.say "ok" [v])

/-- SWK_WR (R425, R553). -/
def execSwkWr (offset : BitVec 26) (value : BitVec 64) (width : Nat) (s : State) : Out :=
  s.swk false true (fun s =>
    if width != 4 && width != 8 then s.err 2
    else if s.monShut offset.toNat then (s.cnt F.hifErr_badAcc 0).say "ok" []
    else (s.say "ok" []).barWrite .monitor offset.toNat width value.toNat)

/-- SWK_SIT (R537, R553). -/
def execSwkSit (all span : Bool) (s : State) : Out :=
  s.swk false false (fun s =>
    let s1 := s.latchRaise 3 all span
    s1.say "ok" [s1.rd F.monSitStat_sitId 0])

/-- SWK_RESUME (R537, R553). -/
def execSwkResume (span : Bool) (s : State) : Out := s.swk false false (fun s => (s.latchResume span).say "ok" [])

/-- Lines of 16 bytes, each with its offset. -/
def dump (off : Nat) (b : List Byte) : List (String × List Nat) :=
  (List.range (ceilDiv b.length 16)).map (fun i => ("line", (off + 16 * i) :: ((b.drop (16 * i)).take 16).map (·.toNat)))

/-- SWK_RO (R548, R553). -/
def execSwkRo (kind n space offset len : Nat) (s : State) : Out :=
  s.swk false true (fun s =>
    if !s.freezeFabric then s.err 4
    else if 8 < kind || 4096 ≤ n || 4096 < len then s.err 2
    else match s.roSlice { numUnit (kind * 4096) with num := n } space offset len with
      | none => s.err 2
      | some x => x.2.put (.reply (("ok", []) :: dump offset x.1)))

/-! ### Resets, failure records, configuration records -/

/-- SWK_RESET_ARRAY (R482, R553): the reply follows when the reset is done. -/
def execSwkResetArray (a : Nat) (s : State) : Out := s.swk false true (fun s => if 512 ≤ a then s.err 2 else s.requestReset 10 a)

/-- SWK_RESET_PACK (R482, R553). -/
def execSwkResetPack (p : Nat) (s : State) : Out := s.swk false true (fun s => if 64 ≤ p then s.err 2 else s.requestReset 11 p)

/-- SWK_RESET_PANEL (R476, R553). -/
def execSwkResetPanel (s : State) : Out := s.swk true true (fun s => (s.say "ok" []).panelReset .monitor)

/-- SWK_CLRFAIL (R491, R553). -/
def execSwkClrfail (p : Nat) (s : State) : Out :=
  s.swk false true (fun s =>
    if 64 ≤ p then s.err 2
    else ({ s with faults := { s.faults with failedFlash := mdel s.faults.failedFlash p } }.wr F.fltReserve_failedSites p 0).say "ok" [])

/-- SWK_RECLOAD (R464, R466, R553): the record is what the bytes received spell. -/
def execSwkRecload (len : Nat) (rec : ConfigRecord) (s : State) : Out :=
  s.swk true true (fun s =>
    let b := recordBytes rec
    let r := parseRecord false b
    if 1048576 < len || b.length != len || !s.recordValid r then s.err 2
    else (s.storeRecord false r).say "ok" [r.recSeq])

/-! ### The line -/

def baudRates : List Nat := [115200, 230400, 460800, 921600, 1000000, 2000000, 3000000]

/-- SWK_BAUD (R553). -/
def execSwkBaud (rate : Nat) (s : State) : Out :=
  s.swk true false (fun s => if !baudRates.contains rate then s.err 2 else (s.say "ok" []).setMon (fun x => { x with newBaud := some rate }))

/-- SWK_BAUD_SWITCH (R553). -/
def execSwkBaudSwitch (s : State) : Out :=
  match s.mon.newBaud with
  | none => .next s
  | some r => .next (if s.swkUp then s.setMon (fun x => { x with baud := r, newBaud := none, baudTrial := true }) else s)

/-- SWK_BAUD_REVERT (R553). -/
def execSwkBaudRevert (s : State) : Out :=
  .next (if s.swkUp && s.mon.baudTrial then s.setMon (fun x => { x with baud := 115200, baudTrial := false }) else s)

/-! ### Privilege (R552) -/

/-- SWK_CHAL (R552). -/
def execSwkChal (s : State) : Out :=
  s.swk true false (fun s =>
    let c := Config.challenge s.mon.chalCount
    (s.setMon (fun x => { x with chal := some c, chalCount := x.chalCount + 1, chalAt := s.time.marker })).say "ok" [c.toNat])

/-- The message that a signature covers. -/
def authMessage (serial : Nat) (c : BitVec 256) : List Byte :=
  ([0x53, 0x57, 0x45, 0x55, 0x4B, 0x31] : List Byte) ++ leBytes 8 serial ++ leBytes 32 c.toNat

/-- The keys that may have signed: the vendor's or the operator's; without a verified record only a vendor key that the line brings. -/
def State.authKeys (s : State) (q : Option (List Byte)) : List (List Byte) :=
  let given := q.toList
  if s.swkFw then match s.boot.record with
    | none => []
    | some r => r.vendorKey.toList ++ given.filter (fun k => r.operatorHash == some (Config.sha512 k))
  else given.filter (fun k => Config.sha512 k == Config.vendorKeyHash)

/-- The challenge in force verifies under some key. -/
def State.authOk (s : State) (sig : List Byte) (q : Option (List Byte)) : Bool := match s.mon.chal with
  | none => false
  | some c => decide (s.time.marker ≤ s.mon.chalAt + 60000000) &&
    (s.authKeys q).any (fun k => Config.ecdsaVerify k sig (authMessage (if s.swkFw then s.rd F.idnSerial_serial 0 else 0) c))

/-- SWK_AUTH (R552). -/
def execSwkAuth (r sg : List Byte) (q : Option (List Byte)) (s : State) : Out :=
  s.swk true false (fun s =>
    if s.mon.authBlocked then s.err 6
    else if r.length != 66 || sg.length != 66 || (!s.swkFw && q.isNone) then s.err 2
    else if s.authOk (r ++ sg) q then (s.setMon (fun x => { x with chal := none, privileged := true, authFails := 0 })).say "ok" []
    else (s.setMon (fun x => { x with chal := none, authFails := x.authFails + 1, authBlocked := decide (3 ≤ x.authFails + 1) })).err 5)

/-- SWK_LOGOUT (R552). -/
def execSwkLogout (s : State) : Out := s.swk true false (fun s => (s.setMon (fun x => { x with privileged := false })).say "ok" [])

/-- SWK_PRIVILEGE_TIMEOUT (R552). -/
def execSwkPrivilegeTimeout (s : State) : Out := .next (s.setMon (fun x => { x with privileged := false }))

/-- SWK_AUTH_UNBLOCK (R552). -/
def execSwkAuthUnblock (s : State) : Out := .next (s.setMon (fun x => { x with authFails := 0, authBlocked := false }))

end Sys2Proof.Machine
end

