-- ==== Sys2Proof/Machine/Dispatch.lean ====
section
/-! DEFINITION. One arm for each command of the table. -/

namespace Sys2Proof.Machine

def exec (i : Instr) (s : State) : Host.Outcome State Fault Refusal :=
  match i with
  | .inputPowerUp => Sys2Proof.Machine.execInputPowerUp s
  | .inputLoss => Sys2Proof.Machine.execInputLoss s
  | .inputRestart => Sys2Proof.Machine.execInputRestart s
  | .resetNLow => Sys2Proof.Machine.execResetNLow s
  | .resetNRelease => Sys2Proof.Machine.execResetNRelease s
  | .stageComplete u failed code seam => Sys2Proof.Machine.execStageComplete u failed code seam s
  | .packRailRaise => Sys2Proof.Machine.execPackRailRaise s
  | .bringupPhaseEnd deadSites deadLinks failedTests => Sys2Proof.Machine.execBringupPhaseEnd deadSites deadLinks failedTests s
  | .knownAnswerDone site pass => Sys2Proof.Machine.execKnownAnswerDone site pass s
  | .arrayReset port a => Sys2Proof.Machine.execArrayReset port a s
  | .packReset port p => Sys2Proof.Machine.execPackReset port p s
  | .partitionReset port n => Sys2Proof.Machine.execPartitionReset port n s
  | .panelReset port key => Sys2Proof.Machine.execPanelReset port key s
  | .resetDrainDone => Sys2Proof.Machine.execResetDrainDone s
  | .halfStop port => Sys2Proof.Machine.execHalfStop port s
  | .halfStart port => Sys2Proof.Machine.execHalfStart port s
  | .hostPortReset port => Sys2Proof.Machine.execHostPortReset port s
  | .functionLevelReset port => Sys2Proof.Machine.execFunctionLevelReset port s
  | .doorbellPoll port => Sys2Proof.Machine.execDoorbellPoll port s
  | .doorbellPageReturn port page => Sys2Proof.Machine.execDoorbellPageReturn port page s
  | .nop port sq k => Sys2Proof.Machine.execNop port sq k s
  | .scratchWrite port sq k data => Sys2Proof.Machine.execScratchWrite port sq k data s
  | .scratchRead port sq k => Sys2Proof.Machine.execScratchRead port sq k s
  | .hostSignal port sq k => Sys2Proof.Machine.execHostSignal port sq k s
  | .hostChannelItem port sq k item => Sys2Proof.Machine.execHostChannelItem port sq k item s
  | .regionStart port sq k => Sys2Proof.Machine.execRegionStart port sq k s
  | .regionStartLegacy port sq k table => Sys2Proof.Machine.execRegionStartLegacy port sq k table s
  | .regionStop port sq k => Sys2Proof.Machine.execRegionStop port sq k s
  | .tableWrite port sq k data => Sys2Proof.Machine.execTableWrite port sq k data s
  | .tableRead port sq k => Sys2Proof.Machine.execTableRead port sq k s
  | .fieldTx port sq k frame => Sys2Proof.Machine.execFieldTx port sq k frame s
  | .fwManifest port sq k m => Sys2Proof.Machine.execFwManifest port sq k m s
  | .fwChunk port sq k data => Sys2Proof.Machine.execFwChunk port sq k data s
  | .fwImageWritten readbackOk => Sys2Proof.Machine.execFwImageWritten readbackOk s
  | .fwRoundEnd missing => Sys2Proof.Machine.execFwRoundEnd missing s
  | .completionEntryWrite port cq => Sys2Proof.Machine.execCompletionEntryWrite port cq s
  | .msixTimeout port cq => Sys2Proof.Machine.execMsixTimeout port cq s
  | .hostReadTimeout port sq k => Sys2Proof.Machine.execHostReadTimeout port sq k s
  | .eventRecordWrite => Sys2Proof.Machine.execEventRecordWrite s
  | .telemetryTick => Sys2Proof.Machine.execTelemetryTick s
  | .doeAttestation port nonce => Sys2Proof.Machine.execDoeAttestation port nonce s
  | .doeCertificate port => Sys2Proof.Machine.execDoeCertificate port s
  | .registerWrite port offset width value => Sys2Proof.Machine.execRegisterWrite port offset width value s
  | .arrFlagsWrite port a value satNow => Sys2Proof.Machine.execArrFlagsWrite port a value satNow s
  | .tmRgnWrite port a n value => Sys2Proof.Machine.execTmRgnWrite port a n value s
  | .regionInitDone a n => Sys2Proof.Machine.execRegionInitDone a n s
  | .chEpWrite port a n value => Sys2Proof.Machine.execChEpWrite port a n value s
  | .chEpOpen port a n => Sys2Proof.Machine.execChEpOpen port a n s
  | .chEpClose port a n => Sys2Proof.Machine.execChEpClose port a n s
  | .admSrcWrite port n value => Sys2Proof.Machine.execAdmSrcWrite port n value s
  | .prtMapWrite port w value => Sys2Proof.Machine.execPrtMapWrite port w value s
  | .rngSqCfgWrite port sq value => Sys2Proof.Machine.execRngSqCfgWrite port sq value s
  | .rngCqCfgWrite port cq value => Sys2Proof.Machine.execRngCqCfgWrite port cq value s
  | .pwrPackWrite port p value => Sys2Proof.Machine.execPwrPackWrite port p value s
  | .clkMarginCfgWrite port value => Sys2Proof.Machine.execClkMarginCfgWrite port value s
  | .lnkPortWrite port n value => Sys2Proof.Machine.execLnkPortWrite port n value s
  | .lnkBindWrite port j value => Sys2Proof.Machine.execLnkBindWrite port j value s
  | .fldFifoWrite port d f value => Sys2Proof.Machine.execFldFifoWrite port d f value s
  | .clkSetCmd port => Sys2Proof.Machine.execClkSetCmd port s
  | .tableInstall port => Sys2Proof.Machine.execTableInstall port s
  | .tableRemove port => Sys2Proof.Machine.execTableRemove port s
  | .tablePromote port p => Sys2Proof.Machine.execTablePromote port p s
  | .tableResync port p => Sys2Proof.Machine.execTableResync port p s
  | .tableDemote port p => Sys2Proof.Machine.execTableDemote port p s
  | .stackDeclareFailed port p => Sys2Proof.Machine.execStackDeclareFailed port p s
  | .stackReturn port p => Sys2Proof.Machine.execStackReturn port p s
  | .tableChangeEffect => Sys2Proof.Machine.execTableChangeEffect s
  | .resyncComplete => Sys2Proof.Machine.execResyncComplete s
  | .stackReady p => Sys2Proof.Machine.execStackReady p s
  | .mcastGroupWrite port g => Sys2Proof.Machine.execMcastGroupWrite port g s
  | .reductionGroupWrite port g => Sys2Proof.Machine.execReductionGroupWrite port g s
  | .mcastGroupClear port g => Sys2Proof.Machine.execMcastGroupClear port g s
  | .reductionGroupClear port g => Sys2Proof.Machine.execReductionGroupClear port g s
  | .keyCommit port d slot newId => Sys2Proof.Machine.execKeyCommit port d slot newId s
  | .keyErase port d slot => Sys2Proof.Machine.execKeyErase port d slot s
  | .lnkRetrainRequest port n => Sys2Proof.Machine.execLnkRetrainRequest port n s
  | .hostFence port a => Sys2Proof.Machine.execHostFence port a s
  | .fenceReturn port a knownAnswer => Sys2Proof.Machine.execFenceReturn port a knownAnswer s
  | .proactiveSwap port a copy => Sys2Proof.Machine.execProactiveSwap port a copy s
  | .packRetry port p shortPersists deadLinks => Sys2Proof.Machine.execPackRetry port p shortPersists deadLinks s
  | .fwActivate port => Sys2Proof.Machine.execFwActivate port s
  | .fwAbandon port => Sys2Proof.Machine.execFwAbandon port s
  | .undefinedOpcode a => Sys2Proof.Machine.execUndefinedOpcode a s
  | .fetchLimitExceeded a => Sys2Proof.Machine.execFetchLimitExceeded a s
  | .loadWeight a => Sys2Proof.Machine.execLoadWeight a s
  | .shadowLoadDone a => Sys2Proof.Machine.execShadowLoadDone a s
  | .loadAcc a => Sys2Proof.Machine.execLoadAcc a s
  | .loadCopy a => Sys2Proof.Machine.execLoadCopy a s
  | .storeAcc a => Sys2Proof.Machine.execStoreAcc a s
  | .storeCopy a => Sys2Proof.Machine.execStoreCopy a s
  | .storeFlags a => Sys2Proof.Machine.execStoreFlags a s
  | .matmul a => Sys2Proof.Machine.execMatmul a s
  | .vecopConvert a => Sys2Proof.Machine.execVecopConvert a s
  | .vecopAdd a => Sys2Proof.Machine.execVecopAdd a s
  | .vecopSub a => Sys2Proof.Machine.execVecopSub a s
  | .vecopMul a => Sys2Proof.Machine.execVecopMul a s
  | .vecopFma a => Sys2Proof.Machine.execVecopFma a s
  | .vecopDiv a => Sys2Proof.Machine.execVecopDiv a s
  | .vecopSqrt a => Sys2Proof.Machine.execVecopSqrt a s
  | .vecopMin a => Sys2Proof.Machine.execVecopMin a s
  | .vecopMax a => Sys2Proof.Machine.execVecopMax a s
  | .vecopAbs a => Sys2Proof.Machine.execVecopAbs a s
  | .vecopNeg a => Sys2Proof.Machine.execVecopNeg a s
  | .vecopCopysign a => Sys2Proof.Machine.execVecopCopysign a s
  | .vecopCompareEq a => Sys2Proof.Machine.execVecopCompareEq a s
  | .vecopCompareLt a => Sys2Proof.Machine.execVecopCompareLt a s
  | .vecopCompareLe a => Sys2Proof.Machine.execVecopCompareLe a s
  | .vecopCompareUnordered a => Sys2Proof.Machine.execVecopCompareUnordered a s
  | .vecopSelect a => Sys2Proof.Machine.execVecopSelect a s
  | .vecopRecip a => Sys2Proof.Machine.execVecopRecip a s
  | .vecopRsqrt a => Sys2Proof.Machine.execVecopRsqrt a s
  | .vecopExp2 a => Sys2Proof.Machine.execVecopExp2 a s
  | .vecopLog2 a => Sys2Proof.Machine.execVecopLog2 a s
  | .vecopExp a => Sys2Proof.Machine.execVecopExp a s
  | .vecopLog a => Sys2Proof.Machine.execVecopLog a s
  | .vecopTanh a => Sys2Proof.Machine.execVecopTanh a s
  | .vecopSigmoid a => Sys2Proof.Machine.execVecopSigmoid a s
  | .vecopSilu a => Sys2Proof.Machine.execVecopSilu a s
  | .vecopGelu a => Sys2Proof.Machine.execVecopGelu a s
  | .vecopAnd a => Sys2Proof.Machine.execVecopAnd a s
  | .vecopOr a => Sys2Proof.Machine.execVecopOr a s
  | .vecopXor a => Sys2Proof.Machine.execVecopXor a s
  | .vecopShiftLeft a => Sys2Proof.Machine.execVecopShiftLeft a s
  | .vecopShiftRightArith a => Sys2Proof.Machine.execVecopShiftRightArith a s
  | .vecopShiftRightLogical a => Sys2Proof.Machine.execVecopShiftRightLogical a s
  | .vecopSaturatingAdd a => Sys2Proof.Machine.execVecopSaturatingAdd a s
  | .vecopSumReduce a => Sys2Proof.Machine.execVecopSumReduce a s
  | .vecopMaxReduce a => Sys2Proof.Machine.execVecopMaxReduce a s
  | .vecopQuantise a => Sys2Proof.Machine.execVecopQuantise a s
  | .vecopReservedFunc a => Sys2Proof.Machine.execVecopReservedFunc a s
  | .gate a => Sys2Proof.Machine.execGate a s
  | .gather a => Sys2Proof.Machine.execGather a s
  | .scatterWrite a => Sys2Proof.Machine.execScatterWrite a s
  | .scatterAddFp32 a => Sys2Proof.Machine.execScatterAddFp32 a s
  | .scatterAddInt32 a => Sys2Proof.Machine.execScatterAddInt32 a s
  | .reduceSumFp32 a => Sys2Proof.Machine.execReduceSumFp32 a s
  | .reduceSumInt32 a => Sys2Proof.Machine.execReduceSumInt32 a s
  | .reduceMaxFp32 a => Sys2Proof.Machine.execReduceMaxFp32 a s
  | .send a => Sys2Proof.Machine.execSend a s
  | .recv a => Sys2Proof.Machine.execRecv a s
  | .recvDeliver a ep => Sys2Proof.Machine.execRecvDeliver a ep s
  | .dispatchSend a => Sys2Proof.Machine.execDispatchSend a s
  | .dispatchReturn a => Sys2Proof.Machine.execDispatchReturn a s
  | .waitCount a => Sys2Proof.Machine.execWaitCount a s
  | .waitCountMet a => Sys2Proof.Machine.execWaitCountMet a s
  | .waitTimeout a => Sys2Proof.Machine.execWaitTimeout a s
  | .signal a => Sys2Proof.Machine.execSignal a s
  | .fence a => Sys2Proof.Machine.execFence a s
  | .commit a => Sys2Proof.Machine.execCommit a s
  | .endStep a => Sys2Proof.Machine.execEndStep a s
  | .recordComplete a n => Sys2Proof.Machine.execRecordComplete a n s
  | .tokenClaim pkt => Sys2Proof.Machine.execTokenClaim pkt s
  | .leaderTrigger a => Sys2Proof.Machine.execLeaderTrigger a s
  | .stepStart pkt => Sys2Proof.Machine.execStepStart pkt s
  | .stepReport pkt => Sys2Proof.Machine.execStepReport pkt s
  | .stepDeadline a => Sys2Proof.Machine.execStepDeadline a s
  | .rerunStart a => Sys2Proof.Machine.execRerunStart a s
  | .cancel pkt => Sys2Proof.Machine.execCancel pkt s
  | .backupTimer a => Sys2Proof.Machine.execBackupTimer a s
  | .backupRequest pkt => Sys2Proof.Machine.execBackupRequest pkt s
  | .backupRefused pkt => Sys2Proof.Machine.execBackupRefused pkt s
  | .commitNotice pkt => Sys2Proof.Machine.execCommitNotice pkt s
  | .backupFailed pkt => Sys2Proof.Machine.execBackupFailed pkt s
  | .attributedFailure a => Sys2Proof.Machine.execAttributedFailure a s
  | .writePacket pkt => Sys2Proof.Machine.execWritePacket pkt s
  | .readReq pkt => Sys2Proof.Machine.execReadReq pkt s
  | .readData pkt => Sys2Proof.Machine.execReadData pkt s
  | .atomic pkt => Sys2Proof.Machine.execAtomic pkt s
  | .ack pkt => Sys2Proof.Machine.execAck pkt s
  | .nack pkt => Sys2Proof.Machine.execNack pkt s
  | .signalPacket pkt => Sys2Proof.Machine.execSignalPacket pkt s
  | .channelItem pkt => Sys2Proof.Machine.execChannelItem pkt s
  | .combiningContribution pkt => Sys2Proof.Machine.execCombiningContribution pkt s
  | .spaceNotice pkt => Sys2Proof.Machine.execSpaceNotice pkt s
  | .openNotice pkt => Sys2Proof.Machine.execOpenNotice pkt s
  | .closeNotice pkt => Sys2Proof.Machine.execCloseNotice pkt s
  | .epochQuery pkt => Sys2Proof.Machine.execEpochQuery pkt s
  | .blockNotice pkt => Sys2Proof.Machine.execBlockNotice pkt s
  | .spillRefill a ep => Sys2Proof.Machine.execSpillRefill a ep s
  | .channelResend a ep => Sys2Proof.Machine.execChannelResend a ep s
  | .channelSuspect a ep => Sys2Proof.Machine.execChannelSuspect a ep s
  | .channelSendTimeout a ep => Sys2Proof.Machine.execChannelSendTimeout a ep s
  | .gatherReserve pkt => Sys2Proof.Machine.execGatherReserve pkt s
  | .gatherList pkt => Sys2Proof.Machine.execGatherList pkt s
  | .bagPart pkt => Sys2Proof.Machine.execBagPart pkt s
  | .reducePart pkt => Sys2Proof.Machine.execReducePart pkt s
  | .redCredit pkt => Sys2Proof.Machine.execRedCredit pkt s
  | .redDone pkt => Sys2Proof.Machine.execRedDone pkt s
  | .beaconBroadcast => Sys2Proof.Machine.execBeaconBroadcast s
  | .beacon j pkt => Sys2Proof.Machine.execBeacon j pkt s
  | .beaconMissedLimit j => Sys2Proof.Machine.execBeaconMissedLimit j s
  | .fenceNotice pkt => Sys2Proof.Machine.execFenceNotice pkt s
  | .deadMask pkt => Sys2Proof.Machine.execDeadMask pkt s
  | .sitPacket j pkt => Sys2Proof.Machine.execSitPacket j pkt s
  | .fabHold => Sys2Proof.Machine.execFabHold s
  | .fabDrainQuery => Sys2Proof.Machine.execFabDrainQuery s
  | .fabDrainReport site => Sys2Proof.Machine.execFabDrainReport site s
  | .fabTableUpdate => Sys2Proof.Machine.execFabTableUpdate s
  | .fabRelease => Sys2Proof.Machine.execFabRelease s
  | .gapNotice pkt => Sys2Proof.Machine.execGapNotice pkt s
  | .servicePacket pkt => Sys2Proof.Machine.execServicePacket pkt s
  | .flitArrival site inPort vc payload parity side => Sys2Proof.Machine.execFlitArrival site inPort vc payload parity side s
  | .linkIdleTimeout site outPort => Sys2Proof.Machine.execLinkIdleTimeout site outPort s
  | .deadLinkReport links sites => Sys2Proof.Machine.execDeadLinkReport links sites s
  | .escapeTableComputed => Sys2Proof.Machine.execEscapeTableComputed s
  | .requestTimeout rtag => Sys2Proof.Machine.execRequestTimeout rtag s
  | .ejectGuardExpire site pkt => Sys2Proof.Machine.execEjectGuardExpire site pkt s
  | .admissionTick => Sys2Proof.Machine.execAdmissionTick s
  | .fieldFrameRx n f => Sys2Proof.Machine.execFieldFrameRx n f s
  | .fieldLinkChange n up speed fec => Sys2Proof.Machine.execFieldLinkChange n up speed fec s
  | .ingestDelivery d f => Sys2Proof.Machine.execIngestDelivery d f s
  | .ingestIdle d f => Sys2Proof.Machine.execIngestIdle d f s
  | .concSnapshotClose d t => Sys2Proof.Machine.execConcSnapshotClose d t s
  | .concSouthPart t => Sys2Proof.Machine.execConcSouthPart t s
  | .concPublishTimeout t => Sys2Proof.Machine.execConcPublishTimeout t s
  | .concRateLearnt d m => Sys2Proof.Machine.execConcRateLearnt d m s
  | .setpointAccept pkt => Sys2Proof.Machine.execSetpointAccept pkt s
  | .portFrameSelect n firstBit => Sys2Proof.Machine.execPortFrameSelect n firstBit s
  | .setpointDeadlinePass n => Sys2Proof.Machine.execSetpointDeadlinePass n s
  | .frameTxDone n txTime => Sys2Proof.Machine.execFrameTxDone n txTime s
  | .setpointDeliver pkt => Sys2Proof.Machine.execSetpointDeliver pkt s
  | .linkLightDetect n => Sys2Proof.Machine.execLinkLightDetect n s
  | .linkTrainDone n failedLanes => Sys2Proof.Machine.execLinkTrainDone n failedLanes s
  | .linkAlignDone n => Sys2Proof.Machine.execLinkAlignDone n s
  | .identityWord n w => Sys2Proof.Machine.execIdentityWord n w s
  | .linkTrainRetry n => Sys2Proof.Machine.execLinkTrainRetry n s
  | .linkLockLoss n => Sys2Proof.Machine.execLinkLockLoss n s
  | .uncorrLimitExceeded n => Sys2Proof.Machine.execUncorrLimitExceeded n s
  | .retrainDone n failedLanes => Sys2Proof.Machine.execRetrainDone n failedLanes s
  | .linkLightLost n => Sys2Proof.Machine.execLinkLightLost n s
  | .uncorrectableCodeword n lost => Sys2Proof.Machine.execUncorrectableCodeword n lost s
  | .spanHeadWord n w => Sys2Proof.Machine.execSpanHeadWord n w s
  | .exportChunk d p => Sys2Proof.Machine.execExportChunk d p s
  | .exportAnswer d p => Sys2Proof.Machine.execExportAnswer d p s
  | .spanControlMessage d p => Sys2Proof.Machine.execSpanControlMessage d p s
  | .exportStart d pkt => Sys2Proof.Machine.execExportStart d pkt s
  | .lnkControlAccept d pkt => Sys2Proof.Machine.execLnkControlAccept d pkt s
  | .creditWord n freed => Sys2Proof.Machine.execCreditWord n freed s
  | .creditWordTimer n => Sys2Proof.Machine.execCreditWordTimer n s
  | .creditResyncTimer n lvc => Sys2Proof.Machine.execCreditResyncTimer n lvc s
  | .delayProbe n peerTime echoed => Sys2Proof.Machine.execDelayProbe n peerTime echoed s
  | .delayProbeTimer n => Sys2Proof.Machine.execDelayProbeTimer n s
  | .quiesceWord n panelId => Sys2Proof.Machine.execQuiesceWord n panelId s
  | .quiesceAcknowledge n panelId => Sys2Proof.Machine.execQuiesceAcknowledge n panelId s
  | .quiesceTimeout n => Sys2Proof.Machine.execQuiesceTimeout n s
  | .failoverTimeout n => Sys2Proof.Machine.execFailoverTimeout n s
  | .spanTmoExpire d xid chunk => Sys2Proof.Machine.execSpanTmoExpire d xid chunk s
  | .sitWord n w => Sys2Proof.Machine.execSitWord n w s
  | .islandFreqChangeDone j step => Sys2Proof.Machine.execIslandFreqChangeDone j step s
  | .droopStretch j st => Sys2Proof.Machine.execDroopStretch j st s
  | .sustainedDroop j => Sys2Proof.Machine.execSustainedDroop j s
  | .clockHold j => Sys2Proof.Machine.execClockHold j s
  | .marginWindow j minPs sensor => Sys2Proof.Machine.execMarginWindow j minPs sensor s
  | .spineMarker latched => Sys2Proof.Machine.execSpineMarker latched s
  | .ref10mInvalid => Sys2Proof.Machine.execRef10mInvalid s
  | .ref10mRestore => Sys2Proof.Machine.execRef10mRestore s
  | .spineTickLoss j => Sys2Proof.Machine.execSpineTickLoss j s
  | .ppsInEdge ts => Sys2Proof.Machine.execPpsInEdge ts s
  | .ppsInMissing => Sys2Proof.Machine.execPpsInMissing s
  | .ppsOutPulse => Sys2Proof.Machine.execPpsOutPulse s
  | .heartbeatTimeout site => Sys2Proof.Machine.execHeartbeatTimeout site s
  | .arrayFence a reason => Sys2Proof.Machine.execArrayFence a reason s
  | .substitution p knownAnswer => Sys2Proof.Machine.execSubstitution p knownAnswer s
  | .flashMapWrite p => Sys2Proof.Machine.execFlashMapWrite p s
  | .serviceChainReport p r => Sys2Proof.Machine.execServiceChainReport p r s
  | .stateConflict u row => Sys2Proof.Machine.execStateConflict u row s
  | .neighbourTestDone u pass => Sys2Proof.Machine.execNeighbourTestDone u pass s
  | .packShort p => Sys2Proof.Machine.execPackShort p s
  | .cellFail south c => Sys2Proof.Machine.execCellFail south c s
  | .healthDecay => Sys2Proof.Machine.execHealthDecay s
  | .scratchpadScrub site line => Sys2Proof.Machine.execScratchpadScrub site line s
  | .correctedWriteback site line => Sys2Proof.Machine.execCorrectedWriteback site line s
  | .hubScrub p block => Sys2Proof.Machine.execHubScrub p block s
  | .hubCorrectedWriteback p block => Sys2Proof.Machine.execHubCorrectedWriteback p block s
  | .stackTempRead p reading => Sys2Proof.Machine.execStackTempRead p reading s
  | .powerLoop pIn vIn iIn packPower => Sys2Proof.Machine.execPowerLoop pIn vIn iIn packPower s
  | .capRaise j loop => Sys2Proof.Machine.execCapRaise j loop s
  | .brakeEngage => Sys2Proof.Machine.execBrakeEngage s
  | .brakeRelease => Sys2Proof.Machine.execBrakeRelease s
  | .packPowerSample p power => Sys2Proof.Machine.execPackPowerSample p power s
  | .voltageLoop p minPs => Sys2Proof.Machine.execVoltageLoop p minPs s
  | .tileTempSample site raw hotFor1ms => Sys2Proof.Machine.execTileTempSample site raw hotFor1ms s
  | .guardCapRaise site => Sys2Proof.Machine.execGuardCapRaise site s
  | .sensorDisagree site spot => Sys2Proof.Machine.execSensorDisagree site spot s
  | .sensorAgreeClear site spot => Sys2Proof.Machine.execSensorAgreeClear site spot s
  | .thermalPredict tilePower hubPower => Sys2Proof.Machine.execThermalPredict tilePower hubPower s
  | .thermalRefit site => Sys2Proof.Machine.execThermalRefit site s
  | .sitPinLow => Sys2Proof.Machine.execSitPinLow s
  | .sitPinHigh => Sys2Proof.Machine.execSitPinHigh s
  | .monSitRaise port all span => Sys2Proof.Machine.execMonSitRaise port all span s
  | .monSitResume port span => Sys2Proof.Machine.execMonSitResume port span s
  | .islandSafeStop j => Sys2Proof.Machine.execIslandSafeStop j s
  | .sitResume => Sys2Proof.Machine.execSitResume s
  | .readoutGo port => Sys2Proof.Machine.execReadoutGo port s
  | .readoutAbort port => Sys2Proof.Machine.execReadoutAbort port s
  | .readoutStreamEnd => Sys2Proof.Machine.execReadoutStreamEnd s
  | .tapIdcode => Sys2Proof.Machine.execTapIdcode s
  | .tapSitAll bit => Sys2Proof.Machine.execTapSitAll bit s
  | .tapResume bits => Sys2Proof.Machine.execTapResume bits s
  | .tapReset key => Sys2Proof.Machine.execTapReset key s
  | .tapRoAddr addr => Sys2Proof.Machine.execTapRoAddr addr s
  | .tapRoData => Sys2Proof.Machine.execTapRoData s
  | .swkHelp => Sys2Proof.Machine.execSwkHelp s
  | .swkId => Sys2Proof.Machine.execSwkId s
  | .swkStage => Sys2Proof.Machine.execSwkStage s
  | .swkTime => Sys2Proof.Machine.execSwkTime s
  | .swkLog n => Sys2Proof.Machine.execSwkLog n s
  | .swkRd offset width => Sys2Proof.Machine.execSwkRd offset width s
  | .swkWr offset value width => Sys2Proof.Machine.execSwkWr offset value width s
  | .swkSit all span => Sys2Proof.Machine.execSwkSit all span s
  | .swkResume span => Sys2Proof.Machine.execSwkResume span s
  | .swkRo kind n space offset len => Sys2Proof.Machine.execSwkRo kind n space offset len s
  | .swkResetArray a => Sys2Proof.Machine.execSwkResetArray a s
  | .swkResetPack p => Sys2Proof.Machine.execSwkResetPack p s
  | .swkResetPanel => Sys2Proof.Machine.execSwkResetPanel s
  | .swkClrfail p => Sys2Proof.Machine.execSwkClrfail p s
  | .swkRecload len rec => Sys2Proof.Machine.execSwkRecload len rec s
  | .swkBaud rate => Sys2Proof.Machine.execSwkBaud rate s
  | .swkBaudSwitch => Sys2Proof.Machine.execSwkBaudSwitch s
  | .swkBaudRevert => Sys2Proof.Machine.execSwkBaudRevert s
  | .swkChal => Sys2Proof.Machine.execSwkChal s
  | .swkAuth r sg q => Sys2Proof.Machine.execSwkAuth r sg q s
  | .swkLogout => Sys2Proof.Machine.execSwkLogout s
  | .swkPrivilegeTimeout => Sys2Proof.Machine.execSwkPrivilegeTimeout s
  | .swkAuthUnblock => Sys2Proof.Machine.execSwkAuthUnblock s
  | .spineTickReturn j => Sys2Proof.Machine.execSpineTickReturn j s
  | .hostLinkUp port speed width flit => Sys2Proof.Machine.execHostLinkUp port speed width flit s
  | .busMasterEnableChange port enable d3hot => Sys2Proof.Machine.execBusMasterEnableChange port enable d3hot s
  | .undefinedDescriptorOpcode port sq k => Sys2Proof.Machine.execUndefinedDescriptorOpcode port sq k s
  | .swkUnknownCommand => Sys2Proof.Machine.execSwkUnknownCommand s
  | .timeSourceLost => Sys2Proof.Machine.execTimeSourceLost s

end Sys2Proof.Machine
end

