-- ==== Sys2Proof/Safety.lean ====
section
/-! DEFINITION. The words in which claims about the panel are stated: the canonical form of its memories, and what two states have in
common. -/

namespace Sys2Proof

/-- Bits of a written value that fall to a field. -/
def Fld.of (f : Fld) (v : Nat) : Nat := Machine.bitsAt v f.lo f.w

end Sys2Proof

namespace Sys2Proof.Machine

/-- The scratchpads and the stacks are in canonical form: addresses rise, and no listed byte is the 0 that an unlisted one reads as. -/
abbrev State.MemOk (s : State) : Prop := Memory.wf s.mem = true ∧ Memory.wf s.stack = true

/-- A byte of a site's scratchpad. -/
def State.byte (s : State) (site x : Nat) : Byte := Memory.read s.mem (cellKey site x)

/-- Every register field outside a list reads in `t` as it does in `s`. -/
def State.RegsBut (s t : State) (l : List (Fld × Nat)) : Prop :=
  ∀ f i, (∀ p ∈ l, fldKey f i ≠ fldKey p.1 p.2) → t.rd f i = s.rd f i

/-- `t` is `s` but for the listed register fields. -/
def State.OnlyRegs (s t : State) (l : List (Fld × Nat)) : Prop := { t with regs := s.regs } = s ∧ s.RegsBut t l

/-- Scratchpads, stacks and the check bits of both read alike, and the queue of waiting commands is the same. -/
abbrev State.MemSame (s t : State) : Prop :=
  t.mem = s.mem ∧ t.flips = s.flips ∧ t.stack = s.stack ∧ t.stackErr = s.stackErr ∧ t.pending = s.pending

/-- The newest record of the flash log of bark records: a bark of this code about this unit, at the time and with the sequence number
that `s` has. -/
abbrev State.Barked (s t : State) (code : Nat) (u : UnitId) (detail : List (Nat × Nat)) : Prop :=
  t.faults.barkLog.head? = some { kind := 0, code := code, seq := s.host.evSeq, time := s.now, unit := u, detail := detail }

/-- Fields of the registers that count records which the panel could not hold. -/
def lostRecords : List (Fld × Nat) := [(F.rngEvtStat_lostTel, 0), (F.rngEvtStat_lostBark, 0)]

/-- A BAR0 access to a block of use `u` through a port reaches its register. -/
abbrev State.Open (s : State) (port : Nat) (u : BarUse) : Prop := s.barUp port = true ∧ s.barShut port u = false

/-- A written value gives every RW field of a register a defined encoding. -/
abbrev Legal (r : Reg) (v : Nat) : Prop := ∀ f ∈ regFields r, f.acc = .rw → f.min ≤ f.of v ∧ f.of v ≤ f.max

/-- Every RW field of an instance of a register reads as the value gives it. -/
abbrev State.Holds (t : State) (r : Reg) (i v : Nat) : Prop := ∀ f ∈ regFields r, f.acc = .rw → t.rd f i = f.of v

/-- The fields of one instance of a register. -/
def fieldsOf (r : Reg) (i : Nat) : List (Fld × Nat) := (regFields r).map (fun f => (f, i))

/-- A write to the register is no more than its fields' access codes say. -/
def Plain (r : Reg) : Prop := ∀ (s : State) (by_ : Access0) (i v m : Nat), s.wrReg by_ r i v m = s.storeReg r i v m

/-- The commands that are a write through a host port to a block that neither bring-up nor sit leaves open, with their port. -/
def unitWrites (port : Fin 2) (a : Fin 512) (w : Fin 4) (p : Fin 64) (n : Fin 8) (j : Fin 256) (v : BitVec 64) : List Instr :=
  [.chEpWrite port a 0 v, .chEpOpen port a 0, .chEpClose port a 0, .prtMapWrite port w v, .pwrPackWrite port p v,
   .clkMarginCfgWrite port 0, .lnkPortWrite port n v, .lnkBindWrite port j v, .fldFifoWrite port 0 0 v, .clkSetCmd port] ++
  [.tableInstall port, .tableRemove port, .tablePromote port p, .tableResync port p, .tableDemote port p, .stackDeclareFailed port p,
   .stackReturn port p, .lnkRetrainRequest port n, .hostFence port a, .proactiveSwap port a false] ++
  [.tmRgnWrite port a 0 v, .arrFlagsWrite port a 0 false, .admSrcWrite port 0 0, .arrayReset port a, .packReset port p, .partitionReset port 0,
   .panelReset port 0xA5, .fwActivate port, .fwAbandon port, .halfStop port, .halfStart port]

/-- What a power-up or a whole-panel reset leaves: every register at its reset value but the state of `SIT_N` and what is named,
memories zero, and what flash keeps. -/
def State.FreshFrom (s t : State) (but : List (Fld × Nat)) : Prop :=
  (∀ f i, (∀ p ∈ (F.monSitStat_pin, 0) :: but, fldKey f i ≠ fldKey p.1 p.2) → t.rd f i = fldReset f i) ∧ t.mem = [] ∧ t.flips = [] ∧
  t.stack = [] ∧ t.arrays = [] ∧ t.regions = [] ∧ t.net = [] ∧ t.boot.recA = s.boot.recA ∧ t.boot.recB = s.boot.recB ∧
  t.boot.overlay = s.boot.overlay ∧ t.boot.floor = s.boot.floor ∧ t.boot.seqEpoch = s.boot.seqEpoch ∧
  t.faults.barkLog = s.faults.barkLog ∧ t.faults.failedFlash = s.faults.failedFlash ∧ t.pending = s.pending

/-- The power panel's fields that a whole-panel reset leaves (R36), and those that show the packs which it holds off. -/
def State.panelFields (s : State) : List (Fld × Nat) :=
  [(F.pwrIn_cellsN, 0), (F.pwrIn_cellsS, 0), (F.fltPackDark_dark, 0), (F.pwrStat_brake, 0), (F.pwrAlert_cond, 0)] ++
  ((maskList (s.rd F.fltPackDark_dark 0) 64).flatMap packIslands).map (fun i => (F.clkIsl_dark, i))

/-- A whole-panel reset with this cause has come. -/
def State.PanelReset (s t : State) (cause : Nat) : Prop :=
  t.rd F.idnCause_cause 0 = cause ∧ t.rd F.pwrIn_cellsN 0 = s.rd F.pwrIn_cellsN 0 ∧ t.rd F.pwrIn_cellsS 0 = s.rd F.pwrIn_cellsS 0 ∧
  t.rd F.fltPackDark_dark 0 = s.rd F.fltPackDark_dark 0 ∧ t.rd F.pwrStat_brake 0 = s.rd F.pwrStat_brake 0 ∧
  s.FreshFrom t ((F.idnCause_cause, 0) :: s.panelFields)

/-- The state in which a whole-panel reset needs no link quiesce: conversion runs, none is under way, no link port is UP or quiescing. -/
abbrev State.CanResetAtOnce (s : State) : Prop :=
  s.boot.converting = true ∧ s.boot.panelReset = false ∧ ∀ n < 8, s.lstate n ≠ 5 ∧ s.lstate n ≠ 7

/-- The stage that seam unit `u` now ends finds more failed wires than spares, or a pair without a working wire (R31, R32, R235). -/
abbrev State.SeamBad (s : State) (u : Nat) (test : SeamTest) : Prop :=
  let t := if s.nextStage u = 0 then test else mget s.boot.seams (u - 4) {}
  4 ≤ u ∧ ((s.nextStage u = 1 ∧ seamTooMany t = true) ∨ (s.nextStage u = 2 ∧ seamPairGone t = true))

/-- A descriptor of `s` has its completion entry among those that its completion ring holds in `t` (R438). -/
def State.Completed (s t : State) (f : FDescr) (status detail v0 v1 : Nat) : Prop :=
  let c := s.rd F.rngSqCfg_cq (sqI f.port f.sq)
  ∃ e : CEntry, mget (t.hport f.port).held c [] = mget (s.hport f.port).held c [] ++ [(f.k, e)] ∧ e.userTag = f.d.userTag ∧ e.sq = f.sq ∧
    e.slot = f.k % 2 ^ s.rd F.rngSqCfg_log2Size (sqI f.port f.sq) ∧ e.status = status ∧ e.detail = detail ∧ e.value0 = v0 % 2 ^ 32 ∧
    e.value1 = v1 % 2 ^ 32

/-- The descriptor is one whose completion writes an entry whatever its status. -/
abbrev FDescr.Loud (f : FDescr) : Prop := f.d.quiet = false ∧ f.discard = false

/-- A table command has started: it stands as the pending one, behind the gathers in progress on these handles. -/
def State.TblStarted (s t : State) (op pack : Nat) (d : TableDesc) (handles : List Nat) : Prop :=
  t.tblCmd = some { op := op, pack := pack, desc := d,
                    before := (s.gathers.filter (fun g => handles.contains g.2.table && g.2.inProgress)).map (·.1) } ∧
  t.rd F.pckTblCmd_go 0 = 1 ∧ t.rd F.pckTblCmd_op 0 = op ∧ { t with regs := s.regs, tblCmd := s.tblCmd } = s ∧
  s.RegsBut t [(F.pckTblCmd_op, 0), (F.pckTblCmd_pack, 0), (F.pckTblCmd_go, 0)]

/-- A table command was refused with a status. -/
abbrev State.TblRefused (s t : State) (st : Nat) : Prop :=
  t.rd F.pckTblCmd_status 0 = st ∧ t.rd F.pckTblCmd_go 0 = 0 ∧
  s.OnlyRegs t [(F.pckTblCmd_op, 0), (F.pckTblCmd_pack, 0), (F.pckTblCmd_go, 0), (F.pckTblCmd_status, 0)]

/-- A leader has sent a message to an array, and awaits its acknowledgement. -/
def State.Told (s t : State) (l m : Nat) (b : StepMsg) : Prop :=
  ∃ n q, mfind t.reqs n = some q ∧ s.nextTag ≤ n ∧ q.src = .tile l ∧ q.pkt.dst = .tile m ∧ q.pkt.body = .stepMsg b

/-- A region has begun: leader `l` runs the table and the members of `g`, under the next serial. -/
def State.Begun (s t : State) (l : Nat) (ms : List Nat) (g : Region) : Prop :=
  ∃ h, t.regionOf l = some h ∧ h.members = g.members ∧ h.table = g.table ∧ h.legacy = g.legacy ∧ h.entry = 0 ∧
    h.serial = (s.serial + 1) % 2 ^ 32 ∧ t.serial = h.serial ∧ (∀ m ∈ ms, (t.arr m).member = some (l, h.serial)) ∧
    (g.now.trigEn = true → h.phase = .trigger ∧ h.stepId = 0) ∧
    (g.now.trigEn = false → h.phase = .running ∧ h.stepId = 1 ∧ h.attempt = 0 ∧
      ∀ m ∈ g.list, s.Told t l m (.stepStart 1 0 g.now.entry h.serial g.now.ctrClear h.deadline))

/-- The packet is in the net and can reach array `a`, which can take it: nothing holds it back or stops it on its way, its class is its type's, `a`
is in service, unfenced, in no reset, and its island runs (R248, R253, R259, R262, R273, R473, R539). -/
abbrev State.Takes (s : State) (p : Packet) (a : Nat) : Prop :=
  p ∈ s.net ∧ p.dst = .tile a ∧ a < 512 ∧ s.mayMove p = true ∧ s.stopsAt p = none ∧ s.dstHalted p = false ∧ classOk p = true ∧
  s.arrVacant a = false ∧ s.arrFenced a = false ∧ s.inReset a = false ∧ p.bad = false

/-- The net after a packet has been taken and, where it wants an answer, this answer sent. -/
def State.netAnswered (s : State) (p : Packet) (b : PktBody) (status : Nat) : List Packet :=
  s.net.erase p ++ (if p.noack then [] else s.entering (replyTo p b status))

/-- The packet has left the net and the mesh, and its answer, where it wants one, has entered the net. -/
abbrev State.Answered (s t : State) (p : Packet) (b : PktBody) (status : Nat) : Prop :=
  t.net = s.netAnswered p b status ∧ t.mesh = s.mesh.drop p

/-- Admission lets the message through at once: its source's budget covers it, and nothing waits before it (R320, R321, R324). -/
def State.Admits (s : State) (p : Packet) : Prop := match tc0Source p.src with
  | none => False
  | some i => s.tc0Nack i p = 0 ∧ mget s.tc0Wait i [] = [] ∧ s.chargeOf p * 4096 ≤ s.bucket i

/-- What admission of source `i` counts. -/
def tc0Fields (i : Nat) : List (Fld × Nat) := [(F.admShape_denied, i), (F.admShape_waits, i)]

/-- The message has been offered to the fabric by its source: one that is admitted has entered the net. -/
abbrev State.Offered (s t : State) (p : Packet) : Prop := s.Admits p → t.net = s.net ++ s.entering p

/-- A message that the management node broadcasts. -/
def mnMessage (b : PktBody) : Packet := { body := b, cls := 0, noack := true, dst := .broadcast, src := .mgmt 0 }

/-- The packet has left the net and the mesh; nothing answers it. -/
abbrev State.Took (s t : State) (p : Packet) : Prop := t.net = s.net.erase p ∧ t.mesh = s.mesh.drop p

/-- The packet is in the net and can reach hub `h`, which can take it. -/
abbrev State.ReachesHub (s : State) (p : Packet) (h : Nat) : Prop :=
  p ∈ s.net ∧ p.dst = .hub h ∧ h < 64 ∧ s.mayMove p = true ∧ s.stopsAt p = none ∧ s.dstHalted p = false ∧ classOk p = true ∧
  s.packFitted h = true ∧ s.packDark h = false ∧ s.faults.hubFenced.contains h = false ∧ s.packInReset h = false ∧ p.bad = false

/-- The packet is a reply in the net, and its requester can take it as the answer to request `q` of array `a`, whose record `f` is the one in
flight and waits for this answer alone. -/
abbrev State.LastReply (s : State) (p : Packet) (q : Req) (a : Nat) (f : Flight) : Prop :=
  p ∈ s.net ∧ p.reply = true ∧ p.dst = .tile a ∧ a < 512 ∧ s.mayMove p = true ∧ s.stopsAt p = none ∧ s.dstHalted p = false ∧
  p.bad = false ∧ mfind s.reqs p.rtag = some q ∧ q.src = .tile a ∧ q.array = a ∧ q.flight = f.n ∧ q.flight ≠ 0 ∧ q.descr = none ∧ q.fifo = none ∧
  q.expert = 0 ∧ s.inReset a = false ∧ (s.arr a).flights = [f] ∧ f.await = .replies ∧ f.out = [p.rtag]

/-- Request `tag` is retired; the array's one flight is now `f`, its step `run`. -/
def State.Retired (s t : State) (a tag : Nat) (f : Flight) (run : Option StepRun) : Prop :=
  mfind t.reqs tag = none ∧ (∀ b, b ≠ a → t.arr b = s.arr b) ∧ t.arr a = { s.arr a with flights := [f], run := run }

/-- The packet of an item of endpoint `e`, for its peer. -/
def State.itemPacket (s : State) (a e epoch tag : Nat) (bytes : List Byte) : Packet :=
  { body := .channelItem (s.epPeer a e).2 (if s.epRole a e = 6 then 2 else 0) e epoch 0 0, reply := s.epRole a e == 2,
    pinned := s.epRole a e == 6, dst := .tile (s.epPeer a e).1, src := .tile a, payload := bytes, rtag := tag }

/-- The endpoint's item `o` is on its way again, under a fresh request tag; its record's source is free. -/
def State.Resent (s t : State) (net : List Packet) (a e epoch : Nat) (o : OutItem) : Prop :=
  t.net = net ++ s.entering (s.itemPacket a e epoch s.nextTag o.data) ∧ t.nextTag = s.nextTag + 1 ∧
  (t.ep a e).outs = [{ o with rtag := s.nextTag }] ∧ (∀ b, b ≠ a → t.arr b = s.arr b) ∧
  t.arr a = { s.arr a with flights := (s.arr a).flights.map (fun f => if f.n = o.flight then { f with reads := [] } else f) }

/-- A CHANNEL_CREDIT from endpoint `e` of array `a`. -/
def creditPacket (a e : Nat) (u : Nat × Nat) (op epoch : Nat) : Packet :=
  { body := .channelCredit u.2 e op epoch, reply := true, noack := true, dst := .tile u.1, src := .tile a }

/-- Every piece of these bytes has entered the net, as a WRITE packet from `a` to `b` at its offset, with some request tag (R117). -/
abbrev State.Carries (s t : State) (a b off : Nat) (bytes : List Byte) : Prop :=
  ∀ q ∈ packetsOf off bytes, ∃ n, s.entering { body := .write, dst := .tile b, src := .tile a, off := q.1, payload := q.2, rtag := n } ⊆ t.net

/-- A contribution's elements as they are added: FP32 or INT32 (R303). -/
def wideElems (fmt n : Nat) (bytes : List Byte) : List Byte :=
  packElems 32 ((unpackElems (fmtWidth fmt) n bytes).map (fun v =>
    if fmt = 2 ∨ fmt = 3 then (fp32.pack .rne {} 0 (elemVal fmt v 127)).1 else v))

/-- Nothing can move in a round: some member has not issued, a contribution can still count, and every member that has issued waits for a part
from below. -/
abbrev State.RoundWaits (s : State) (g : Nat) (x : RedRound) : Prop :=
  (∃ m ∈ s.redAlive g, mfind x.params m = none) ∧ s.redLive g ≠ [] ∧
  ∀ m ∈ s.redAlive g, mfind x.contrib m = none ∨
    (mget x.sent m 0 < x.chunks m ∧ redNode x (s.redLive g) m (mget x.sent m 0) (redTop (s.redAlive g) m) = none)

/-- Sit has been raised from a source: entered, with its number, its kind and the time, and every island is being told (R537, R539). -/
abbrev State.SitRaised (s t : State) (source : Nat) (all : Bool) : Prop :=
  t.rd F.monSitStat_state 0 = 1 ∧ t.rd F.monSitStat_source 0 = source ∧
  t.rd F.monSitStat_sitId 0 = (s.rd F.monSitStat_sitId 0 + 1) % 2 ^ F.monSitStat_sitId.w ∧ t.sit.all = all ∧ t.sit.raisedAt = s.now ∧
  t.sit.stopped = [] ∧ s.Offered t (mnMessage (.sit all)) ∧ s.MemSame t

/-- The monitor has answered, and nothing else has happened but that the line was a valid one. -/
abbrev State.Replied (s t : State) (l : List (String × List Nat)) : Prop :=
  t.outs = .reply l :: s.outs ∧ t.mon = { s.mon with baudTrial := false } ∧ { t with outs := s.outs, mon := s.mon } = s

/-- A change has joined those that wait, behind them; where none waited, MN has offered its hold to the fabric (R275). -/
def State.ChangeAdded (s t : State) (c : FabChange) : Prop :=
  t.changes = s.changes ++ [c] ∧ t.rd F.fabState_drainBusy 0 = 1 ∧
  (s.changes = [] → s.Offered t (mnMessage (.fabCtl 0 c.scope))) ∧ (s.changes ≠ [] → t.net = s.net) ∧
  { t with regs := s.regs, changes := s.changes, net := s.net, buckets := s.buckets, tc0Wait := s.tc0Wait } = s

/-- The first packet on its way that brings the routers MN's FAB_CTL of kind `k` for a scope. -/
abbrev State.FabCtlAt (s : State) (k scope : Nat) (p : Packet) : Prop :=
  s.net.find? (fun q => q.body == .fabCtl k scope && s.mayMove q) = some p

/-- The routers have taken a FAB_CTL, and MN has offered its next one, of kind `k`. -/
abbrev State.FabNext (s t : State) (p : Packet) (k scope : Nat) : Prop :=
  t.mesh = s.mesh.drop p ∧ (s.Admits (mnMessage (.fabCtl k scope)) → t.net = s.net.erase p ++ s.entering (mnMessage (.fabCtl k scope)))

/-- An input port at which a flit can arrive: the router runs, and so does the one beyond, over a link that both use. -/
abbrev State.PortOpen (s : State) (site inPort : Nat) : Prop :=
  s.siteOk site = true ∧ s.halted (576 + site) = false ∧
  ∀ x, beyondOf site inPort = some x → s.siteOk x.1 = true ∧ s.halted (576 + x.1) = false ∧ s.linkOk x.2 = true

/-- What is on its way to an input port. -/
def State.wire (s : State) (site inPort : Nat) : Wire := mget s.mesh.wires (site * 6 + inPort) {}

/-- The router keeps the flit in its input buffer: it is for another router, and is a body flit or the head of a packet not absorbed here. -/
abbrev State.Keeps (s : State) (site inPort : Nat) (f : Flit) : Prop :=
  f.dstSite ≠ site ∧ f.dstSite ≠ 1023 ∧ (flitHead f = false ∨ ∀ st, s.turn site inPort f ≠ .refuse st)

/-- The WRITE that carries the item with number `seq` of FIFO `i` to its ring slot (R341). -/
def State.itemWrite (s : State) (d i : Nat) (bytes : List Byte) (seq : Nat) : Packet :=
  { body := .write, cls := 1, pinned := true, dst := .tile (s.rd F.fldFifo_array i), src := .field d,
    off := s.rd F.fldFifo_ringBase i * 2048 + seq % s.rd F.fldFifo_nslots i * 2048, ctr := s.rd F.fldFifo_ctr i, ctrEn := true,
    payload := bytes, rtag := s.nextTag }

/-- Bytes of a snapshot datagram that its blocks may take, and the blocks as published: one that no datagram can hold goes out as a missing
one (R350, R328; log entry 55). -/
def State.snapRoom (s : State) : Nat := (if s.rd F.fldPort_vlanId 0 = 0 then 1472 else 1468) - 32
def State.snapBlocks (s : State) (l : List ConcBlock) : List ConcBlock :=
  l.map (fun b => if s.snapRoom < (concBytes b).length then { b with state := 1, data := [] } else b)

/-! ### Records -/

/-- Array `a` runs a step that goes on, has nothing in flight, and reads record `r` at its next address. -/
abbrev State.AtRecord (s : State) (a : Nat) (run : StepRun) (r : Record) : Prop :=
  (s.arr a).run = some run ∧ run.issuing = true ∧ run.fetched < 65536 ∧ (s.arr a).flights = [] ∧ s.halted (s.arrIsland a) = false ∧
  s.initStalls a run.next (run.next + 64) = false ∧ s.flips = [] ∧ s.ownOk a run.next (run.next + 64) = true ∧
  leNat (Memory.tileRead s.mem (s.siteOf a) run.next 64) = r.toNat

/-- The command that names the record (the opcode and function tables of chapter 3). -/
def recordCommand (a : Fin 512) (r : Record) : Instr :=
  match recKind r with
  | none => .undefinedOpcode a
  | some .loadWeight => .loadWeight a
  | some .loadAcc => .loadAcc a
  | some .loadCopy => .loadCopy a
  | some .storeAcc => .storeAcc a
  | some .storeCopy => .storeCopy a
  | some .storeFlags => .storeFlags a
  | some .matmul => .matmul a
  | some .gate => .gate a
  | some .gather => .gather a
  | some .send => .send a
  | some .recv => .recv a
  | some .dispatchSend => .dispatchSend a
  | some .dispatchReturn => .dispatchReturn a
  | some .waitCount => .waitCount a
  | some .signal => .signal a
  | some .fence => .fence a
  | some .commit => .commit a
  | some .endStep => .endStep a
  | some .scatter => if Rf r 38 0 8 = 1 then .scatterAddFp32 a else if Rf r 38 0 8 = 2 then .scatterAddInt32 a else .scatterWrite a
  | some .reduce => if Rf r 18 0 8 = 1 then .reduceSumInt32 a else if Rf r 18 0 8 = 2 then .reduceMaxFp32 a else .reduceSumFp32 a
  | some .vecop => match Rf r 8 0 8 with
    | 0x00 => .vecopConvert a
    | 0x01 => .vecopAdd a
    | 0x02 => .vecopSub a
    | 0x03 => .vecopMul a
    | 0x04 => .vecopFma a
    | 0x05 => .vecopDiv a
    | 0x06 => .vecopSqrt a
    | 0x07 => .vecopMin a
    | 0x08 => .vecopMax a
    | 0x09 => .vecopAbs a
    | 0x0A => .vecopNeg a
    | 0x0B => .vecopCopysign a
    | 0x0C => .vecopCompareEq a
    | 0x0D => .vecopCompareLt a
    | 0x0E => .vecopCompareLe a
    | 0x0F => .vecopCompareUnordered a
    | 0x10 => .vecopSelect a
    | 0x11 => .vecopRecip a
    | 0x12 => .vecopRsqrt a
    | 0x13 => .vecopExp2 a
    | 0x14 => .vecopLog2 a
    | 0x15 => .vecopExp a
    | 0x16 => .vecopLog a
    | 0x17 => .vecopTanh a
    | 0x18 => .vecopSigmoid a
    | 0x19 => .vecopSilu a
    | 0x1A => .vecopGelu a
    | 0x20 => .vecopAnd a
    | 0x21 => .vecopOr a
    | 0x22 => .vecopXor a
    | 0x23 => .vecopShiftLeft a
    | 0x24 => .vecopShiftRightArith a
    | 0x25 => .vecopShiftRightLogical a
    | 0x26 => .vecopSaturatingAdd a
    | 0x30 => .vecopSumReduce a
    | 0x31 => .vecopMaxReduce a
    | 0x38 => .vecopQuantise a
    | _ => .vecopReservedFunc a

/-- The record is of kind `k`, passes every check that precedes its execution, and stalls nowhere. -/
abbrev State.Fetches (s : State) (a : Nat) (run : StepRun) (r : Record) (k : RecKind) (p : Plan) : Prop :=
  s.AtRecord a run r ∧ recKind r = some k ∧ staticStatus r k = none ∧ s.plan a r k = .ok p ∧ s.stalls a r k p = false

/-- The flight of a record that has issued. -/
def State.flightOf (s : State) (run : StepRun) (r : Record) (k : RecKind) (p : Plan) : Flight :=
  { n := s.nextTag, addr := run.next, tag := recTag r, record := r, unit := k.unit,
    doneCtr := (if Rf r 2 6 1 = 1 then some (Rf r 2 0 6) else none), fabric := p.fabric, reads := p.reads, writes := p.writes,
    accR := p.accR, accW := p.accW, await := .start }

/-- The step after it has fetched and issued one more record. -/
def StepRun.advance (run : StepRun) : StepRun := { run with fetched := run.fetched + 1, next := run.next + 64, issued := run.issued + 1 }

/-- The record is the one in flight, and waits for `w`; the step has advanced past it. -/
def State.inFlight (s : State) (a : Nat) (run : StepRun) (r : Record) (k : RecKind) (p : Plan) (w : Await) : State :=
  { s with nextTag := s.nextTag + 1 }.setArr a
    { s.arr a with run := some run.advance, flights := [{ s.flightOf run r k p with await := w }] }

/-- The array has ended its step and reported this status, TAG and address to the leader (R158, R151). -/
def State.Reported (s t : State) (a : Nat) (run : StepRun) (status tag addr : Nat) : Prop :=
  (t.arr a).run = none ∧ (t.arr a).flights = [] ∧ ∃ q n, mfind t.reqs n = some q ∧ q.src = .tile a ∧ s.nextTag ≤ n ∧
    q.pkt.body = .stepMsg (.report run.id run.attempt status tag addr) ∧ q.pkt.dst = .tile run.leader ∧ q.pkt.cls = 0

/-- The fields of `ARR_FLAGS` of an array. -/
def flagFields (a : Nat) : List (Fld × Nat) := (regFields .arrFlags).map (fun f => (f, a))

/-- Rows of own bytes, and the range that they span, lie in a valid region that the array may use. -/
abbrev State.RowsOk (s : State) (a addr stride n len : Nat) : Prop :=
  s.ownOk a addr (spanEnd addr stride n len) = true ∧ ∀ i < n, s.ownOk a (addr + i * stride) (addr + i * stride + len) = true

/-- Own bytes as stored. -/
def State.own (s : State) (a addr len : Nat) : List Byte := Memory.tileRead s.mem (s.siteOf a) addr len

/-- Row `i` of a VECOP operand, as encodings. -/
def State.opndRow (s : State) (a v fmt stride ne i : Nat) : List Nat :=
  match srcOf v with
  | .mem x => unpackElems (fmtWidth fmt) ne (s.own a (x + i * stride) (ceilDiv (ne * fmtWidth fmt) 8))
  | .acc h row => ((s.half a h).row (row + i)).take ne

/-- An operand can be read. -/
def State.OpndOk (s : State) (a v fmt stride nr ne : Nat) : Prop :=
  match srcOf v with
  | .mem x => s.RowsOk a x stride nr (ceilDiv (ne * fmtWidth fmt) 8)
  | .acc h row => accTagFmt (s.half a h).tag = fmt ∧ row + nr ≤ accRows (s.half a h).tag ∧
      ∀ i < nr, ne ≤ ((s.half a h).row (row + i)).length

/-- Row `i` of a B or C operand: the immediate, one element throughout, or a row (R128). -/
def State.argRow (s : State) (a v fmt stride ne i : Nat) (scalar : Bool) (imm : Option Nat) : List Nat :=
  match imm with
  | some x => List.replicate ne x
  | none => if scalar then List.replicate ne ((s.opndRow a v fmt 0 1 0).getD 0 0) else s.opndRow a v fmt stride ne i

def State.ArgOk (s : State) (a v fmt stride nr ne : Nat) (scalar : Bool) (imm : Option Nat) : Prop :=
  match imm with
  | some _ => True
  | none => if scalar then s.OpndOk a v fmt 0 1 1 else s.OpndOk a v fmt stride nr ne

/-! Fields of a VECOP (R128). -/

def vecAf (r : Record) : Nat := Rf r 9 0 4
def vecNr (r : Record) : Nat := Rf r 36 0 16
def vecNe (r : Record) : Nat := Rf r 38 0 16
def vecImm (r : Record) : Option Nat := if Rf r 11 2 1 = 1 then some (Rf r 48 0 (fmtWidth (compOf (vecAf r)).fmt)) else none
def vecBf (r : Record) : Nat := if (vecImm r).isSome then (compOf (vecAf r)).fmt else Rf r 9 4 4
def vecCf (r : Record) : Nat := Rf r 10 0 4

/-- Values of row `i` of A. -/
def State.vecA (s : State) (a : Nat) (r : Record) (i : Nat) : List FV :=
  rowVals (vecAf r) [] (s.opndRow a (Rf r 12 0 32) (vecAf r) (Rf r 28 0 16 * 64) (vecNe r) i)

/-- Encodings of row `i` of B. -/
def State.vecBraw (s : State) (a : Nat) (r : Record) (i : Nat) : List Nat :=
  s.argRow a (Rf r 16 0 32) (vecBf r) (Rf r 32 0 16 * 64) (vecNe r) i (Rf r 11 0 1 == 1) (vecImm r)

def State.vecB (s : State) (a : Nat) (r : Record) (i : Nat) : List FV := rowVals (vecBf r) [] (s.vecBraw a r i)

/-- Values of the third operand: C of an fma, the sign bits of B for copysign. -/
def State.vecC (s : State) (a : Nat) (r : Record) (fn i : Nat) : List FV :=
  if fn = 0x0B then (s.vecBraw a r i).map (signVal (vecBf r))
  else if fn = 0x04 then rowVals (vecCf r) [] (s.argRow a (Rf r 20 0 32) (vecCf r) (Rf r 34 0 16 * 64) (vecNe r) i (Rf r 11 1 1 == 1) none)
  else []

/-- Operands that function `fn` reads can be read. -/
abbrev State.VecReads (s : State) (a : Nat) (r : Record) (fn : Nat) : Prop :=
  s.OpndOk a (Rf r 12 0 32) (vecAf r) (Rf r 28 0 16 * 64) (vecNr r) (vecNe r) ∧
  (readsB fn = true → s.ArgOk a (Rf r 16 0 32) (vecBf r) (Rf r 32 0 16 * 64) (vecNr r) (vecNe r) (Rf r 11 0 1 == 1) (vecImm r)) ∧
  (fn = 0x04 → s.ArgOk a (Rf r 20 0 32) (vecCf r) (Rf r 34 0 16 * 64) (vecNr r) (vecNe r) (Rf r 11 1 1 == 1) none)

/-- Rounding mode of the computation itself: SR applies to the conversion alone. -/
def vecMd (c : Ccw) : RMode := if c.md = .sr then .rne else c.md

/-- Results of an elementwise function on row `i`, in the computation format, with what each raises. -/
def State.vecElems (s : State) (a : Nat) (r : Record) (c : Ccw) (fn i : Nat) : List (Nat × Fl) :=
  (s.vecA a r i).zipIdx.map (fun q =>
    elemOp (compOf (vecAf r)) (vecMd c) fn q.1 ((s.vecB a r i).getD q.2 (.fin false 0 0)) ((s.vecC a r fn i).getD q.2 (.fin false 0 0)))

/-- Row `i` of A reduced by the fixed tree of R101, on encodings of the computation format. -/
def State.vecRowReduced (s : State) (a : Nat) (r : Record) (c : Ccw) (fn i : Nat) : Nat :=
  (treeReduce (reduceOp (compOf (vecAf r)) (vecMd c) fn) 8 ((s.vecA a r i).map (fun v => match compOf (vecAf r) with
    | .i32 => toTwos 32 (fvInt v)
    | k => (packFl k.flt (vecMd c) v false).1)) {}).1.getD 0 0

/-- The rows' reductions combined in order of the rows. -/
def State.vecReduced (s : State) (a : Nat) (r : Record) (c : Ccw) (fn : Nat) : Nat :=
  (List.range (vecNr r - 1)).foldl (fun x i => (reduceOp (compOf (vecAf r)) (vecMd c) fn x (s.vecRowReduced a r c fn (i + 1))).1)
    (s.vecRowReduced a r c fn 0)

/-- Rows of values as converted for the destination, the draws of SR going from row to row (R75). -/
def convRows (c : Ccw) : List Nat → List (List FV) → List (List Nat)
  | _, [] => []
  | lanes, v :: t => (convertRow c lanes v).1 :: convRows c (convertRow c lanes v).2.2 t

/-- The destination takes rows of results: bytes in the scratchpad, or accumulator rows under the format's tag. -/
def State.VecWrote (s t : State) (a : Nat) (r : Record) (c : Ccw) (stride : Nat) (rows : List (List Nat)) : Prop :=
  match srcOf (Rf r 24 0 32) with
  | .mem x =>
    t.mem = rows.zipIdx.foldl (fun m q => Memory.tileWrite m (s.siteOf a) (x + q.2 * stride) (packElems (fmtWidth c.fmt) q.1)) s.mem ∧
    t.half a 0 = s.half a 0 ∧ t.half a 1 = s.half a 1
  | .acc h row =>
    t.mem = s.mem ∧ t.half a (1 - h) = s.half a (1 - h) ∧
    t.half a h = rows.zipIdx.foldl (fun x q => (x.retag (fmtTag c.fmt)).setRow (row + q.2)
      (q.1 ++ ((x.retag (fmtTag c.fmt)).row (row + q.2)).drop q.1.length)) (s.half a h)

/-- The destination can take `nr` rows of `ne` results. -/
def State.DstOk (s : State) (a : Nat) (r : Record) (fmt stride nr ne : Nat) : Prop :=
  match srcOf (Rf r 24 0 32) with
  | .mem x => s.RowsOk a x stride nr (ceilDiv (ne * fmtWidth fmt) 8)
  | .acc _ row => row + nr ≤ accRows (fmtTag fmt)

/-- Everything but the scratchpad, the array's own state, its flags and the tag counter is as before. -/
def State.UnitFrame (s t : State) (a : Nat) : Prop :=
  { t with regs := s.regs, mem := s.mem, arrays := s.arrays, nextTag := s.nextTag } = s ∧ s.RegsBut t (flagFields a) ∧
  ∀ b, b ≠ a → t.arr b = s.arr b

/-- The record has run: it is the one flight, and waits for nothing. -/
def State.RanToEnd (t : State) (a : Nat) (run : StepRun) (r : Record) : Prop :=
  (t.arr a).run = some run.advance ∧ ∃ f, (t.arr a).flights = [f] ∧ f.record = r ∧ f.await = .nothing ∧ f.out = [] ∧ f.status = 0

/-- Elementwise functions of R129 with their codes. -/
def elementwiseCommands : List ((Fin 512 → Instr) × Nat) :=
  [(.vecopAdd, 0x01), (.vecopSub, 0x02), (.vecopMul, 0x03), (.vecopFma, 0x04), (.vecopDiv, 0x05), (.vecopSqrt, 0x06), (.vecopMin, 0x07),
   (.vecopMax, 0x08), (.vecopAbs, 0x09), (.vecopNeg, 0x0A), (.vecopCopysign, 0x0B)] ++
  [(.vecopRecip, 0x11), (.vecopRsqrt, 0x12), (.vecopExp2, 0x13), (.vecopLog2, 0x14), (.vecopExp, 0x15), (.vecopLog, 0x16), (.vecopTanh, 0x17),
   (.vecopSigmoid, 0x18), (.vecopSilu, 0x19), (.vecopGelu, 0x1A)] ++
  [(.vecopAnd, 0x20), (.vecopOr, 0x21), (.vecopXor, 0x22), (.vecopShiftLeft, 0x23), (.vecopShiftRightArith, 0x24),
   (.vecopShiftRightLogical, 0x25), (.vecopSaturatingAdd, 0x26)]

/-- Compare functions of R129 with their codes. -/
def compareCommands : List ((Fin 512 → Instr) × Nat) :=
  [(.vecopCompareEq, 0x0C), (.vecopCompareLt, 0x0D), (.vecopCompareLe, 0x0E), (.vecopCompareUnordered, 0x0F)]

/-- Reductions of R129 with their codes. -/
def reductionCommands : List ((Fin 512 → Instr) × Nat) := [(.vecopSumReduce, 0x30), (.vecopMaxReduce, 0x31)]

/-! Select and quantise (R99, R81). -/

/-- What select picks in row `i`: format and encoding of each element. -/
def State.vecPick (s : State) (a : Nat) (r : Record) (i : Nat) : List (Nat × Nat) :=
  (List.range (vecNe r)).map (fun e =>
    if (leNat (s.own a (Rf r 20 0 26 + i * (if Rf r 11 1 1 = 1 then 0 else Rf r 34 0 16 * 64)) 32)).testBit e
    then (vecAf r, (s.opndRow a (Rf r 12 0 32) (vecAf r) (Rf r 28 0 16 * 64) (vecNe r) i).getD e 0)
    else (vecBf r, (s.vecBraw a r i).getD e 0))

/-- The value of a picked element, a NaN quiet. -/
def pickVal (q : Nat × Nat) : FV :=
  match elemVal q.1 q.2 127 with
  | .nan _ => .nan false
  | v => v

/-- Rows of picked elements one after another: an element of the destination's format as it stands, which takes no draw, the others converted
(R75, R99; log entry 70). -/
def selRows (c : Ccw) : List Nat → List (List (Nat × Nat)) → List (List Nat)
  | _, [] => []
  | lanes, v :: t =>
    let o := convertRow c lanes (v.map pickVal) (fun e => (v.getD e (c.fmt, 0)).1 == c.fmt)
    (v.zip o.1).map (fun z => if z.1.1 = c.fmt then z.1.2 else z.2) :: selRows c o.2.2 t

/-- Scale bytes and elements of rows quantised one after another. -/
def quantRows (c : Ccw) : List Nat → List (List FV) → List (List Nat × List Nat)
  | _, [] => []
  | lanes, v :: t => ((quantRow c lanes v).1, (quantRow c lanes v).2.1) :: quantRows c (quantRow c lanes v).2.2.2 t

/-! Transfers (R117, R118). -/

/-- Every piece of a transfer to the own scratchpad may be written. -/
abbrev State.PacketsOk (s : State) (a off : Nat) (bytes : List Byte) : Prop :=
  ∀ q ∈ packetsOf off bytes, s.ownOk a q.1 (q.1 + q.2.length) = true

/-- A memory after a transfer's pieces have been written to the scratchpad of a site. -/
def putPackets (m : List Host.Cell) (site off : Nat) (bytes : List Byte) : List Host.Cell :=
  (packetsOf off bytes).foldl (fun m q => Memory.tileWrite m site q.1 q.2) m

/-- The WRITE packets of a transfer from array `a` to a global address, before they have request tags. -/
def writePackets (a : Nat) (d : GAddr) (off : Nat) (bytes : List Byte) : List Packet :=
  (packetsOf off bytes).map (fun q =>
    { body := .write, dst := .tile d.array, src := .tile a, off := q.1, ctr := d.ctr, ctrEn := d.ctrEn, payload := q.2 })

/-- What enters the net for requests with consecutive request tags from `n`. -/
def State.enteringAll (s : State) (n : Nat) (ps : List Packet) : List Packet :=
  ps.zipIdx.flatMap (fun q => s.entering { q.1 with rtag := n + q.2 })

/-- The array has injected these requests, with consecutive request tags from `n`, and its one flight waits for all their answers. -/
def State.Asked (s t : State) (a : Nat) (run : StepRun) (r : Record) (n : Nat) (ps : List Packet) : Prop :=
  t.net = s.net ++ s.enteringAll n ps ∧ t.nextTag = n + ps.length ∧ (t.arr a).run = some run.advance ∧
  ∃ f, (t.arr a).flights = [f] ∧ f.record = r ∧ f.await = .replies ∧ (∀ x, x ∈ f.out ↔ n ≤ x ∧ x < n + ps.length)

/-! The gate unit (R103 to R106) and the fabric unit's records. -/

/-- Tokens of a GATE; a field of 0 stands for 256, as for its experts. -/
def gateTokens (r : Record) : Nat := if Rf r 12 0 8 = 0 then 256 else Rf r 12 0 8
def gateExperts (r : Record) : Nat := if Rf r 13 0 8 = 0 then 256 else Rf r 13 0 8

def gateParams (r : Record) : GateP :=
  ⟨gateExperts r, Rf r 14 0 4, Rf r 14 4 1 == 0, Rf r 14 5 1 == 1, Rf r 32 0 256, Rf r 15 0 8, Rf r 16 0 16⟩

/-- The bias row of a GATE, where it names one. -/
def State.gateBias (s : State) (a : Nat) (r : Record) : List Nat :=
  if Rf r 14 7 1 = 1 then unpackElems 32 (gateExperts r) (s.own a (Rf r 20 0 26) (4 * gateExperts r)) else []

/-- Counts and slot words after the first `i` tokens. -/
def State.gateAfter (s : State) (a : Nat) (r : Record) : Nat → GateCounts × List Nat
  | 0 => (if Rf r 14 6 1 = 1 then {} else (s.arr a).gate, [])
  | i + 1 =>
    let q := s.gateAfter a r i
    let o := gateToken (gateParams r) q.1
      (s.opndRow a (Rf r 8 0 32) 1 (ceilDiv (4 * gateExperts r) 64 * 64) (gateExperts r) i) (s.gateBias a r)
    (o.1, q.2 ++ (o.2.1 ++ List.replicate (Rf r 14 0 4 - o.2.1.length) ({} : Slot)).map Slot.word)

/-- Index list and rows of a SCATTER. -/
def State.scatterIdx (s : State) (a : Nat) (r : Record) (i : Nat) : Nat :=
  (unpackElems 32 (Rf r 20 0 32) (s.own a (Rf r 16 0 26) (4 * Rf r 20 0 32))).getD i 0

/-- Offset at the destination of element `i`. -/
def State.scatterOff (s : State) (a : Nat) (r : Record) (i : Nat) : Nat :=
  Rf r 24 0 26 + s.scatterIdx a r i * Rf r 32 0 32

def State.scatterRow (s : State) (a : Nat) (r : Record) (i : Nat) : List Byte := s.own a (Rf r 8 0 26 + i * Rf r 12 0 32) (Rf r 36 0 16)

/-- A SCATTER's sources can be read, and its destination offsets lie in a scratchpad. -/
abbrev State.ScatterOk (s : State) (a : Nat) (r : Record) : Prop :=
  s.ownOk a (Rf r 16 0 26) (Rf r 16 0 26 + 4 * Rf r 20 0 32) = true ∧
  s.RowsOk a (Rf r 8 0 26) (Rf r 12 0 32) (Rf r 20 0 32) (Rf r 36 0 16) ∧
  ∀ i < Rf r 20 0 32, s.scatterOff a r i + Rf r 36 0 16 ≤ 67108864

/-- Bytes to which an atomic addition of `new` brings the bytes `old` (R184, R134): 1 FP32, 2 INT32. -/
def addedBytes (op : Nat) (old new : List Byte) : List Byte :=
  packElems 32 (atomicAdd op (unpackElems 32 (new.length / 4) old) (unpackElems 32 (new.length / 4) new))

/-- A memory after an atomic addition of `new` at an address of a site. -/
def addAt (op : Nat) (m : List Host.Cell) (site x : Nat) (new : List Byte) : List Host.Cell :=
  Memory.tileWrite m site x (addedBytes op (Memory.tileRead m site x new.length) new)

/-- The SCATTER commands with their `OP`. -/
def scatterCommands : List ((Fin 512 → Instr) × Nat) := [(.scatterWrite, 0), (.scatterAddFp32, 1), (.scatterAddInt32, 2)]

/-- The REDUCE commands with their `OP`. -/
def reduceCommands : List ((Fin 512 → Instr) × Nat) := [(.reduceSumFp32, 0), (.reduceSumInt32, 1), (.reduceMaxFp32, 2)]

/-- Tag and row of place `i` of a DISPATCH RETURN. -/
def State.returnTag (s : State) (a : Nat) (r : Record) (i : Nat) : Nat := leNat (s.own a (Rf r 12 0 26 + 8 * i) 8)

/-- The packet that returns row `i` to the token that it belongs to (R142). -/
def State.returnPacket (s : State) (a : Nat) (r : Record) (c : Ccw) (i : Nat) : Packet :=
  let w := fp32.unpack (bitsAt (s.returnTag a r i) 32 32)
  { body := .channelItem (Rf r 11 0 6) 1 63 0 (bitsAt (s.returnTag a r i) 16 16 % 256) c.fmt, dst := .tile (bitsAt (s.returnTag a r i) 0 9),
    src := .tile a,
    payload := packElems (fmtWidth c.fmt) ((unpackElems 32 (Rf r 20 0 16 / 4)
      (s.own a (Rf r 16 0 26 + i * Rf r 22 0 16 * 64) (Rf r 20 0 16))).zipIdx.map (fun x =>
        (convertTo c c.md (if c.md = .sr then returnDraw (Rf r 32 0 32) i x.2 else 0)
          (fp32.unpack (fp32.pack .rne {} 0 (FV.mul (fp32.unpack x.1) w).1).1)).1)) }

/-- Places of a DISPATCH RETURN that hold a row, in order: source by source, as many as its count says (R142). -/
def State.returnPlaces (s : State) (a : Nat) (r : Record) : List Nat :=
  let ns := if Rf r 9 0 8 = 0 then 256 else Rf r 9 0 8
  (List.range ns).flatMap (fun src =>
    (List.range ((unpackElems 32 ns (s.own a (Rf r 24 0 26) (4 * ns))).getD src 0)).map (fun q => src * Rf r 28 0 16 + q))

/-- One past the last place of a DISPATCH RETURN that holds a row. -/
def State.returnTop (s : State) (a : Nat) (r : Record) : Nat := (s.returnPlaces a r).foldl (fun m i => max m (i + 1)) 0

/-- A DISPATCH RETURN can read its tags and its rows, and the origin of every row is in service. -/
abbrev State.ReturnOk (s : State) (a : Nat) (r : Record) : Prop :=
  s.returnPlaces a r ≠ [] ∧ s.RowsOk a (Rf r 12 0 26) 8 (s.returnTop a r) 8 ∧
  s.RowsOk a (Rf r 16 0 26) (Rf r 22 0 16 * 64) (s.returnTop a r) (Rf r 20 0 16) ∧
  ∀ i ∈ s.returnPlaces a r, s.arrVacant (bitsAt (s.returnTag a r i) 0 9) = false

/-- Slot word `i` of a DISPATCH SEND, and the map entry of an expert (R140, R141). -/
def State.dispSlot (s : State) (a : Nat) (r : Record) (n i : Nat) : Nat :=
  (unpackElems 64 n (s.own a (Rf r 12 0 26) (8 * n))).getD i 0
def State.dispEntry (s : State) (a : Nat) (r : Record) (x : Nat) : MapEntry :=
  ((unpackElems 128 256 (s.own a (Rf r 24 0 26) 4096)).map mapEntry).getD x (mapEntry 0)

end Sys2Proof.Machine
end

