-- ==== Sys2Proof/Certificates/Slice0/Obligations.lean ====
section
/-! DEFINITION. The statements for the provers. The docstring of each cites the rules of spec/ that it rests on. -/

open Sys2Proof Sys2Proof.Machine

/-! ### The machine as a whole -/

/-- Commands are taken first in, first out: a step is `exec` of the front command on the state with the rest of the queue, and an empty
queue idles (log entry 1). -/
def Obligations.StepTakesTheFrontCommand : Prop :=
  ∀ s : State, (∀ c rest, s.pending = c :: rest → step s = exec c { s with pending := rest }) ∧ (s.pending = [] → step s = .next s)

/-- No command stops the panel: each has a next state from every state, and leaves the queue of waiting commands as it is. -/
def Obligations.EveryCommandCompletesAndKeepsTheQueue : Prop :=
  ∀ (c : Instr) (s : State), ∃ t, exec c s = .next t ∧ t.pending = s.pending

/-- R176, R199: scratchpads and stacks keep their canonical form through every step, from every state that has it. -/
def Obligations.StepKeepsMemoriesCanonical : Prop := ∀ s t : State, s.MemOk → step s = .next t → t.MemOk

/-- R466, R467: no command lowers the rollback floor, and the record in use is never older than it. -/
def Obligations.RollbackFloorNeverFalls : Prop :=
  ∀ s t : State, s.boot.floorOk = true → (∀ r, s.boot.record = some r → r.recSeq ≤ s.boot.floor) → step s = .next t →
    t.boot.floorOk = true ∧ s.boot.floor ≤ t.boot.floor ∧ ∀ r, t.boot.record = some r → r.recSeq ≤ t.boot.floor

/-- R476: right after a whole-panel reset every register reads its reset value, scratchpads and stacks are zero and canonical, no
command waits. -/
def Obligations.ResetLeavesRegistersAndMemories : Prop :=
  State.reset.MemOk ∧ (∀ f i, State.reset.rd f i = fldReset f i) ∧ (∀ a, Memory.read State.reset.mem a = 0) ∧
  (∀ a, Memory.read State.reset.stack a = 0) ∧ State.reset.pending = []

/-! ### Power, reset pins, rails (R448 to R452, R472, R476) -/

/-- INPUT_POWER_UP, INPUT_RESTART and INPUT_LOSS: conversion starts or stops, and nothing keeps its state but the flash. -/
def Obligations.InputStartsAndStopsConversion : Prop :=
  ∀ s : State,
    (s.boot.converting = false →
      (∃ t, exec .inputPowerUp s = .next t ∧ t.boot.converting = true ∧ t.boot.inputOk = true ∧ s.FreshFrom t []) ∧
      (∃ t, exec .inputRestart s = .next t ∧ t.boot.converting = true ∧ t.boot.inputOk = true ∧ s.FreshFrom t [])) ∧
    (s.boot.converting = true →
      ∃ t, exec .inputLoss s = .next t ∧ t.boot.converting = false ∧ t.boot.inputOk = false ∧ t.pins.pwrOk = false ∧
        t.boot.busesUp = false ∧ s.FreshFrom t [])

/-- RESET_N_LOW, PANEL_RESET and FW_ACTIVATE of an image of kind 2 to 7: a whole-panel reset with its cause (R472, R476, R481, R511).
RESET_N_RELEASE ends the level of the pin alone. ARRAY_RESET, PACK_RESET, PARTITION_RESET, RESET_DRAIN_DONE: a request is refused at
once, waits for a substitution that it concerns, or drains; a drained reset leaves the list of resets. -/
def Obligations.ResetsClearTheirScope : Prop :=
  (∀ s : State,
    (s.boot.resetNLow = false → s.CanResetAtOnce →
      ∃ t, exec .resetNLow s = .next t ∧ t.boot.resetNLow = true ∧ s.PanelReset t 1) ∧
    (exec .resetNRelease s = .next { s with boot := { s.boot with resetNLow := false } }) ∧
    (∀ port : Fin 2, s.Open port .unit → s.CanResetAtOnce →
      ∃ t, exec (.panelReset port 0xA5) s = .next t ∧ s.PanelReset t (2 + port)) ∧
    (∀ (port : Fin 2) (key : BitVec 8), s.Open port .unit → key ≠ 0xA5 → exec (.panelReset port key) s = .next s) ∧
    (∀ (port : Fin 2) (m : Manifest), s.Open port .unit → s.CanResetAtOnce → s.rd F.fltFwCmd_activate 0 = 0 →
      s.firm.manifest = some m → s.rd F.fltFwStat_fwState 0 = 4 → 2 ≤ m.kind →
      ∃ t, exec (.fwActivate port) s = .next t ∧ s.PanelReset t 5 ∧ mget t.firm.running m.kind 0 = m.fwVersion)) ∧
  (∀ s : State,
    (∀ (port : Fin 2) (a : Fin 512), s.Open port .unit → s.rd F.prtArrRst_go 0 = 0 →
      (∀ st, s.resetScope 0 a = .inl st → ∃ t, exec (.arrayReset port a) s = .next t ∧ t.rd F.prtArrRst_status 0 = st ∧
        t.rd F.prtArrRst_go 0 = 0 ∧ t.rd F.prtArrRst_array 0 = a ∧
        s.OnlyRegs t [(F.prtArrRst_array, 0), (F.prtArrRst_go, 0), (F.prtArrRst_status, 0)]) ∧
      (s.resetScope 0 a = .inr ([a.val], []) → s.resetHeld [a.val] [] = true →
        ∃ t, exec (.arrayReset port a) s = .next t ∧ t.rd F.prtArrRst_status 0 = 0 ∧ t.rd F.prtArrRst_go 0 = 1 ∧
          t.boot.deferred = s.boot.deferred ++ [{ level := 0, num := a, arrays := [a.val], packs := [] }] ∧
          { t with regs := s.regs, boot := s.boot } = s) ∧
      (s.resetScope 0 a = .inr ([a.val], []) → s.resetHeld [a.val] [] = false → s.boot.resets = [] →
        ∃ t, exec (.arrayReset port a) s = .next t ∧ t.rd F.prtArrRst_go 0 = 1 ∧ t.inReset a = true)) ∧
    (∀ (port : Fin 2) (p : Fin 64), s.Open port .unit → s.rd F.prtPackRst_go 0 = 0 →
      (∀ st, s.resetScope 1 p = .inl st → ∃ t, exec (.packReset port p) s = .next t ∧ t.rd F.prtPackRst_status 0 = st ∧
        t.rd F.prtPackRst_go 0 = 0 ∧ s.OnlyRegs t [(F.prtPackRst_pack, 0), (F.prtPackRst_go, 0), (F.prtPackRst_status, 0)]) ∧
      (∀ as, s.resetScope 1 p = .inr (as, [p.val]) → s.resetHeld as [p.val] = false → s.boot.resets = [] →
        ∃ t, exec (.packReset port p) s = .next t ∧ t.rd F.prtPackRst_go 0 = 1 ∧ t.packInReset p = true)) ∧
    (∀ (port : Fin 2) (n : Fin 16), s.Open port .unit → s.rd F.prtCmd_reset 0 = 0 → s.resetScope 2 n = .inr ([], []) →
      ∃ t, exec (.partitionReset port n) s = .next t ∧ t.rd F.prtCmd_part 0 = n ∧ t.rd F.prtCmd_reset 0 = 0 ∧
        (t.rd F.prtStat_resetting 0).testBit n = false ∧ s.OnlyRegs t [(F.prtCmd_part, 0), (F.prtCmd_reset, 0), (F.prtStat_resetting, 0)]) ∧
    (∀ r, s.inSit = false → s.boot.resets.find? s.drained = some r →
      ∃ t, exec .resetDrainDone s = .next t ∧ t.boot.resets = s.boot.resets.filter (· != r)))

/-- PACK_RAIL_RAISE (R450): the rails of the fitted packs come up one at a time, in ascending number. STAGE_COMPLETE: a passed stage
shows in the unit's report, a failed one with its code; a seam link whose wires cannot be repaired fails, and is out of service; MN's
stage 2 takes the record that it chooses, or halts bring-up where it finds none. BRINGUP_PHASE_END: the next phase begins; after phase 7
the panel is ready. -/
def Obligations.BringUpAdvances : Prop :=
  (∀ (s : State) (p : Nat), s.boot.railsDone = false → s.boot.busesUp = true → s.inBringup = true →
    s.packList.find? (fun q => !s.boot.packRails.contains q) = some p →
    ∃ t, exec .packRailRaise s = .next t ∧ t.boot.packRails = s.boot.packRails ++ [p] ∧
      (t.boot.railsDone = true ↔ ∀ q ∈ s.packList, q ∈ s.boot.packRails ++ [p]) ∧ { t with boot := s.boot } = s) ∧
  (∀ (s : State) (u : Fin 28) (code : Nat) (seam : SeamTest), s.stageReady u = true →
    (¬ (2 ≤ u.val ∧ u.val < 4 ∧ s.nextStage u = 2) → ¬ s.SeamBad u seam →
      ∃ t, exec (.stageComplete u true code seam) s = .next t ∧ t.rd F.idnStage_failed u = 1 ∧
        t.rd F.idnStage_code u = (if u.val < 2 ∧ s.nextStage u = 1 then 1 else code % 256) ∧
        t.rd F.idnStage_stage u = s.rd F.idnStage_stage u ∧ s.MemSame t) ∧
    (¬ (u.val = 0 ∧ s.nextStage u = 2) → ¬ s.SeamBad u seam →
      ∃ t, exec (.stageComplete u false code seam) s = .next t ∧ t.rd F.idnStage_stage u = s.nextStage u ∧
        t.rd F.idnStage_failed u = 0 ∧ s.MemSame t) ∧
    (4 ≤ u.val → s.SeamBad u seam → ∀ failed : Bool,
      ∃ t, exec (.stageComplete u failed code seam) s = .next t ∧ t.rd F.idnStage_failed u = 1 ∧ t.rd F.idnStage_code u = 5 ∧
        t.declared (11 * 24 + (u - 4)) (linkSouth 11 (u - 4)) = true ∧ t.declared (12 * 24 + (u - 4)) (linkSouth 11 (u - 4)) = true ∧
        s.MemSame t) ∧
    (u.val = 0 → s.nextStage u = 2 → ∀ r, s.chooseRecord = some r →
      ∃ t, exec (.stageComplete u false code seam) s = .next t ∧ t.rd F.idnStage_stage 0 = 2 ∧ t.boot.record = some r ∧
        t.boot.busesUp = true ∧ t.pins.pwrOk = (decide (s.failedCells 0 < 16) && decide (s.failedCells 1 < 16)) ∧
        t.boot.floor = max s.recFloor r.recSeq ∧ s.MemSame t) ∧
    (u.val = 0 → s.nextStage u = 2 → s.chooseRecord = none →
      ∃ t, exec (.stageComplete u false code seam) s = .next t ∧ t.rd F.idnStage_failed 0 = 1 ∧ t.rd F.idnStage_code 0 = s.recordCode ∧
        t.boot.cfgFailed = true ∧ t.boot.busesUp = s.boot.busesUp ∧ s.MemSame t)) ∧
  (∀ (s : State) (ds : List (Fin 576)) (dl : List (Fin 1104)) (su : List (Fin 576 × Fin 576)), s.inBringup = true → s.phaseOver = true →
    (s.phase < 7 → ∃ t, exec (.bringupPhaseEnd ds dl su) s = .next t ∧ t.rd F.idnState_phase 0 = s.phase + 1 ∧
      t.rd F.idnState_panelState 0 = 0 ∧ s.MemSame t) ∧
    (s.phase = 7 → ∃ t, exec (.bringupPhaseEnd ds dl su) s = .next t ∧ t.rd F.idnState_phase 0 = 0 ∧
      t.rd F.idnState_panelState 0 = 1 ∧ t.boot.suspects = s.suspectsOf (su.map (fun e => (e.1.val, e.2.val))) ∧ s.MemSame t))

/-! ### Firmware (R506 to R512) -/

/-- FW_IMAGE_WRITTEN, FW_ROUND_END, FW_ACTIVATE of tile or hub firmware, FW_ABANDON: what `FLT_FW_STAT` shows. FW_MANIFEST and FW_CHUNK
(R506, R507): an accepted manifest begins an image, an accepted chunk is held; what is refused changes no image. DOE_ATTESTATION and
DOE_CERTIFICATE: a report of 404 bytes that carries the nonce; the certificate of the record in use. -/
def Obligations.FirmwareImagesAndReports : Prop :=
  (∀ (s : State) (m : Manifest), s.firm.manifest = some m →
    (s.rd F.fltFwStat_fwState 0 = 2 → s.firm.chunks.length = m.nChunks → s.mnHalted = false →
      ∃ t, exec (.fwImageWritten true) s = .next t ∧ t.rd F.fltFwStat_fwState 0 = (if m.kind ≤ 1 then 3 else 4) ∧
        t.faults.firm.manifest = some m ∧ s.MemSame t) ∧
    (exec (.fwImageWritten false) s = .next s) ∧
    (s.rd F.fltFwStat_fwState 0 = 3 → s.inSit = false →
      (∃ t, exec (.fwRoundEnd []) s = .next t ∧ t.rd F.fltFwStat_fwState 0 = 4 ∧ t.rd F.fltFwStat_unitsMissing 0 = 0 ∧ s.MemSame t) ∧
      (∀ u n, n ≠ 0 → (mfind s.firm.missing u).isSome = true → (s.fwTargets m.kind).contains u = true → s.rd F.fltFwStat_round 0 < 4 →
        ∃ t, exec (.fwRoundEnd [(u, n)]) s = .next t ∧ t.rd F.fltFwStat_fwState 0 = 3 ∧ t.rd F.fltFwStat_unitsMissing 0 = 1 ∧
          t.rd F.fltFwStat_round 0 = s.rd F.fltFwStat_round 0 + 1 ∧ s.MemSame t)) ∧
    (∀ port : Fin 2, s.Open port .unit → s.rd F.fltFwCmd_activate 0 = 0 → m.kind ≤ 1 →
      (s.rd F.fltFwStat_fwState 0 ≠ 4 → ∃ t, exec (.fwActivate port) s = .next t ∧ t.rd F.fltFwCmd_status 0 = 1 ∧
        s.OnlyRegs t [(F.fltFwCmd_status, 0)]) ∧
      (s.rd F.fltFwStat_fwState 0 = 4 → s.regions ≠ [] → ∃ t, exec (.fwActivate port) s = .next t ∧ t.rd F.fltFwCmd_status 0 = 2 ∧
        s.OnlyRegs t [(F.fltFwCmd_status, 0)]) ∧
      (s.rd F.fltFwStat_fwState 0 = 4 → s.regions = [] → ∃ t, exec (.fwActivate port) s = .next t ∧ t.rd F.fltFwCmd_status 0 = 0 ∧
        mget t.faults.firm.highest m.kind 0 = max m.fwVersion (mget s.firm.highest m.kind 0))) ∧
    (∀ port : Fin 2, s.Open port .unit → s.rd F.fltFwStat_fwState 0 ≠ 5 →
      ∃ t, exec (.fwAbandon port) s = .next t ∧ t.rd F.fltFwStat_fwState 0 = 6 ∧ t.rd F.fltFwStat_chunksHeld 0 = 0 ∧
        t.rd F.fltFwStat_unitsMissing 0 = 0 ∧ t.rd F.fltFwCmd_status 0 = 3 ∧ t.faults.firm.manifest = none ∧ t.faults.firm.chunks = [] ∧
        { t with regs := s.regs, faults := s.faults } = s ∧
        s.RegsBut t [(F.fltFwStat_fwState, 0), (F.fltFwStat_chunksHeld, 0), (F.fltFwStat_unitsMissing, 0), (F.fltFwCmd_status, 0)])) ∧
  (∀ (s : State) (port : Fin 2) (sq : Fin 256) (k : Nat) (f : FDescr), f.Loud →
    (∀ m, s.ready (port, sq, k) 0x40 true = some f → s.descrStatus f .priv 0 0 = 0 →
      (s.manifestDetail m = 0 → ∃ t, exec (.fwManifest port sq k m) s = .next t ∧ t.faults.firm.manifest = some m ∧
        t.faults.firm.chunks = [] ∧ t.rd F.fltFwStat_fwState 0 = 1 ∧ t.rd F.fltFwStat_kind 0 = m.kind % 8 ∧ s.Completed t f 0 0 f.d.len 0 ∧
        { t with regs := s.regs, host := s.host, faults := s.faults } = s) ∧
      (s.manifestDetail m ≠ 0 → ∃ t, exec (.fwManifest port sq k m) s = .next t ∧ s.Completed t f 0x12 (s.manifestDetail m) 0 0 ∧
        { t with regs := s.regs, host := s.host } = s)) ∧
    (∀ m data, s.ready (port, sq, k) 0x41 true = some f → s.descrStatus f .priv 1 4096 = 0 → data.length = f.d.len →
      s.firm.manifest = some m → f.d.offset < m.nChunks → data.length = chunkLen m f.d.offset → mfind s.firm.chunks f.d.offset = none →
      (Config.sha512 data = m.hashes.getD f.d.offset 0 →
        ∃ t, exec (.fwChunk port sq k data) s = .next t ∧ mfind t.faults.firm.chunks f.d.offset = some data ∧
          t.rd F.fltFwStat_fwState 0 = 2 ∧ s.Completed t f 0 0 f.d.len 0 ∧ { t with regs := s.regs, host := s.host, faults := s.faults } = s) ∧
      (Config.sha512 data ≠ m.hashes.getD f.d.offset 0 →
        ∃ t, exec (.fwChunk port sq k data) s = .next t ∧ s.Completed t f 0x12 0x03 0 0 ∧ { t with regs := s.regs, host := s.host } = s))) ∧
  (∀ (s : State) (port : Fin 2) (nonce : BitVec 256), s.doeUp port = true →
    (∃ b : List Byte, exec (.doeAttestation port nonce) s = .next { s with outs := .doe port b :: s.outs } ∧ b.length = 404 ∧
      b.take 4 = [0x81, 0, 0, 0] ∧ (b.drop 240).take 32 = leBytes 32 nonce.toNat ∧ (b.drop 8).take 8 = leBytes 8 (s.rd F.idnSerial_serial 0)) ∧
    (∀ r key sig, s.boot.record = some r → r.certificate = some (key, sig) →
      exec (.doeCertificate port) s = .next { s with outs := .doe port ([0x82, 0, 0, 0, 0, 0, 0, 0] ++ key ++ sig) :: s.outs }))

/-! ### Admission (R320 to R323) -/

/-- ADM_SRC_WRITE: a budget inside the limits is stored, with the totals; another is refused, counted and reported. R323: a lower `BURST`
clips the bucket at once, a higher one leaves it until the next tick. R324: a message that waits when its source's rate becomes 0 is denied.
ADMISSION_TICK: every bucket gains its rate, up to its burst, and where
nothing waits nothing else happens. -/
def Obligations.AdmissionBudgetsAndBuckets : Prop :=
  (∀ (s : State) (port : Fin 2) (n : Fin 524) (v : BitVec 32), s.Open port .unit →
    let rate := bitsAt v.toNat 0 16
    let burst := bitsAt v.toNat 16 8
    let rs := s.rd F.admTotal_rateSum 0 - s.rd F.admSrc_rate n + rate
    let bs := s.rd F.admTotal_burstSum 0 - s.rd F.admSrc_burst n + burst
    ((rs ≤ s.rd F.admLimit_rateLim 0 ∧ bs ≤ s.rd F.admLimit_burstLim 0 ∧ (s.srcUnfitted n = true → rate = 0 ∧ burst = 0)) →
      ∃ t, exec (.admSrcWrite port n v) s = .next t ∧ t.rd F.admSrc_rate n = rate ∧ t.rd F.admSrc_burst n = burst ∧
        t.rd F.admTotal_rateSum 0 = rs % 2 ^ F.admTotal_rateSum.w ∧ t.rd F.admTotal_burstSum 0 = bs % 2 ^ F.admTotal_burstSum.w ∧
        t.bucket n = min (s.bucket n) (burst * 4096) ∧ (∀ m, m ≠ n.val → t.bucket m = s.bucket m) ∧
        s.RegsBut t [(F.admSrc_rate, n), (F.admSrc_burst, n), (F.admTotal_rateSum, 0), (F.admTotal_burstSum, 0), (F.admShape_denied, n)] ∧
        { t with regs := s.regs, buckets := s.buckets, tc0Wait := s.tc0Wait, net := s.net } = s ∧
        (mget s.tc0Wait n [] = [] → t.rd F.admShape_denied n = s.rd F.admShape_denied n ∧ t.net = s.net ∧ t.tc0Wait = s.tc0Wait) ∧
        (∀ x p, mget s.tc0Wait n [] = [(x, p)] → rate = 0 →
          t.rd F.admShape_denied n = min (s.rd F.admShape_denied n + 1) (2 ^ F.admShape_denied.w - 1) ∧ mget t.tc0Wait n [] = [] ∧
          (p.payload.length ≤ 1024 → p.reply = false → p.noack = false → t.net = s.net ++ [t.localNack p 2]))) ∧
    ((s.rd F.admLimit_rateLim 0 < rs ∨ s.rd F.admLimit_burstLim 0 < bs ∨ (s.srcUnfitted n = true ∧ (rate ≠ 0 ∨ burst ≠ 0))) →
      ∃ t, exec (.admSrcWrite port n v) s = .next t ∧ t.rd F.admRefused_src 0 = n ∧
        t.rd F.admRefused_count 0 = min (s.rd F.admRefused_count 0 + 1) (2 ^ F.admRefused_count.w - 1) ∧ s.Barked t 0x0009 {} [(24, n)] ∧
        { t with regs := s.regs, host := s.host, faults := s.faults } = s ∧
        s.RegsBut t ((F.admRefused_src, 0) :: (F.admRefused_count, 0) :: lostRecords))) ∧
  (∀ s : State, s.tc0Wait = [] →
    ∃ t, exec .admissionTick s = .next t ∧ (∀ n < 524, t.bucket n = min (s.bucket n + s.rd F.admSrc_rate n) (s.bucketMax n)) ∧
      { t with buckets := s.buckets, ticks := s.ticks } = s)

/-! ### Tile registers and memory upkeep (R109, R174, R175, R191, R192) -/

/-- ARR_FLAGS_WRITE, TM_RGN_WRITE, REGION_INIT_DONE: flags are cleared by writing 1; a descriptor is stored and its region filled with
zeros, or refused for a member of a running region. REGION_INIT_DONE: every byte of the region reads 0, every other byte as before.
CORRECTED_WRITEBACK and SCRATCHPAD_SCRUB: in a SECDED64 region every word of the line with one flipped bit is stored whole; a scrub also
counts them. -/
def Obligations.TileRegistersAndRegions : Prop :=
  (∀ (s : State) (port : Fin 2) (a : Fin 512), s.Open port .unit → s.arrVacant a = false →
    (∀ v : BitVec 32, ∃ t, exec (.arrFlagsWrite port a v false) s = .next t ∧
      (∀ f ∈ regFields .arrFlags, f.acc = .w1c → t.rd f a = if f.of v.toNat = 1 then 0 else s.rd f a % 2) ∧
      t.rd F.arrFlags_satCount a = (if v.getLsbD 5 then 0 else s.rd F.arrFlags_satCount a) ∧
      s.OnlyRegs t ((regFields .arrFlags).map (fun f => (f, a.val)))) ∧
    (∀ v : BitVec 32, ∃ t, exec (.arrFlagsWrite port a v true) s = .next t ∧ t.rd F.arrFlags_saturated a = 1 ∧
      s.OnlyRegs t ((regFields .arrFlags).map (fun f => (f, a.val)))) ∧
    (∀ (n : Fin 16) (v : BitVec 64), s.isMember a = true →
      ∃ t, exec (.tmRgnWrite port a n v) s = .next t ∧ s.Barked t 0x0002 { kind := .array, num := a } [(24, n)] ∧
        { t with regs := s.regs, host := s.host, faults := s.faults } = s ∧ s.RegsBut t lostRecords) ∧
    (∀ (n : Fin 16) (v : BitVec 64), s.inRegion a = false → (s.storeReg .tmRgn (a * 16 + n) v.toNat fullMask).rgnBad a n = false →
      ∃ t, exec (.tmRgnWrite port a n v) s = .next t ∧ t.Holds .tmRgn (a * 16 + n) v.toNat ∧
        (s.rgnValid a n = false → F.tmRgn_valid.of v.toNat = 1 → t.rd F.tmRgn_initBusy (a * 16 + n) = 1))) ∧
  (∀ (s : State) (a : Fin 512) (n : Fin 16), s.rd F.tmRgn_initBusy (a * 16 + n) = 1 → s.halted (s.arrIsland a) = false →
    ∃ t, exec (.regionInitDone a n) s = .next t ∧
      (∀ x, s.rgnLo a n ≤ x → x < s.rgnHi a n → x < 67108864 → t.byte (s.siteOf a) x = 0) ∧
      (∀ u x, x < 67108864 → ¬ (u = s.siteOf a ∧ s.rgnLo a n ≤ x ∧ x < s.rgnHi a n) → t.byte u x = s.byte u x) ∧
      t.rd F.tmRgn_initBusy (a * 16 + n) = 0 ∧ { t with regs := s.regs, mem := s.mem, flips := s.flips } = s ∧
      s.RegsBut t [(F.tmRgn_initBusy, a * 16 + n)]) ∧
  (∀ (s : State) (site : Fin 576) (line a : Nat), line < 1048576 → s.halted site = false → s.secdedAt site line = some a →
    (∃ t, exec (.correctedWriteback site line) s = .next t ∧ (∀ w ∈ (s.lineErrs site line).1, t.flip site w = 0) ∧
      (∀ w < 8388608, w ∉ (s.lineErrs site line).1 → t.flip site w = s.flip site w) ∧ { t with flips := s.flips } = s) ∧
    ((s.lineErrs site line).1 ≠ [] → (s.lineErrs site line).2 = [] →
      ∃ t, exec (.scratchpadScrub site line) s = .next t ∧ (∀ w ∈ (s.lineErrs site line).1, t.flip site w = 0) ∧
        t.rd F.tmErrCnt_corrCnt a = min (s.rd F.tmErrCnt_corrCnt a + (s.lineErrs site line).1.length) 0xFFFFFFFF ∧ t.mem = s.mem ∧
        t.stack = s.stack ∧ t.arrays = s.arrays))

/-! ### Host ports (R421 to R445) -/

/-- DOORBELL_POLL and DOORBELL_PAGE_RETURN: one page read at a time; a returned page gives the counts of enabled rings (R428), and what
is fetched joins the descriptors held. FIELD_TX queues its frame at an enabled port; a disabled one completes it with status 0x10.
HOST_READ_TIMEOUT fails what reads host memory with status 0x03, counts it and reports it; where it names no descriptor, the read of the
doorbell page ends (log entry 100). -/
def Obligations.DoorbellsFramesAndHostFaults : Prop :=
  (∀ (s : State) (port : Fin 2), s.portUp port = true → s.inSit = false →
    (s.rd F.rngDbCfg_en port = 1 → s.rd F.idnState_panelState 0 = 1 → (s.hport port).polling = false →
      ∃ t, exec (.doorbellPoll port) s = .next t ∧ (t.hport port).polling = true ∧
        t.outs = .hostRead port (s.rd F.rngDbBase_addr port) 4096 :: s.outs ∧ { t with host := s.host, outs := s.outs } = s) ∧
    (∀ page : DoorbellPage, (s.hport port).polling = true → page.page.length = 4096 →
      ∃ t, exec (.doorbellPageReturn port page) s = .next t ∧ (t.hport port).polling = false ∧ s.host.descrs <+: t.host.descrs ∧
        s.MemSame t ∧
        (∀ q < 256, mget (t.hport port).prod q 0 =
          if s.rd F.rngSqCfg_en (sqI port q) = 1 then leNat ((page.page.drop (8 * q)).take 4) else mget (s.hport port).prod q 0) ∧
        (∀ c < 128, mget (t.hport port).cqHead c 0 =
          if s.rd F.rngCqCfg_en (cqI port c) = 1 then leNat ((page.page.drop (0x800 + 8 * c)).take 4) else mget (s.hport port).cqHead c 0))) ∧
  (∀ (s : State) (port : Fin 2) (sq : Fin 256) (k : Nat) (f : FDescr),
    (∀ frame, s.ready (port, sq, k) 0x30 true = some f → s.descrStatus f .priv 0 0 = 0 → f.d.unit < 8 → frame.length = f.d.len →
      60 ≤ f.d.len → f.d.len ≤ (if s.rd F.fldPort_vlanId f.d.unit = 0 then 1514 else 1510) →
      (s.rd F.fldPort_en f.d.unit = 1 →
        ∃ t, exec (.fieldTx port sq k frame) s = .next t ∧ (t.fport f.d.unit).hostTx = (s.fport f.d.unit).hostTx ++ [(frame, f.id)] ∧
          { t with field := s.field, host := s.host } = s) ∧
      (s.rd F.fldPort_en f.d.unit = 0 → f.Loud →
        ∃ t, exec (.fieldTx port sq k frame) s = .next t ∧ s.Completed t f 0x10 0 0 0 ∧ { t with regs := s.regs, host := s.host } = s)) ∧
    (∀ g, s.descr (port, sq, k) = some g → readsHost g.d.opcode = true → s.ready (port, sq, k) g.d.opcode true = some f → f.Loud →
      ∃ t, exec (.hostReadTimeout port sq k) s = .next t ∧ s.Completed t f 0x03 0 0 0 ∧
        t.rd F.hifErr_hostFault port = min (s.rd F.hifErr_hostFault port + 1) (2 ^ F.hifErr_hostFault.w - 1) ∧ s.MemSame t) ∧
    (s.descr (port, sq, k) = none → (s.hport port).polling = true →
      ∃ t, exec (.hostReadTimeout port sq k) s = .next t ∧ (t.hport port).polling = false ∧
        t.rd F.hifErr_hostFault port = min (s.rd F.hifErr_hostFault port + 1) (2 ^ F.hifErr_hostFault.w - 1) ∧ s.MemSame t))

/-- NOP and UNDEFINED_DESCRIPTOR_OPCODE complete at once, with status 0 and 1; `QUIET` writes no entry for status 0 (R433, R434). A
descriptor that R433 or R437 refuses completes with that status and does nothing else, whatever its command. -/
def Obligations.DescriptorsThatOnlyComplete : Prop :=
  (∀ (s : State) (port : Fin 2) (sq : Fin 256) (k : Nat) (f : FDescr),
    (s.ready (port, sq, k) 0x00 false = some f → s.descrStatus f .none 0 0 = 0 → f.Loud →
      ∃ t, exec (.nop port sq k) s = .next t ∧ s.Completed t f 0 0 0 0 ∧ { t with regs := s.regs, host := s.host } = s ∧
        s.RegsBut t [(F.rngCqStat_full, cqI port (s.rd F.rngSqCfg_cq (sqI port sq)))]) ∧
    (s.ready (port, sq, k) 0x00 false = some f → s.descrStatus f .none 0 0 = 0 → f.d.quiet = true → f.after = [] →
      ∃ t, exec (.nop port sq k) s = .next t ∧ t.descr (port, sq, k) = none ∧ t.host.ports = s.host.ports ∧
        { t with regs := s.regs, host := s.host } = s) ∧
    (∀ g, s.descr (port, sq, k) = some g → g.d.opcode ∉ definedOpcodes → s.ready (port, sq, k) g.d.opcode false = some f →
      s.descrStatus f .none 0 0 = 0 → f.Loud →
      ∃ t, exec (.undefinedDescriptorOpcode port sq k) s = .next t ∧ s.Completed t f 1 0 0 0 ∧ { t with regs := s.regs, host := s.host } = s)) ∧
  (∀ (s : State) (port : Fin 2) (sq : Fin 256) (k st : Nat) (f : FDescr), f.Loud → st ≠ 0 →
    (s.ready (port, sq, k) 0x02 false = some f → s.descrStatus f .array 1 16777216 = st →
      ∃ t, exec (.scratchRead port sq k) s = .next t ∧ s.Completed t f st 0 0 0 ∧ { t with regs := s.regs, host := s.host } = s) ∧
    (s.ready (port, sq, k) 0x10 false = some f → s.descrStatus f .array 0 0 = st →
      ∃ t, exec (.regionStart port sq k) s = .next t ∧ s.Completed t f st 0 0 0 ∧ { t with regs := s.regs, host := s.host } = s) ∧
    (s.ready (port, sq, k) 0x21 false = some f → s.descrStatus f .pack 1 16777216 = st →
      ∃ t, exec (.tableRead port sq k) s = .next t ∧ s.Completed t f st 0 0 0 ∧ { t with regs := s.regs, host := s.host } = s) ∧
    (∀ frame, s.ready (port, sq, k) 0x30 true = some f → s.descrStatus f .priv 0 0 = st →
      ∃ t, exec (.fieldTx port sq k frame) s = .next t ∧ s.Completed t f st 0 0 0 ∧ { t with regs := s.regs, host := s.host } = s))

/-- SCRATCH_WRITE, SCRATCH_READ, HOST_SIGNAL inject their requests in order, each with its own request tag, and wait for the answers. What
enters the net for a request without a route is the NACK of the die's own router (R252). -/
def Obligations.HostDescriptorsSendRequests : Prop :=
  ∀ (s : State) (port : Fin 2) (sq : Fin 256) (k : Nat) (f : FDescr),
    (s.arrVacant f.d.unit = false → s.arrHeld f.d.unit = false → ∀ data, s.ready (port, sq, k) 0x01 true = some f →
      s.descrStatus f .array 1 16777216 = 0 → data.length = f.d.len →
      ∃ t, exec (.scratchWrite port sq k data) s = .next t ∧
        t.net = s.net ++ s.enteringAll s.nextTag ((packetsOf f.d.offset data).map (fun p =>
          { body := .write, dst := .tile f.d.unit, src := .host f.port, off := p.1, ctr := f.d.ctr, ctrEn := f.d.ctrEn, payload := p.2 })) ∧
        t.nextTag = s.nextTag + (packetsOf f.d.offset data).length ∧
        { t with net := s.net, reqs := s.reqs, nextTag := s.nextTag, host := s.host } = s) ∧
    (s.arrVacant f.d.unit = false → s.arrHeld f.d.unit = false → s.ready (port, sq, k) 0x02 false = some f →
      s.descrStatus f .array 1 16777216 = 0 →
      ∃ t, exec (.scratchRead port sq k) s = .next t ∧
        t.net = s.net ++ s.enteringAll s.nextTag ((readCuts f.d.offset (f.d.len / 4096 + 2) 0 f.d.len).map (fun c =>
          { body := .readReq c.2.1, dst := .tile f.d.unit, src := .host f.port, off := c.1 })) ∧
        { t with net := s.net, reqs := s.reqs, nextTag := s.nextTag, host := s.host } = s) ∧
    (∀ ms, s.ready (port, sq, k) 0x03 false = some f → f.d.ctrEn = true → s.descrStatus f .group 0 0 = 0 → f.d.value ≠ 0 →
      s.holds.contains (scopeMcast f.d.unit) = false → ms = maskList (mget s.mcast f.d.unit 0) 512 → ms ≠ [] →
      (∀ m ∈ ms, s.arrVacant m = false) →
      ∃ t, exec (.hostSignal port sq k) s = .next t ∧
        t.net = s.net ++ s.enteringAll s.nextTag (ms.map (fun m =>
          { body := .signal f.d.value, dst := .tile m, src := .host f.port, ctr := f.d.ctr })) ∧
        { t with net := s.net, reqs := s.reqs, nextTag := s.nextTag, host := s.host } = s) ∧
    (s.arrVacant f.d.unit = false → s.arrHeld f.d.unit = false → s.ready (port, sq, k) 0x03 false = some f → f.d.ctrEn = false →
      s.descrStatus f .array 0 0 = 0 → f.d.value ≠ 0 →
      ∃ t, exec (.hostSignal port sq k) s = .next t ∧
        t.net = s.net ++ s.enteringAll s.nextTag [{ body := .signal f.d.value, dst := .tile f.d.unit, src := .host f.port, ctr := f.d.ctr }] ∧
        t.nextTag = s.nextTag + 1 ∧ { t with net := s.net, reqs := s.reqs, nextTag := s.nextTag, host := s.host } = s)

/-- COMPLETION_ENTRY_WRITE and MSIX_TIMEOUT: the oldest held entry is written at `PROD`, whose count advances; a ring that waits for its
interrupt signals its vector, which reaches the host unless it is masked. EVENT_RECORD_WRITE and TELEMETRY_TICK: records leave oldest
first while the ring has room; a tick adds one record for the panel and one for each fitted pack. -/
def Obligations.EntriesAndRecordsReachTheHost : Prop :=
  (∀ (s : State) (port : Fin 2) (cq : Fin 128), s.portUp port = true →
    (∀ k e rest, mget (s.hport port).held cq [] = (k, e) :: rest → s.inSit = false → s.cqRoom port cq = true →
      ∃ t, exec (.completionEntryWrite port cq) s = .next t ∧
        .hostWrite port (s.rd F.rngCqBase_addr (cqI port cq) +
            32 * (s.rd F.rngCqStat_prod (cqI port cq) % 2 ^ s.rd F.rngCqCfg_log2Size (cqI port cq)))
          (e.bytes (s.rd F.rngCqStat_prod (cqI port cq) / 2 ^ s.rd F.rngCqCfg_log2Size (cqI port cq) % 2 == 0)) ∈ t.outs ∧
        t.rd F.rngCqStat_prod (cqI port cq) = (s.rd F.rngCqStat_prod (cqI port cq) + 1) % 2 ^ F.rngCqStat_prod.w ∧
        t.descr (port, e.sq, k) = none ∧ s.MemSame t) ∧
    (mget (s.hport port).unsignalled cq 0 ≠ 0 → s.rd F.rngCqCfg_intUs (cqI port cq) ≠ 0 → s.rd F.rngCqCfg_intCnt (cqI port cq) ≠ 0 →
      (s.msixMasked port (s.rd F.rngCqCfg_vec (cqI port cq)) = false →
        ∃ t, exec (.msixTimeout port (some cq)) s = .next t ∧ t.outs = .msix port (s.rd F.rngCqCfg_vec (cqI port cq)) :: s.outs ∧
          mget (t.hport port).unsignalled cq 0 = 0 ∧ { t with host := s.host, outs := s.outs } = s) ∧
      (s.msixMasked port (s.rd F.rngCqCfg_vec (cqI port cq)) = true →
        ∃ t, exec (.msixTimeout port (some cq)) s = .next t ∧ s.rd F.rngCqCfg_vec (cqI port cq) ∈ (t.hport port).msixPend ∧
          mget (t.hport port).unsignalled cq 0 = 0 ∧ { t with host := s.host } = s)) ∧
    (s.rd F.rngEvtCfg_port 0 = port → s.host.evUnsignalled ≠ 0 → s.rd F.rngEvtCfg_intUs 0 ≠ 0 → s.rd F.rngEvtCfg_intCnt 0 ≠ 0 →
      s.msixMasked port (s.rd F.rngEvtCfg_vec 0) = false →
      ∃ t, exec (.msixTimeout port none) s = .next t ∧ t.outs = .msix port (s.rd F.rngEvtCfg_vec 0) :: s.outs ∧
        t.host.evUnsignalled = 0 ∧ { t with host := s.host, outs := s.outs } = s)) ∧
  (∀ s : State,
    (s.rd F.rngEvtCfg_en 0 = 1 → s.portUp (s.rd F.rngEvtCfg_port 0) = true → s.host.evHeld ≠ [] →
      (s.rd F.rngEvtStat_prod 0 + 2 ^ 32 - s.host.evHead % 2 ^ 32) % 2 ^ 32 < 2 ^ s.rd F.rngEvtCfg_log2Size 0 →
      ∃ t n, exec .eventRecordWrite s = .next t ∧ 1 ≤ n ∧ t.host.evHeld = s.host.evHeld.drop n ∧
        (∀ r ∈ s.host.evHeld.head?, .hostWrite (s.rd F.rngEvtCfg_port 0)
            (s.rd F.rngEvtBase_addr 0 + 64 * (s.rd F.rngEvtStat_prod 0 % 2 ^ s.rd F.rngEvtCfg_log2Size 0))
            ({ r with lost := s.host.evLost }.bytes (s.rd F.rngEvtStat_prod 0 / 2 ^ s.rd F.rngEvtCfg_log2Size 0 % 2 == 0)) ∈ t.outs) ∧
        t.rd F.rngEvtStat_prod 0 = (s.rd F.rngEvtStat_prod 0 + n) % 2 ^ 32 ∧ { t with regs := s.regs, host := s.host, outs := s.outs } = s) ∧
    (s.rd F.rngEvtCfg_telEn 0 = 1 → s.rd F.idnState_panelState 0 = 1 → s.inSit = false →
      ∃ t, exec .telemetryTick s = .next t ∧ t.host.evSeq % 2 ^ 32 = (s.host.evSeq + 1 + s.packList.length) % 2 ^ 32 ∧
        { t with regs := s.regs, host := s.host, faults := s.faults } = s ∧ s.RegsBut t lostRecords))

/-- HOST_PORT_RESET, FUNCTION_LEVEL_RESET, HOST_LINK_UP, BUS_MASTER_ENABLE_CHANGE (R444, R480): a reset port has every ring disabled and no
mastering; the other port's rings stay. -/
def Obligations.HostPortsResetAndComeUp : Prop :=
  ∀ (s : State) (port : Fin 2),
    (∃ t, exec (.hostPortReset port) s = .next t ∧ (t.hport port).linkUp = false ∧ (t.hport port).busMaster = false ∧
      (∀ q < 256, t.rd F.rngSqCfg_en (sqI port q) = 0 ∧ t.rd F.rngSqCfg_en (sqI (1 - port) q) = s.rd F.rngSqCfg_en (sqI (1 - port) q)) ∧
      (∀ c < 128, t.rd F.rngCqCfg_en (cqI port c) = 0) ∧ s.MemSame t) ∧
    ((s.hport port).linkUp = true → ∃ t, exec (.functionLevelReset port) s = .next t ∧ (t.hport port).linkUp = true ∧
      (t.hport port).busMaster = false ∧ (∀ q < 256, t.rd F.rngSqCfg_en (sqI port q) = 0) ∧
      t.rd F.hifStat_speed port = s.rd F.hifStat_speed port % 8 ∧ s.MemSame t) ∧
    (∀ speed width flit, (s.hport port).linkUp = false → s.boot.busesUp = true → s.rd F.idnState_panelState 0 ≠ 2 →
      s.rd F.idnStage_failed (2 + port) = 0 → 1 ≤ speed → speed ≤ 6 → width ∈ [1, 2, 4, 8, 16] → s.inSit = false →
      ∃ t, exec (.hostLinkUp port speed width flit) s = .next t ∧ (t.hport port).linkUp = true ∧ t.rd F.hifStat_speed port = speed ∧
        t.rd F.hifStat_width port = width ∧ t.rd F.hifStat_flit port = (if flit then 1 else 0) ∧ { t with regs := s.regs, host := s.host } = s ∧
        s.RegsBut t [(F.hifStat_speed, port), (F.hifStat_width, port), (F.hifStat_flit, port)]) ∧
    (∀ enable d3hot, (s.hport port).linkUp = true →
      ∃ t, exec (.busMasterEnableChange port enable d3hot) s = .next t ∧ (t.hport port).busMaster = enable ∧ (t.hport port).d3hot = d3hot ∧
        t.portUp port = (enable && !d3hot) ∧ { t with host := s.host } = s)

/-! ### Step records: issue, waits, failures (R110 to R115, R144 to R151) -/

/-- R115: a record with an undefined opcode (UNDEFINED_OPCODE) does not execute, and the step fails with opcode-illegal; one with a
non-zero reserved bit, a field outside its range or a misalignment does not execute, and its command fails the step with field-illegal.
VECOP_RESERVED_FUNC (R129): a function that is not defined, or not offered for the operand format, fails the step with field-illegal. -/
def Obligations.IllegalRecordsFailTheStep : Prop :=
  ∀ (s : State) (a : Fin 512) (run : StepRun) (r : Record), s.AtRecord a run r → run.failed = none → run.cancelled = false →
    (recKind r = none → ∃ t, exec (.undefinedOpcode a) s = .next t ∧ s.Reported t a run 0x01 (recTag r) run.next ∧ s.MemSame t) ∧
    (∀ k, recKind r = some k → fieldsOk r k = false →
      ∃ t, exec (recordCommand a r) s = .next t ∧ s.Reported t a run 0x02 (recTag r) run.next ∧ s.MemSame t) ∧
    (recKind r = some .vecop → (funcDefined (Rf r 8 0 8) = false ∨ funcOffered (Rf r 8 0 8) (compOf (Rf r 9 0 4)) = false) →
      ∃ t, exec (.vecopReservedFunc a) s = .next t ∧ s.Reported t a run 0x02 (recTag r) run.next ∧ s.MemSame t)

/-- FETCH_LIMIT_EXCEEDED fails the step with field-illegal (R112). WAIT_COUNT, FENCE and END issue and wait; nothing else changes.
WAIT_COUNT_MET takes `TARGET` from the counter where `CONSUME` is set; WAIT_TIMEOUT fails the step with wait-timeout (R144, R187).
RECORD_COMPLETE and SHADOW_LOAD_DONE: a record with nothing left to wait for leaves, counting at `DONE_CTR`; END ends the step with a
report of success; a tile that has arrived can be computed with (R58, R92, R149). -/
def Obligations.RecordsIssueWaitAndComplete : Prop :=
  (∀ (s : State) (a : Fin 512) (run : StepRun), run.failed = none → run.cancelled = false →
    ((s.arr a).run = some run → run.issuing = true → 65536 ≤ run.fetched → (s.arr a).flights = [] → s.halted (s.arrIsland a) = false →
      ∃ t, exec (.fetchLimitExceeded a) s = .next t ∧ s.Reported t a run 0x02 0 run.next ∧ s.MemSame t)) ∧
  (∀ (s : State) (a : Fin 512) (run : StepRun) (r : Record) (p : Plan),
    (s.Fetches a run r .waitCount p → exec (.waitCount a) s = .next (s.inFlight a run r .waitCount p
      (.counter (Rf r 8 0 6) (Rf r 12 0 32) (if Rf r 16 0 32 = 0 then 0 else s.now + 100 * Rf r 16 0 32) (Rf r 9 0 1 == 1)))) ∧
    (s.Fetches a run r .fence p → exec (.fence a) s = .next (s.inFlight a run r .fence p .fence)) ∧
    (s.Fetches a run r .endStep p → exec (.endStep a) s = .next (s.inFlight a run r .endStep p .fence))) ∧
  (∀ (s : State) (a : Fin 512) (run : StepRun) (f : Flight) (c target o : Nat) (consume : Bool), (s.arr a).run = some run →
    (s.arr a).flights = [f] → f.await = .counter c target o consume → c < 64 → s.halted (s.arrIsland a) = false →
    (target ≤ s.rd F.tmCtr_value (a * 64 + c) → s.rd F.tmCtr_value (a * 64 + c) < 2 ^ 32 → run.issuing = true → f.status = 0 →
      f.doneCtr = none → f.gaps = [] → recKind f.record = some .waitCount →
      ∃ t, exec (.waitCountMet a) s = .next t ∧
        t.rd F.tmCtr_value (a * 64 + c) = s.rd F.tmCtr_value (a * 64 + c) - (if consume then target else 0) ∧
        t.arr a = { s.arr a with flights := [] } ∧ { t with regs := s.regs, arrays := s.arrays } = s ∧
        s.RegsBut t [(F.tmCtr_value, a * 64 + c)]) ∧
    (o ≠ 0 → s.rd F.tmCtr_value (a * 64 + c) < target → run.failed = none → run.cancelled = false →
      ∃ t, exec (.waitTimeout a) s = .next t ∧ s.Reported t a run 0x07 f.tag f.addr ∧ s.MemSame t)) ∧
  (∀ (s : State) (a : Fin 512) (run : StepRun) (f : Flight), (s.arr a).run = some run → (s.arr a).flights = [f] →
    s.halted (s.arrIsland a) = false →
    (f.await = .nothing → f.out = [] → f.status = 0 → f.gaps = [] → run.issuing = true → recKind f.record ≠ some .endStep →
      (f.doneCtr = none → ∃ t, exec (.recordComplete a f.n) s = .next t ∧ t.arr a = { s.arr a with flights := [] } ∧
        { t with arrays := s.arrays } = s) ∧
      (∀ c, f.doneCtr = some c → c < 64 → s.rd F.tmCtr_value (a * 64 + c) + 1 < 2 ^ 32 - 1 →
        ∃ t, exec (.recordComplete a f.n) s = .next t ∧ t.arr a = { s.arr a with flights := [] } ∧
          t.rd F.tmCtr_value (a * 64 + c) = s.rd F.tmCtr_value (a * 64 + c) + 1 ∧ { t with regs := s.regs, arrays := s.arrays } = s ∧
          s.RegsBut t [(F.tmCtr_value, a * 64 + c)])) ∧
    (f.await = .fence → f.status = 0 → f.doneCtr = none → f.gaps = [] → recKind f.record = some .endStep → run.failed = none →
      run.cancelled = false → run.superseded = false →
      ∃ t, exec (.recordComplete a f.n) s = .next t ∧ s.Reported t a run 0 0 0 ∧ s.MemSame t) ∧
    (∀ w, f.await = .shadowLoad → (s.arr a).shadow = some w → w.metaBad = false →
      ∃ t, exec (.shadowLoadDone a) s = .next t ∧
        t.arr a = { s.arr a with shadow := some { w with loading := false }, flights := [{ f with await := .nothing }] } ∧
        { t with arrays := s.arrays } = s) ∧
    (∀ w, f.await = .shadowLoad → (s.arr a).shadow = some w → w.metaBad = true → f.status = 0 →
      ∃ t, exec (.shadowLoadDone a) s = .next t ∧ t.rd F.arrFlags_metaErr a = 1 ∧
        (t.arr a).flights = [{ f with await := .nothing, status := 0x05 }] ∧
        (∃ q, (t.arr a).run = some q ∧ q.issuing = false ∧
          (run.failed = none → run.cancelled = false → q.failed = some (0x05, f.tag, f.addr))) ∧ { t with regs := s.regs, arrays := s.arrays } = s ∧
        s.RegsBut t [(F.arrFlags_metaErr, a)]))

/-! ### The vector unit (R98 to R101, R128, R129) -/

/-- Every elementwise VECOP: each result is the function of the elements at its place, in the computation format, converted once to the
destination's format; the flags that an element raises stay up; nothing else changes. -/
def Obligations.ElementwiseVecops : Prop :=
  ∀ p ∈ elementwiseCommands, ∀ (s : State) (a : Fin 512) (run : StepRun) (r : Record) (pl : Plan) (c : Ccw),
    s.Fetches a run r .vecop pl → Rf r 8 0 8 = p.2 → ccwOf (Rf r 40 0 16) = some c → s.VecReads a r p.2 →
    s.DstOk a r c.fmt (Rf r 30 0 16 * 64) (vecNr r) (vecNe r) →
    ∃ t, exec (p.1 a) s = .next t ∧
      s.VecWrote t a r c (Rf r 30 0 16 * 64) (convRows c (lanesOf c (Rf r 44 0 32)) ((List.range (vecNr r)).map (fun i =>
        (s.vecElems a r c p.2 i).map (fun q => elemVal (compOf (vecAf r)).fmt q.1 127)))) ∧
      (∀ i < vecNr r, ∀ q ∈ s.vecElems a r c p.2 i,
        (q.2.invalid = true → t.rd F.arrFlags_invalid a = 1) ∧ (q.2.divzero = true → t.rd F.arrFlags_divzero a = 1)) ∧
      t.RanToEnd a run r ∧ s.UnitFrame t a

/-- VECOP convert (R79, R560): every element, with its block's scale for an MX source, is converted once. VECOP select: each element
comes from A or B as the mask's bit says, as it stands where its format is the destination's, else converted. VECOP quantise: rows of MX
elements at D, and the scale bytes of their blocks at C. -/
def Obligations.ConvertSelectQuantise : Prop :=
  (∀ (s : State) (a : Fin 512) (run : StepRun) (r : Record) (pl : Plan) (c : Ccw),
    s.Fetches a run r .vecop pl → Rf r 8 0 8 = 0x00 → ccwOf (Rf r 40 0 16) = some c → s.VecReads a r 0x00 →
    s.DstOk a r c.fmt (Rf r 30 0 16 * 64) (vecNr r) (vecNe r) →
    (isMx (vecAf r) = true → s.RowsOk a (Rf r 20 0 26) (Rf r 34 0 16 * 64) (vecNr r) (ceilDiv (vecNe r) 32)) →
    ∃ t, exec (.vecopConvert a) s = .next t ∧
      s.VecWrote t a r c (Rf r 30 0 16 * 64) (convRows c (lanesOf c (Rf r 44 0 32)) ((List.range (vecNr r)).map (fun i =>
        rowVals (vecAf r) (if isMx (vecAf r) then (s.own a (Rf r 20 0 26 + i * (Rf r 34 0 16 * 64)) (ceilDiv (vecNe r) 32)).map BitVec.toNat else [])
          (s.opndRow a (Rf r 12 0 32) (vecAf r) (Rf r 28 0 16 * 64) (vecNe r) i)))) ∧
      t.RanToEnd a run r ∧ s.UnitFrame t a) ∧
  (∀ (s : State) (a : Fin 512) (run : StepRun) (r : Record) (pl : Plan) (c : Ccw),
    s.Fetches a run r .vecop pl → Rf r 8 0 8 = 0x10 → ccwOf (Rf r 40 0 16) = some c → s.VecReads a r 0x10 →
    s.RowsOk a (Rf r 20 0 26) (if Rf r 11 1 1 = 1 then 0 else Rf r 34 0 16 * 64) (vecNr r) 32 →
    s.DstOk a r c.fmt (Rf r 30 0 16 * 64) (vecNr r) (vecNe r) →
    ∃ t, exec (.vecopSelect a) s = .next t ∧
      s.VecWrote t a r c (Rf r 30 0 16 * 64) (selRows c (lanesOf c (Rf r 44 0 32)) ((List.range (vecNr r)).map (s.vecPick a r))) ∧
      t.RanToEnd a run r ∧ s.UnitFrame t a) ∧
  (∀ (s : State) (a : Fin 512) (run : StepRun) (r : Record) (pl : Plan) (c : Ccw) (d : Nat),
    s.Fetches a run r .vecop pl → Rf r 8 0 8 = 0x38 → ccwOf (Rf r 40 0 16) = some c → s.VecReads a r 0x38 → srcOf (Rf r 24 0 32) = .mem d →
    s.RowsOk a d (Rf r 30 0 16 * 64) (vecNr r) (ceilDiv (vecNe r * fmtWidth c.fmt) 8) →
    s.RowsOk a (Rf r 20 0 26) (Rf r 34 0 16 * 64) (vecNr r) (ceilDiv (vecNe r) 32) →
    ∃ t, exec (.vecopQuantise a) s = .next t ∧
      t.mem = (quantRows c (lanesOf c (Rf r 44 0 32)) ((List.range (vecNr r)).map (s.vecA a r))).zipIdx.foldl (fun m q =>
        Memory.tileWrite (Memory.tileWrite m (s.siteOf a) (d + q.2 * (Rf r 30 0 16 * 64)) (packElems (fmtWidth c.fmt) q.1.2))
          (s.siteOf a) (Rf r 20 0 26 + q.2 * (Rf r 34 0 16 * 64)) (q.1.1.map (BitVec.ofNat 8))) s.mem ∧
      t.RanToEnd a run r ∧ s.UnitFrame t a)

/-- VECOP compares (R99): bit e of a row's 32-byte mask tells the comparison of its element e. VECOP sum and maximum reductions (R101):
a row's lanes combine by the fixed tree, the rows in order, into one element. -/
def Obligations.ComparesAndReductions : Prop :=
  (∀ p ∈ compareCommands, ∀ (s : State) (a : Fin 512) (run : StepRun) (r : Record) (pl : Plan) (c : Ccw) (d : Nat),
    s.Fetches a run r .vecop pl → Rf r 8 0 8 = p.2 → ccwOf (Rf r 40 0 16) = some c → s.VecReads a r p.2 → srcOf (Rf r 24 0 32) = .mem d →
    s.RowsOk a d (Rf r 30 0 16 * 64) (vecNr r) 32 →
    ∃ t, exec (p.1 a) s = .next t ∧
      t.mem = (List.range (vecNr r)).foldl (fun m i => Memory.tileWrite m (s.siteOf a) (d + i * (Rf r 30 0 16 * 64))
        (leBytes 32 (listMask ((List.range (vecNe r)).filter (fun e =>
          (cmpOp p.2 ((s.vecA a r i).getD e (.fin false 0 0)) ((s.vecB a r i).getD e (.fin false 0 0))).1))))) s.mem ∧
      t.RanToEnd a run r ∧ s.UnitFrame t a) ∧
  (∀ p ∈ reductionCommands, ∀ (s : State) (a : Fin 512) (run : StepRun) (r : Record) (pl : Plan) (c : Ccw),
    s.Fetches a run r .vecop pl → Rf r 8 0 8 = p.2 → ccwOf (Rf r 40 0 16) = some c → s.VecReads a r p.2 → s.DstOk a r c.fmt 0 1 1 →
    ∃ t, exec (p.1 a) s = .next t ∧
      s.VecWrote t a r c 0 (convRows c (lanesOf c (Rf r 44 0 32)) [[elemVal (compOf (vecAf r)).fmt (s.vecReduced a r c p.2) 127]]) ∧
      t.RanToEnd a run r ∧ s.UnitFrame t a)

/-! ### The matrix unit, loads and stores (R55, R58, R82 to R97, R121 to R127) -/

/-- MATMUL: the swap if it is asked for, then every vector in order through the tile into the rows of one accumulator half. With a tile whose
metadata breaks R92 nothing is computed: the step fails with metadata-error (the model's choice, log entry 83). -/
def Obligations.MatmulAccumulates : Prop :=
  ∀ (s : State) (a : Fin 512) (run : StepRun) (r : Record) (pl : Plan) (c : Ccw) (w : WTile),
    s.Fetches a run r .matmul pl → ccwOf (Rf r 30 0 16) = some c →
    (if Rf r 25 0 1 = 1 then (s.arr a).shadow else (s.arr a).active) = some w → w.loading = false →
    (w.metaBad = true → ∃ t, exec (.matmul a) s = .next t ∧ s.Reported t a run 0x05 (recTag r) run.next) ∧
    (w.metaBad = false →
    s.RowsOk a (Rf r 8 0 26) (Rf r 16 0 32) (Rf r 26 0 9) (w.rows.length * fmtWidth (Rf r 24 0 4) / 8) →
    (isMx (Rf r 24 0 4) = true → s.RowsOk a (Rf r 12 0 26) (Rf r 20 0 32) (Rf r 26 0 9) (w.rows.length / 32)) →
    ∃ t, exec (.matmul a) s = .next t ∧
      t.half a (Rf r 28 0 1) = (List.range (Rf r 26 0 9)).foldl (fun x i => x.setRow (Rf r 29 0 8 + i)
        (matRow w (Rf r 24 0 4) c.md
          (unpackElems (fmtWidth (Rf r 24 0 4)) w.rows.length
            (s.own a (Rf r 8 0 26 + i * Rf r 16 0 32) (w.rows.length * fmtWidth (Rf r 24 0 4) / 8)))
          (if isMx (Rf r 24 0 4) then (s.own a (Rf r 12 0 26 + i * Rf r 20 0 32) (w.rows.length / 32)).map BitVec.toNat else [])
          (if Rf r 25 1 1 = 1 then zeroRow else x.row (Rf r 29 0 8 + i))).1)
        ((s.half a (Rf r 28 0 1)).retag (fmtTag (accFmtOf (Rf r 24 0 4) w.cls))) ∧
      t.half a (1 - Rf r 28 0 1) = s.half a (1 - Rf r 28 0 1) ∧ (t.arr a).active = some w ∧
      (Rf r 25 0 1 = 1 → (t.arr a).shadow = (s.arr a).active ∧ (t.arr a).shadowFresh = false) ∧ t.mem = s.mem ∧
      t.RanToEnd a run r ∧ s.UnitFrame t a)

/-- LOAD_WEIGHT puts the tile that its bytes, metadata and scales give into the shadow registers, on its way until SHADOW_LOAD_DONE; LOAD_ACC
copies rows into an accumulator half. -/
def Obligations.LoadsFillTileAndAccumulator : Prop :=
  ∀ (s : State) (a : Fin 512) (run : StepRun) (r : Record) (pl : Plan),
    (∀ fmt sp k nst mlen : Nat, s.Fetches a run r .loadWeight pl → (s.arr a).shadowFresh = false → fmt = Rf r 9 0 4 → sp = Rf r 9 4 2 →
      k = wDenseK (wClass fmt (Rf r 9 6 1 == 1)) sp → nst = (if sp = 0 then k else if sp = 1 then k / 2 else k / 4) →
      mlen = (if sp = 0 then 0 else k / 4 * (if sp = 1 then 128 else 64)) →
      s.RowsOk a (Rf r 12 0 26) (Rf r 16 0 32) nst (32 * fmtWidth fmt) →
      (sp ≠ 0 → s.ownOk a (Rf r 20 0 26) (Rf r 20 0 26 + mlen) = true) →
      (isMx fmt = true → s.ownOk a (Rf r 24 0 26) (Rf r 24 0 26 + k / 32 * 256) = true) →
      ∃ t, exec (.loadWeight a) s = .next t ∧
        (t.arr a).shadow = some (buildTile fmt sp (Rf r 9 6 1 == 1)
          ((List.range nst).map (fun i => s.own a (Rf r 12 0 26 + i * Rf r 16 0 32) (32 * fmtWidth fmt)))
          (if sp = 0 then [] else s.own a (Rf r 20 0 26) mlen)
          (if isMx fmt then (List.range (k / 32)).map (fun b => ((s.own a (Rf r 24 0 26) (k / 32 * 256)).drop (256 * b)).take 256) else [])) ∧
        (t.arr a).active = (s.arr a).active ∧ (t.arr a).shadowFresh = true ∧
        (∃ f, (t.arr a).flights = [f] ∧ f.record = r ∧ f.await = .shadowLoad) ∧ t.mem = s.mem ∧ s.UnitFrame t a) ∧
    (s.Fetches a run r .loadAcc pl → Rf r 11 0 8 + Rf r 20 0 9 ≤ accRows (fmtTag (Rf r 9 0 4)) →
      s.RowsOk a (Rf r 12 0 26) (Rf r 16 0 32) (Rf r 20 0 9) (32 * fmtWidth (Rf r 9 0 4)) →
      ∃ t, exec (.loadAcc a) s = .next t ∧
        t.half a (Rf r 10 0 1) = (List.range (Rf r 20 0 9)).foldl (fun x i => x.setRow (Rf r 11 0 8 + i)
          (unpackElems (fmtWidth (Rf r 9 0 4)) 256 (s.own a (Rf r 12 0 26 + i * Rf r 16 0 32) (32 * fmtWidth (Rf r 9 0 4)))))
          ((s.half a (Rf r 10 0 1)).retag (fmtTag (Rf r 9 0 4))) ∧
        t.half a (1 - Rf r 10 0 1) = s.half a (1 - Rf r 10 0 1) ∧ t.mem = s.mem ∧ t.RanToEnd a run r ∧ s.UnitFrame t a)

/-- LOAD_COPY, STORE_COPY, STORE_ACC, STORE_FLAGS: to or from the own scratchpad at once, without a counter named; to or from another
array by packets that the record waits for. -/
def Obligations.CopiesAndStores : Prop :=
  ∀ (s : State) (a : Fin 512) (run : StepRun) (r : Record) (pl : Plan) (d : GAddr), d = gaddrOf (Rf r 24 0 64) →
    (s.Fetches a run r .loadCopy pl → d.array = a → s.ownOk a (Rf r 12 0 26) (Rf r 12 0 26 + Rf r 16 0 32) = true →
      s.ownOk a d.off (d.off + Rf r 16 0 32) = true →
      ∃ t, exec (.loadCopy a) s = .next t ∧
        t.mem = Memory.tileWrite s.mem (s.siteOf a) (Rf r 12 0 26) (s.own a d.off (Rf r 16 0 32)) ∧
        t.RanToEnd a run r ∧ s.UnitFrame t a ∧ t.regs = s.regs) ∧
    (s.Fetches a run r .loadCopy pl → d.array ≠ a → s.arrVacant d.array = false →
      s.ownOk a (Rf r 12 0 26) (Rf r 12 0 26 + Rf r 16 0 32) = true →
      ∃ t, exec (.loadCopy a) s = .next t ∧ s.Asked t a run r (s.nextTag + 1)
        ((packetsOf (Rf r 12 0 26) (List.replicate (Rf r 16 0 32) 0)).map (fun q =>
          { body := .readReq q.2.length, dst := .tile d.array, src := .tile a, off := d.off + (q.1 - Rf r 12 0 26) })) ∧
        { t with arrays := s.arrays, net := s.net, reqs := s.reqs, nextTag := s.nextTag } = s) ∧
    (s.Fetches a run r .storeCopy pl → s.ownOk a (Rf r 12 0 26) (Rf r 12 0 26 + Rf r 16 0 32) = true →
      (d.array = a → d.ctrEn = false → s.ownOk a d.off (d.off + Rf r 16 0 32) = true →
        s.PacketsOk a d.off (s.own a (Rf r 12 0 26) (Rf r 16 0 32)) →
        ∃ t, exec (.storeCopy a) s = .next t ∧
          t.mem = putPackets s.mem (s.siteOf a) d.off (s.own a (Rf r 12 0 26) (Rf r 16 0 32)) ∧
          t.RanToEnd a run r ∧ s.UnitFrame t a ∧ t.regs = s.regs) ∧
      (d.array ≠ a → s.arrVacant d.array = false →
        ∃ t, exec (.storeCopy a) s = .next t ∧ s.Asked t a run r (s.nextTag + 1) (writePackets a d d.off (s.own a (Rf r 12 0 26) (Rf r 16 0 32))) ∧
          { t with arrays := s.arrays, net := s.net, reqs := s.reqs, nextTag := s.nextTag } = s)) ∧
    (∀ (c : Ccw) (rows : List (List Byte)), s.Fetches a run r .storeAcc pl → ccwOf (Rf r 20 0 16) = some c →
      Rf r 11 0 8 + Rf r 12 0 9 ≤ accRows (s.half a (Rf r 10 0 1)).tag →
      rows = (List.range (Rf r 12 0 9)).map (fun i => packElems (fmtWidth c.fmt) ((List.range 256).map (fun e =>
        (convertTo c c.md (if c.md = .sr then laneDraw (Rf r 32 0 32) e i else 0) (elemVal (accTagFmt (s.half a (Rf r 10 0 1)).tag)
          (((s.half a (Rf r 10 0 1)).row (Rf r 11 0 8 + i)).getD e 0) 127)).1))) →
      (d.array = a → d.ctrEn = false → s.RowsOk a d.off (Rf r 16 0 32) (Rf r 12 0 9) (32 * fmtWidth c.fmt) →
        (∀ q ∈ rows.zipIdx, s.PacketsOk a (d.off + q.2 * Rf r 16 0 32) q.1) →
        ∃ t, exec (.storeAcc a) s = .next t ∧
          t.mem = rows.zipIdx.foldl (fun m q => putPackets m (s.siteOf a) (d.off + q.2 * Rf r 16 0 32) q.1) s.mem ∧
          t.RanToEnd a run r ∧ s.UnitFrame t a) ∧
      (d.array ≠ a → s.arrVacant d.array = false →
        ∃ t, exec (.storeAcc a) s = .next t ∧
          s.Asked t a run r (s.nextTag + 1) (rows.zipIdx.flatMap (fun q => writePackets a d (d.off + q.2 * Rf r 16 0 32) q.1)) ∧ s.MemSame t)) ∧
    (s.Fetches a run r .storeFlags pl → s.ownOk a (Rf r 12 0 26) (Rf r 12 0 26 + 4) = true →
      ∃ t, exec (.storeFlags a) s = .next t ∧
        t.mem = Memory.tileWrite s.mem (s.siteOf a) (Rf r 12 0 26) (leBytes 4 (s.rdReg .arrFlags a)) ∧
        (Rf r 9 0 1 = 0 → t.regs = s.regs) ∧
        (Rf r 9 0 1 = 1 → ∀ f ∈ flagBits, (s.rdReg .arrFlags a % 512).testBit f.lo = true → t.rd f a = 0) ∧
        t.RanToEnd a run r ∧ s.UnitFrame t a)

/-! ### The gate unit and the fabric unit's records -/

/-- GATE: routing list, count block and running counts are those of the tokens taken one after another. -/
def Obligations.GateRoutesTokens : Prop :=
  ∀ (s : State) (a : Fin 512) (run : StepRun) (r : Record) (pl : Plan),
    s.Fetches a run r .gate pl →
    s.OpndOk a (Rf r 8 0 32) 1 (ceilDiv (4 * gateExperts r) 64 * 64) (gateTokens r) (gateExperts r) →
    (Rf r 14 7 1 = 1 → s.ownOk a (Rf r 20 0 26) (Rf r 20 0 26 + 4 * gateExperts r) = true) →
    s.ownOk a (Rf r 24 0 26) (Rf r 24 0 26 + 8 * gateTokens r * Rf r 14 0 4) = true →
    s.ownOk a (Rf r 28 0 26) (Rf r 28 0 26 + 2112) = true →
    ∃ t, exec (.gate a) s = .next t ∧ (t.arr a).gate = (s.gateAfter a r (gateTokens r)).1 ∧
      t.mem = Memory.tileWrite (Memory.tileWrite s.mem (s.siteOf a) (Rf r 24 0 26)
        ((s.gateAfter a r (gateTokens r)).2.flatMap (leBytes 8))) (s.siteOf a) (Rf r 28 0 26)
        (countBlock (s.gateAfter a r (gateTokens r)).1) ∧
      t.half a 0 = s.half a 0 ∧ t.half a 1 = s.half a 1 ∧ t.RanToEnd a run r ∧ s.UnitFrame t a

/-- SCATTER: one packet for each row, to the offset that its index gives, in order; within the own scratchpad each row is written, or added, at
once. DISPATCH, mode RETURN: the weighted rows go back, one packet each, to the tokens that their tags name. -/
def Obligations.ScatterAndReturnSendRows : Prop :=
  (∀ p ∈ scatterCommands, ∀ (s : State) (a : Fin 512) (run : StepRun) (r : Record) (pl : Plan) (d : GAddr), d = gaddrOf (Rf r 24 0 64) →
    s.Fetches a run r .scatter pl → Rf r 38 0 8 = p.2 → s.ScatterOk a r →
    (d.array ≠ a → s.arrVacant d.array = false →
      ∃ t, exec (p.1 a) s = .next t ∧
        s.Asked t a run r (s.nextTag + 1) ((List.range (Rf r 20 0 32)).map (fun i =>
          { body := if p.2 = 0 then .write else .atomic p.2, dst := .tile d.array, src := .tile a, off := s.scatterOff a r i, ctr := d.ctr,
            ctrEn := d.ctrEn, payload := s.scatterRow a r i })) ∧
        { t with arrays := s.arrays, net := s.net, reqs := s.reqs, nextTag := s.nextTag } = s) ∧
    (d.array = a → d.ctrEn = false →
      (∀ i < Rf r 20 0 32, s.ownOk a (s.scatterOff a r i) (s.scatterOff a r i + Rf r 36 0 16) = true) →
      ∃ t, exec (p.1 a) s = .next t ∧
        t.mem = (List.range (Rf r 20 0 32)).foldl (fun m i =>
          if p.2 = 0 then Memory.tileWrite m (s.siteOf a) (s.scatterOff a r i) (s.scatterRow a r i)
          else addAt p.2 m (s.siteOf a) (s.scatterOff a r i) (s.scatterRow a r i)) s.mem ∧
        t.RanToEnd a run r ∧ s.UnitFrame t a ∧ t.regs = s.regs)) ∧
  (∀ (s : State) (a : Fin 512) (run : StepRun) (r : Record) (pl : Plan) (c : Ccw) (ns : Nat),
    s.Fetches a run r .dispatchReturn pl → ccwOf (Rf r 30 0 16) = some c → ns = (if Rf r 9 0 8 = 0 then 256 else Rf r 9 0 8) →
    s.ownOk a (Rf r 24 0 26) (Rf r 24 0 26 + 4 * ns) = true → s.ReturnOk a r →
    ∃ t, exec (.dispatchReturn a) s = .next t ∧
      s.Asked t a run r (s.nextTag + 1) ((s.returnPlaces a r).map (s.returnPacket a r c)) ∧
      { t with arrays := s.arrays, net := s.net, reqs := s.reqs, nextTag := s.nextTag } = s)

/-- GATHER sends its reserve to the first hub of its mask; REDUCE of a member that is the first of its round leaves its contribution in
the round and waits. SEND of a paired endpoint injects its item for the peer and waits for the answer; RECV waits for an item. -/
def Obligations.FabricRecordsBegin : Prop :=
  (∀ (s : State) (a : Fin 512) (run : StepRun) (r : Record) (pl : Plan),
    (s.Fetches a run r .gather pl → Rf r 40 0 64 ≠ 0 → (∀ h ∈ maskList (Rf r 40 0 64) 64, s.hubOut h = false) →
      s.arrVacant (gaddrOf (Rf r 20 0 64)).array = false → s.ownOk a (Rf r 8 0 26) (Rf r 8 0 26 + 8 * Rf r 12 0 32) = true →
      (s.gathers.filter (fun g => g.2.array == a.val)).length < 4 →
      ∃ t, exec (.gather a) s = .next t ∧
        t.net = s.net ++ s.entering
          { body := .gatherReserve s.nextGather 0 (Rf r 40 0 64), dst := .hub ((maskList (Rf r 40 0 64) 64).headD 0), src := .tile a,
            rtag := s.nextTag + 1 } ∧
        (∃ g, mfind t.gathers s.nextGather = some g ∧ g.array = a ∧ g.flight = s.nextTag ∧ g.table = Rf r 16 0 16 ∧
          g.dst = gaddrOf (Rf r 20 0 64) ∧ g.packs = Rf r 40 0 64 ∧ g.pool = Rf r 34 0 8) ∧
        (∃ f, (t.arr a).flights = [f] ∧ f.record = r ∧ f.await = .gather s.nextGather) ∧
        { t with arrays := s.arrays, net := s.net, reqs := s.reqs, nextTag := s.nextTag, gathers := s.gathers, nextGather := s.nextGather } = s) ∧
    (∀ p ∈ reduceCommands, ∀ m, s.Fetches a run r .reduce pl → Rf r 18 0 8 = p.2 → (mget s.redGroups (Rf r 16 0 16) 0).testBit a = true →
      s.arrVacant (gaddrOf (Rf r 20 0 64)).array = false → s.ownOk a (Rf r 8 0 26) (Rf r 8 0 26 + Rf r 12 0 32) = true →
      mfind s.rounds (Rf r 16 0 16) = none → a.val ∈ s.redAlive (Rf r 16 0 16) → m ∈ s.redAlive (Rf r 16 0 16) → m ≠ a →
      ∃ t, exec (p.1 a) s = .next t ∧
        mfind (t.round (Rf r 16 0 16)).contrib a = some (unpackElems 32 (Rf r 12 0 32 / 4) (s.own a (Rf r 8 0 26) (Rf r 12 0 32))) ∧
        (∃ f, (t.arr a).flights = [f] ∧ f.record = r ∧ f.await = .reduce (Rf r 16 0 16)) ∧ s.MemSame t)) ∧
  (∀ (s : State) (a : Fin 512) (run : StepRun) (r : Record) (pl : Plan),
    s.ownOk a (Rf r 20 0 26) (Rf r 20 0 26 + 8) = true → s.epOpen a (Rf r 8 0 6) = true →
    (s.Fetches a run r .send pl → (s.epRole a (Rf r 8 0 6) = 1 ∨ s.epRole a (Rf r 8 0 6) = 2) → s.fieldBind a (Rf r 8 0 6) = none →
      s.linkBind a (Rf r 8 0 6) = none → (s.ep a (Rf r 8 0 6)).queried = false → s.arrVacant (s.epPeer a (Rf r 8 0 6)).1 = false →
      s.ownOk a (Rf r 12 0 26) (Rf r 12 0 26 + Rf r 16 0 32) = true →
      ∃ t, exec (.send a) s = .next t ∧
        t.net = s.net ++ s.entering (s.itemPacket a (Rf r 8 0 6) (s.ep a (Rf r 8 0 6)).peerEpoch (s.nextTag + 1)
          (s.own a (Rf r 12 0 26) (Rf r 16 0 32))) ∧
        (t.ep a (Rf r 8 0 6)).outs.length = (s.ep a (Rf r 8 0 6)).outs.length + 1 ∧
        (∃ f, (t.arr a).flights = [f] ∧ f.record = r ∧ f.await = .answer (Rf r 8 0 6)) ∧
        { t with arrays := s.arrays, net := s.net, reqs := s.reqs, nextTag := s.nextTag, eps := s.eps } = s) ∧
    (s.Fetches a run r .recv pl → roleReceives (s.epRole a (Rf r 8 0 6)) = true →
      exec (.recv a) s = .next (s.inFlight a run r .recv pl (.item (Rf r 8 0 6)))))

/-- SIGNAL adds to a counter of the own array at once, or asks another array, or every member of a group, to; COMMIT sends its pairs, or
claims its token first. -/
def Obligations.SignalAndCommit : Prop :=
  ∀ (s : State) (a : Fin 512) (run : StepRun) (r : Record) (pl : Plan),
    (s.Fetches a run r .signal pl → Rf r 9 0 1 = 0 → Rf r 10 0 9 = a →
      s.rd F.tmCtr_value (a * 64 + Rf r 11 1 6) + Rf r 12 0 32 < 2 ^ 32 - 1 →
      ∃ t, exec (.signal a) s = .next t ∧
        t.rd F.tmCtr_value (a * 64 + Rf r 11 1 6) = s.rd F.tmCtr_value (a * 64 + Rf r 11 1 6) + Rf r 12 0 32 ∧ t.RanToEnd a run r ∧
        { t with regs := s.regs, arrays := s.arrays, nextTag := s.nextTag } = s ∧ s.RegsBut t [(F.tmCtr_value, a * 64 + Rf r 11 1 6)]) ∧
    (s.Fetches a run r .signal pl → Rf r 9 0 1 = 0 → Rf r 10 0 9 ≠ a → s.arrVacant (Rf r 10 0 9) = false →
      ∃ t, exec (.signal a) s = .next t ∧ s.Asked t a run r (s.nextTag + 1)
        [{ body := .signal (Rf r 12 0 32), dst := .tile (Rf r 10 0 9), src := .tile a, ctr := Rf r 11 1 6 }] ∧
        { t with arrays := s.arrays, net := s.net, reqs := s.reqs, nextTag := s.nextTag } = s) ∧
    (∀ ms, s.Fetches a run r .signal pl → Rf r 9 0 1 = 1 → ms = maskList (mget s.mcast (Rf r 10 0 9) 0) 512 → ms ≠ [] →
      (∀ m ∈ ms, m ≠ a.val ∧ s.arrVacant m = false) →
      ∃ t, exec (.signal a) s = .next t ∧ s.Asked t a run r (s.nextTag + 1)
        (ms.map (fun m => { body := .signal (Rf r 12 0 32), dst := .tile m, src := .tile a, ctr := Rf r 11 1 6 })) ∧
        { t with arrays := s.arrays, net := s.net, reqs := s.reqs, nextTag := s.nextTag } = s) ∧
    (s.Fetches a run r .commit pl → Rf r 10 7 1 = 0 →
      (∀ i < Rf r 11 0 8, s.ownOk a (Rf r (16 + 16 * i) 0 26) (Rf r (16 + 16 * i) 0 26 + Rf r (20 + 16 * i) 0 32) = true ∧
        (gaddrOf (Rf r (24 + 16 * i) 0 64)).array ≠ a ∧ s.arrVacant (gaddrOf (Rf r (24 + 16 * i) 0 64)).array = false) →
      ∃ t, exec (.commit a) s = .next t ∧ s.Asked t a { run with granted := run.granted ++ [run.next] } r (s.nextTag + 1) ((List.range (Rf r 11 0 8)).flatMap (fun i =>
        writePackets a (gaddrOf (Rf r (24 + 16 * i) 0 64)) (gaddrOf (Rf r (24 + 16 * i) 0 64)).off
          (s.own a (Rf r (16 + 16 * i) 0 26) (Rf r (20 + 16 * i) 0 32)))) ∧
        { t with arrays := s.arrays, net := s.net, reqs := s.reqs, nextTag := s.nextTag } = s) ∧
    (s.Fetches a run r .commit pl → Rf r 10 7 1 = 1 → s.arrVacant (Rf r 8 0 9) = false →
      ∃ t, exec (.commit a) s = .next t ∧
        t.net = s.net ++ s.entering
          { body := .tokenClaim (Rf r 10 0 6) run.serial run.id run.leader run.attempt, dst := .tile (Rf r 8 0 9), src := .tile a,
            rtag := s.nextTag + 1 } ∧
        (∃ f, (t.arr a).flights = [f] ∧ f.record = r ∧ f.await = .token ∧ f.out = [s.nextTag + 1]) ∧
        { t with arrays := s.arrays, net := s.net, reqs := s.reqs, nextTag := s.nextTag } = s)

/-! ### BAR0 registers (R18 to R23, R425, R447, R456) -/

/-- R425, R456, R479: a write through a port that is up, to a block that does not work in the panel's state, only counts in `BAD_ACC`;
through a port that is down it does not reach the panel. REGISTER_WRITE: a plain register takes every legal field of the value; an
access of a wrong size, alignment or offset only counts. -/
def Obligations.RegisterWritesStoreOrCount : Prop :=
  (∀ (s : State) (port : Fin 2) (a : Fin 512) (w : Fin 4) (p : Fin 64) (n : Fin 8) (j : Fin 256) (v : BitVec 64),
    ∀ c ∈ unitWrites port a w p n j v,
      (s.barUp port = false → exec c s = .next s) ∧
      (s.barUp port = true → s.barShut port .unit = true →
        ∃ t, exec c s = .next t ∧ t.rd F.hifErr_badAcc port = min (s.rd F.hifErr_badAcc port + 1) (2 ^ F.hifErr_badAcc.w - 1) ∧
          s.OnlyRegs t [(F.hifErr_badAcc, port)])) ∧
  (∀ (s : State) (port : Fin 2) (offset : BitVec 26) (v : BitVec 64), s.Open port (useOf offset.toNat) →
    (∀ (r : Reg) (i : Nat), regAt port offset.toNat = some (r, i, 0) → Plain r → isBase r = false → Legal r v.toNat →
      s.windowShut offset.toNat = false → inMsix offset.toNat = false → s.accessOk port offset.toNat (regPlace r).bytes = true →
      ∃ t, exec (.registerWrite port offset (regPlace r).bytes v) s = .next t ∧ t.Holds r i v.toNat ∧ s.OnlyRegs t (fieldsOf r i)) ∧
    (∀ width, s.accessOk port offset.toNat width = false →
      ∃ t, exec (.registerWrite port offset width v) s = .next t ∧
        t.rd F.hifErr_badAcc port = min (s.rd F.hifErr_badAcc port + 1) (2 ^ F.hifErr_badAcc.w - 1) ∧
        s.OnlyRegs t [(F.hifErr_badAcc, port)]))

/-- RNG_SQ_CFG_WRITE, RNG_CQ_CFG_WRITE, PRT_MAP_WRITE (R447): what is allowed is stored, an enabled ring starts at 0; a move of a pack
that holds a member of a running region is refused with a reserved-write record. CH_EP_WRITE, CH_EP_OPEN, CH_EP_CLOSE (R295, R296,
R314): a closed endpoint of no member takes its configuration, a reserved role excepted (R20); a configured one opens, its epoch rising
where it receives; an open one closes. -/
def Obligations.RingPartitionEndpointRegisters : Prop :=
  (∀ (s : State) (port : Fin 2) (v : BitVec 64),
    (∀ q : Fin 256, s.Open port .host → Legal .rngSqCfg v.toNat → s.rd F.rngSqCfg_en (sqI port q) = 0 → s.rd F.rngSqStat_inflight (sqI port q) = 0 →
      ∃ t, exec (.rngSqCfgWrite port q v) s = .next t ∧ t.Holds .rngSqCfg (sqI port q) v.toNat ∧
        (F.rngSqCfg_en.of v.toNat = 1 → t.rd F.rngSqStat_cons (sqI port q) = 0) ∧
        (F.rngSqCfg_en.of v.toNat = 0 → t.rd F.rngSqStat_err (sqI port q) = 0) ∧ { t with regs := s.regs, host := s.host } = s ∧
        s.RegsBut t ((F.rngSqStat_cons, sqI port q) :: (F.rngSqStat_err, sqI port q) :: fieldsOf .rngSqCfg (sqI port q))) ∧
    (∀ q : Fin 256, s.Open port .host → s.rd F.rngSqCfg_en (sqI port q) = 1 → Legal .rngSqCfg v.toNat →
      F.rngSqCfg_log2Size.of v.toNat ≠ s.rd F.rngSqCfg_log2Size (sqI port q) →
      ∃ t, exec (.rngSqCfgWrite port q v) s = .next t ∧ s.Barked t 0x0001 {} [(24, regOff .rngSqCfg (sqI port q))] ∧
        { t with regs := s.regs, host := s.host, faults := s.faults } = s ∧ s.RegsBut t lostRecords) ∧
    (∀ c : Fin 128, s.Open port .host → Legal .rngCqCfg v.toNat → s.rd F.rngCqCfg_en (cqI port c) = 0 →
      ∃ t, exec (.rngCqCfgWrite port c v) s = .next t ∧ t.Holds .rngCqCfg (cqI port c) v.toNat ∧
        (F.rngCqCfg_en.of v.toNat = 1 → t.rd F.rngCqStat_prod (cqI port c) = 0) ∧ { t with regs := s.regs, host := s.host } = s ∧
        s.RegsBut t ((F.rngCqStat_prod, cqI port c) :: (F.rngCqStat_full, cqI port c) :: fieldsOf .rngCqCfg (cqI port c))) ∧
    (∀ w : Fin 4, s.Open port .unit → (∀ k < 16, ∀ a ∈ packArrays (16 * w + k), s.isMember a = false) →
      ∃ t, exec (.prtMapWrite port w v) s = .next t ∧ t.rd F.prtMap_part w = v.toNat ∧ s.OnlyRegs t [(F.prtMap_part, w)]) ∧
    (∀ (w : Fin 4) (k a : Nat), s.Open port .unit → k < 16 → a ∈ packArrays (16 * w + k) → s.isMember a = true →
      bitsAt (s.rd F.prtMap_part w) (4 * k) 4 ≠ bitsAt v.toNat (4 * k) 4 →
      ∃ t, exec (.prtMapWrite port w v) s = .next t ∧ s.Barked t 0x0001 {} [(24, regOff .prtMap w)] ∧
        { t with regs := s.regs, host := s.host, faults := s.faults } = s ∧ s.RegsBut t lostRecords)) ∧
  (∀ (s : State) (port : Fin 2) (a : Fin 512) (n : Fin 64), s.Open port .unit → s.arrVacant a = false →
    (∀ v : BitVec 64, s.chEpBad a n v.toNat = false → F.chEp_role.of v.toNat ≠ 7 →
      ∃ t, exec (.chEpWrite port a n v) s = .next t ∧ t.Holds .chEp (epKey a n) v.toNat ∧ s.OnlyRegs t (fieldsOf .chEp (epKey a n))) ∧
    (∀ v : BitVec 64, F.chEp_role.of v.toNat = 7 → s.chEpBad a n (v.toNat - 7 + s.epRole a n) = false →
      ∃ t, exec (.chEpWrite port a n v) s = .next t ∧ t.Holds .chEp (epKey a n) (v.toNat - 7 + s.epRole a n) ∧
        s.Barked t 0x0001 {} [(24, regOff .chEp (epKey a n))] ∧ { t with regs := s.regs, host := s.host, faults := s.faults } = s ∧
        s.RegsBut t (lostRecords ++ fieldsOf .chEp (epKey a n))) ∧
    (∀ v : BitVec 64, (s.epOpen a n = true ∨ s.isMember a = true) →
      ∃ t, exec (.chEpWrite port a n v) s = .next t ∧ s.Barked t 0x0007 { kind := .array, num := a } [(24, n)] ∧
        { t with regs := s.regs, host := s.host, faults := s.faults } = s ∧ s.RegsBut t lostRecords) ∧
    (s.epOpen a n = false → s.epRole a n ≠ 0 → s.epRole a n ≠ 7 →
      ∃ t, exec (.chEpOpen port a n) s = .next t ∧ t.epOpen a n = true ∧ t.epRole a n = s.epRole a n ∧
        t.epEpoch a n = (if s.epRole a n ∈ [3, 4, 5, 6] then s.epEpoch a n + 1 else s.epEpoch a n) % 65536 ∧
        { t with regs := s.regs, eps := s.eps, net := s.net } = s ∧
        s.RegsBut t [(F.chEpState_state, epKey a n), (F.chEpState_epoch, epKey a n)]) ∧
    (s.epOpen a n = true → ∃ t, exec (.chEpClose port a n) s = .next t ∧ t.rd F.chEpState_state (epKey a n) = 0) ∧
    (s.epOpen a n = true → s.epRole a n ∈ [1, 2] → s.recvWaiting a n = none →
      ∃ t, exec (.chEpClose port a n) s = .next t ∧ t.epOpen a n = false ∧ { t with regs := s.regs, eps := s.eps } = s ∧
        s.RegsBut t [(F.chEpState_state, epKey a n)]))

/-- PWR_PACK_WRITE, CLK_MARGIN_CFG_WRITE, LNK_PORT_WRITE, LNK_BIND_WRITE, FLD_FIFO_WRITE, CLK_SET_CMD, LNK_RETRAIN_REQUEST: a value that the
rules allow is stored and acts; `LNK_PORT.EN` moves the port between OFF and DARK. -/
def Obligations.ClockPowerLinkRegisters : Prop :=
  ∀ (s : State) (port : Fin 2), s.Open port .unit →
    (∀ (p : Fin 64) (v : BitVec 64), Legal .pwrPack v.toNat →
      12 ≤ F.pwrPack_afFloor.of v.toNat → F.pwrPack_afFloor.of v.toNat ≤ F.pwrPack_afCeil.of v.toNat → F.pwrPack_afCeil.of v.toNat ≤ 48 →
      15 ≤ F.pwrPack_rfFloor.of v.toNat → F.pwrPack_rfFloor.of v.toNat ≤ F.pwrPack_rfCeil.of v.toNat → F.pwrPack_rfCeil.of v.toNat ≤ 60 →
      20 ≤ F.pwrPack_avFloor.of v.toNat → F.pwrPack_avFloor.of v.toNat ≤ F.pwrPack_avCeil.of v.toNat → F.pwrPack_avCeil.of v.toNat ≤ 80 →
      ∃ t, exec (.pwrPackWrite port p v) s = .next t ∧ t.Holds .pwrPack p v.toNat ∧ { t with regs := s.regs } = s ∧
        F.pwrPack_avFloor.of v.toNat ≤ t.rd F.pwrPackStat_avSet p ∧ t.rd F.pwrPackStat_avSet p ≤ F.pwrPack_avCeil.of v.toNat) ∧
    (∀ v : BitVec 32, bitsAt v.toNat 16 10 < bitsAt v.toNat 0 10 →
      ∃ t, exec (.clkMarginCfgWrite port v) s = .next t ∧ t.Holds .clkMarginCfg 0 v.toNat ∧ s.OnlyRegs t (fieldsOf .clkMarginCfg 0)) ∧
    (∀ v : BitVec 32, bitsAt v.toNat 0 10 ≤ bitsAt v.toNat 16 10 →
      ∃ t, exec (.clkMarginCfgWrite port v) s = .next t ∧ s.Barked t 0x0001 {} [(24, regOff .clkMarginCfg 0)] ∧
        { t with regs := s.regs, host := s.host, faults := s.faults } = s ∧ s.RegsBut t lostRecords) ∧
    (∀ (n : Fin 8) (v : BitVec 64), Legal .lnkPort v.toNat → s.portFitted n = true →
      (s.rd F.lnkPort_en n = 0 → F.lnkPort_en.of v.toNat = 1 → s.lstate n = 0 →
        ∃ t, exec (.lnkPortWrite port n v) s = .next t ∧ t.Holds .lnkPort n v.toNat ∧ t.lstate n = 1 ∧ t.outs = .lasers n true :: s.outs ∧
          s.MemSame t) ∧
      (s.rd F.lnkPort_en n = 1 → F.lnkPort_en.of v.toNat = 0 → s.lstate n ≠ 0 →
        ∃ t, exec (.lnkPortWrite port n v) s = .next t ∧ t.Holds .lnkPort n v.toNat ∧ t.lstate n = 0 ∧ .lasers n false ∈ t.outs)) ∧
    (∀ n : Fin 8, s.lup n = true →
      ∃ t, exec (.lnkRetrainRequest port n) s = .next t ∧ t.lstate n = 6 ∧ t.rd F.lnkPort_retrain n = 1 ∧
        t.rd F.lnkCnt_retrains n = min (s.rd F.lnkCnt_retrains n + 1) (2 ^ F.lnkCnt_retrains.w - 1) ∧ s.MemSame t) ∧
    (∀ (j : Fin 256) (v : BitVec 64), (F.lnkBind_valid.of v.toNat = 0 ∨ s.fieldBind (F.lnkBind_array.of v.toNat) (F.lnkBind_ep.of v.toNat) = none) →
      ∃ t, exec (.lnkBindWrite port j v) s = .next t ∧ t.Holds .lnkBind j v.toNat ∧ s.OnlyRegs t (fieldsOf .lnkBind j)) ∧
    (∀ (d : Fin 2) (f : Fin 32) (v : BitVec 64) (i : Nat), Legal .fldFifo v.toNat → i = d.val * 32 + f.val →
      (s.rd F.fldFifo_en i = 0 → ∃ t, exec (.fldFifoWrite port d f v) s = .next t ∧ t.Holds .fldFifo i v.toNat ∧
        t.fifo i = (if F.fldFifo_en.of v.toNat = 1 then {} else s.fifo i) ∧
        { t with regs := s.regs, field := s.field } = s ∧
        s.RegsBut t ([(F.fldFifoStat_used, i), (F.fldFifoStat_waiting, i)] ++ fieldsOf .fldFifo i)) ∧
      (s.rd F.fldFifo_en i = 1 → F.fldFifo_en.of v.toNat = 0 →
        (∀ x ∈ [F.fldFifo_array, F.fldFifo_ctr, F.fldFifo_ringBase, F.fldFifo_nslots], x.of v.toNat = s.rd x i) →
        ∃ t, exec (.fldFifoWrite port d f v) s = .next t ∧ t.Holds .fldFifo i v.toNat ∧ t.fifo i = {} ∧
          t.rd F.fldFifoStat_gapCnt i = min (s.rd F.fldFifoStat_gapCnt i + ((s.fifo i).items.length + b2n (s.fifo i).gap.isSome))
            (2 ^ F.fldFifoStat_gapCnt.w - 1) ∧ { t with regs := s.regs, field := s.field } = s ∧
          t.rd F.fldFifoStat_used i = 0 ∧
          t.rd F.fldFifoStat_waiting i = 0 ∧
          s.RegsBut t ([(F.fldFifoStat_used, i), (F.fldFifoStat_waiting, i), (F.fldFifoStat_gapCnt, i)] ++ fieldsOf .fldFifo i)) ∧
      (s.rd F.fldFifo_en i = 1 → (∃ x ∈ [F.fldFifo_array, F.fldFifo_ctr, F.fldFifo_ringBase, F.fldFifo_nslots], x.of v.toNat ≠ s.rd x i) →
        ∃ t, exec (.fldFifoWrite port d f v) s = .next t ∧ s.Barked t 0x0011 { kind := .fieldDie, num := d } [(24, regOff .fldFifo i)] ∧
          { t with regs := s.regs, host := s.host, faults := s.faults } = s ∧ s.RegsBut t lostRecords)) ∧
    (s.rd F.clkCmd_set 0 = 0 → s.rd F.clkCfg_timeSrc 0 ∉ [1, 2] →
      ∃ t, exec (.clkSetCmd port) s = .next t ∧ t.time.stepAt = some (s.time.marker + 2, s.rd F.clkSet_ns 0) ∧ t.rd F.clkCmd_set 0 = 1 ∧
        { t with regs := s.regs, time := s.time } = s ∧ s.RegsBut t [(F.clkCmd_set, 0)])

/-! ### Tables and stacks (R199 to R231) -/

/-- TABLE_INSTALL, TABLE_REMOVE, TABLE_PROMOTE, TABLE_RESYNC, TABLE_DEMOTE, STACK_DECLARE_FAILED, STACK_RETURN: each starts, or is refused with its
status; while one is pending the next changes nothing. -/
def Obligations.TableCommandsStartOrAreRefused : Prop :=
  ∀ (s : State) (port : Fin 2) (p : Fin 64), s.Open port .unit →
    (∀ c ∈ [Instr.tableInstall port, .tableRemove port, .tablePromote port p, .tableResync port p, .tableDemote port p,
        .stackDeclareFailed port p, .stackReturn port p], s.tblCmd.isSome = true → exec c s = .next s) ∧
    (s.tblCmd = none →
      (s.installStatus s.stagedDesc = 0 →
        ∃ t, exec (.tableInstall port) s = .next t ∧ s.TblStarted t 0 0 s.stagedDesc [s.stagedDesc.handle]) ∧
      (s.installStatus s.stagedDesc ≠ 0 → ∃ t, exec (.tableInstall port) s = .next t ∧ s.TblRefused t (s.installStatus s.stagedDesc)) ∧
      ((mfind s.tables s.stagedDesc.handle).isSome = true →
        ∃ t, exec (.tableRemove port) s = .next t ∧ s.TblStarted t 1 0 s.stagedDesc [s.stagedDesc.handle]) ∧
      (mfind s.tables s.stagedDesc.handle = none → ∃ t, exec (.tableRemove port) s = .next t ∧ s.TblRefused t 4) ∧
      (s.mirrored p ≠ [] → s.stackState p = 3 → (∀ q ∈ s.mirrored p, (s.seg q.1 p).away = true ∨ s.canPromote q.1 p q.2 = true) →
        ∃ t, exec (.tablePromote port p) s = .next t ∧ s.TblStarted t 2 p {} (s.handlesOf p)) ∧
      (s.mirrored p = [] → ∃ t, exec (.tablePromote port p) s = .next t ∧ s.TblRefused t 4) ∧
      (s.mirrored p ≠ [] → s.stackState p ≠ 3 → ∃ t, exec (.tablePromote port p) s = .next t ∧ s.TblRefused t 5) ∧
      (s.packFitted p = true → s.packDark p = false → s.mirrored p ≠ [] → s.stackLive p = true →
        ∃ t, exec (.tableResync port p) s = .next t ∧ t.resync = some p.val ∧ t.tblCmd = some { op := 3, pack := p } ∧
          t.rd F.hubState_resyncBusy p = 1 ∧ t.rd F.pckTblCmd_go 0 = 1 ∧
          { t with regs := s.regs, segs := s.segs, resync := s.resync, tblCmd := s.tblCmd } = s) ∧
      (s.packFitted p = true → s.packDark p = true → ∃ t, exec (.tableResync port p) s = .next t ∧ s.TblRefused t 2) ∧
      (s.mirrored p ≠ [] → (∃ q ∈ s.mirrored p, (s.seg q.1 p).resynced = true) →
        ∃ t, exec (.tableDemote port p) s = .next t ∧ s.TblStarted t 4 p {} (s.handlesOf p)) ∧
      (s.mirrored p = [] → ∃ t, exec (.tableDemote port p) s = .next t ∧ s.TblRefused t 4) ∧
      (s.stackLive p = true → ∃ t, exec (.stackDeclareFailed port p) s = .next t ∧ s.TblStarted t 5 p {} (s.handlesOf p)) ∧
      (s.stackLive p = false → ∃ t, exec (.stackDeclareFailed port p) s = .next t ∧ s.TblRefused t 5) ∧
      (s.stackState p = 3 → ∃ t, exec (.stackReturn port p) s = .next t ∧ s.TblStarted t 6 p {} (s.handlesOf p)) ∧
      (s.stackState p ≠ 3 → ∃ t, exec (.stackReturn port p) s = .next t ∧ s.TblRefused t 5))

/-- TABLE_CHANGE_EFFECT, RESYNC_COMPLETE, STACK_READY: a change behind no gather takes effect and is pending no more; a resync ends; a
trained stack is zero and in service. HUB_SCRUB and HUB_CORRECTED_WRITEBACK (R201, R231): a block with one wrong symbol is written back
mended; a scrub counts it, and a block that it cannot mend is rewritten from the other copy of its segment, or else counted, reported, and degrades the
stack. -/
def Obligations.TablesAndStacksChange : Prop :=
  (∀ s : State,
    (∀ c, s.tblCmd = some c → c.before = [] → c.effected = false → c.pack < 64 → s.hubWait = [] →
      (c.op = 0 → ∃ t, exec .tableChangeEffect s = .next t ∧ mfind t.tables c.desc.handle = some c.desc ∧ t.tblCmd = none ∧
        t.rd F.pckTblCmd_status 0 = 0 ∧ t.rd F.pckTblCmd_go 0 = 0 ∧
        { t with regs := s.regs, dir := s.dir, tables := s.tables, segs := s.segs, tblCmd := s.tblCmd } = s) ∧
      (c.op = 1 → ∃ t, exec .tableChangeEffect s = .next t ∧ mfind t.tables c.desc.handle = none ∧
        (c.desc.handle < 65536 → ∀ p, t.dirAt p c.desc.handle = none) ∧ t.tblCmd = none ∧ t.rd F.pckTblCmd_status 0 = 0 ∧
        { t with regs := s.regs, dir := s.dir, tables := s.tables, segs := s.segs, tblCmd := s.tblCmd } = s) ∧
      (c.op = 2 → ∃ t, exec .tableChangeEffect s = .next t ∧ (∀ q ∈ s.mirrored c.pack, (t.seg q.1 c.pack).away = true) ∧
        t.tblCmd = none ∧ t.rd F.pckTblCmd_status 0 = 0 ∧ { t with regs := s.regs, segs := s.segs, tblCmd := s.tblCmd } = s) ∧
      (c.op = 4 → ∃ t, exec .tableChangeEffect s = .next t ∧
        (∀ q ∈ s.mirrored c.pack, t.seg q.1 c.pack = if (s.seg q.1 c.pack).resynced then {} else s.seg q.1 c.pack) ∧ t.tblCmd = none ∧
        t.rd F.pckTblCmd_status 0 = 0 ∧ { t with regs := s.regs, segs := s.segs, tblCmd := s.tblCmd } = s) ∧
      (c.op = 5 → ∃ t, exec .tableChangeEffect s = .next t ∧ t.stackState c.pack = 3 ∧ t.tblCmd = none ∧ t.rd F.pckTblCmd_status 0 = 0 ∧
        s.MemSame t) ∧
      (c.op = 6 → ∃ t, exec .tableChangeEffect s = .next t ∧ t.stackState c.pack = 0 ∧ t.tblCmd = some { c with effected := true } ∧
        (∀ o < 68719476736, Memory.read t.stack (stackKey c.pack o) = 0) ∧ t.mem = s.mem)) ∧
    (∀ p < 64, s.resync = some p → ∃ t, exec .resyncComplete s = .next t ∧ t.resync = none ∧ t.tblCmd = none ∧
      t.rd F.hubState_resyncBusy p = 0 ∧ t.rd F.pckTblCmd_go 0 = 0 ∧ (s.stackErr = [] → t.rd F.pckTblCmd_status 0 = 0) ∧ t.mem = s.mem) ∧
    (∀ p : Fin 64, s.stackState p = 0 → s.packDark p = false → s.packFitted p = true →
      ∃ t, exec (.stackReady p) s = .next t ∧ t.stackState p = 1 ∧
        (∀ q o : Nat, o < 68719476736 → Memory.read t.stack (stackKey q o) = if q = p.val then 0 else Memory.read s.stack (stackKey q o)) ∧
        (s.tblCmd = some { op := 6, pack := p, effected := true } → t.tblCmd = none ∧ t.rd F.pckTblCmd_status 0 = 0) ∧
        { t with regs := s.regs, stack := s.stack, stackErr := s.stackErr, odecc := s.odecc, tblCmd := s.tblCmd } = s ∧
        s.RegsBut t [(F.hubState_stackState, p), (F.pckTblCmd_status, 0), (F.pckTblCmd_go, 0)])) ∧
  (∀ (s : State) (p : Fin 64) (block : Nat), block < 1073741824 →
    (∀ k v, s.blockSt p block = .corrected k v →
      (∃ t, exec (.hubCorrectedWriteback p block) s = .next t ∧ t.stackBytes p (64 * block) 64 = s.blockBytes p block ∧
        t.blockErrs p block = [] ∧
        { t with stack := s.stack, stackErr := s.stackErr, odecc := s.odecc, cache := s.cache } = s) ∧
      (s.rd F.hubCfg_scrubEn p = 1 → s.stackLive p = true → ∃ t, exec (.hubScrub p block) s = .next t ∧
        t.stackBytes p (64 * block) 64 = s.blockBytes p block ∧ t.blockErrs p block = [] ∧
        t.rd F.hubErrCnt_corrCnt p = min (s.rd F.hubErrCnt_corrCnt p + 1) (2 ^ F.hubErrCnt_corrCnt.w - 1) ∧ t.mem = s.mem)) ∧
    (s.blockSt p block = .bad → s.rd F.hubCfg_scrubEn p = 1 → s.stackLive p = true →
      (s.otherCopy p block = none → ∃ t r, exec (.hubScrub p block) s = .next t ∧ t.stackState p = 2 ∧
        t.rd F.hubErrCnt_uncorrCnt p = min (s.rd F.hubErrCnt_uncorrCnt p + 1) (2 ^ F.hubErrCnt_uncorrCnt.w - 1) ∧
        t.faults.barkLog.head? = some r ∧ r.code = 0x0006 ∧ r.unit = { kind := .pack, num := p } ∧ s.MemSame t) ∧
      (∀ q c, s.otherCopy p block = some (q, c) → s.hubServes p q = true → s.blockSt q c ≠ .bad →
        ∃ t, exec (.hubScrub p block) s = .next t ∧ t.stackBytes p (64 * block) 64 = s.blockBytes q c ∧ t.blockErrs p block = [] ∧
          t.rd F.hubErrCnt_mirrorFix p = min (s.rd F.hubErrCnt_mirrorFix p + 1) (2 ^ F.hubErrCnt_mirrorFix.w - 1) ∧ t.mem = s.mem)))

/-! ### Host items, tables and regions (R154, R285, R435, R436) -/

/-- HOST_CHANNEL_ITEM joins the queue of an open endpoint; TABLE_WRITE stores in an unmirrored segment; TABLE_READ returns the serving
copy's bytes. -/
def Obligations.HostItemsAndTableAccesses : Prop :=
  ∀ (s : State) (port : Fin 2) (sq : Fin 256) (k : Nat) (f : FDescr), f.Loud →
    (∀ item, s.ready (port, sq, k) 0x04 true = some f → s.descrStatus f .array 1 4096 = 0 → s.arrHeld f.d.unit = false →
      item.length = f.d.len → f.d.ctr < 64 → s.arrStatus f.d.unit = 0 → s.inReset f.d.unit = false → roleReceives (s.epRole f.d.unit f.d.ctr) = true →
      s.rd F.chEp_hostOk (epKey f.d.unit f.d.ctr) = 1 → s.epOpen f.d.unit f.d.ctr = true →
      s.rd F.chEpState_spilled (epKey f.d.unit f.d.ctr) = 0 → (s.ep f.d.unit f.d.ctr).used + itemEntries item.length ≤ 32 →
      ∃ t, exec (.hostChannelItem port sq k item) s = .next t ∧
        (t.ep f.d.unit f.d.ctr).queue = (s.ep f.d.unit f.d.ctr).queue ++
          [{ data := item, src := s.rd F.hifCfg_hostId f.port, epoch := s.epEpoch f.d.unit f.d.ctr, host := true }] ∧
        s.Completed t f 0 0 f.d.len (s.epEpoch f.d.unit f.d.ctr) ∧ { t with regs := s.regs, eps := s.eps, host := s.host } = s) ∧
    (∀ data d, s.ready (port, sq, k) 0x20 true = some f → s.descrStatus f .pack 1 16777216 = 0 → data.length = f.d.len →
      s.tblPending f.d.handle = false → s.hubGone (s.tblHub f.d.handle f.d.unit) = false → mfind s.tables f.d.handle = some d →
      s.tblRangeBad f.d.handle f.d.unit f.d.offset f.d.len = false → d.mirror = false → s.seg f.d.handle f.d.unit = {} →
      s.stackLive f.d.unit = true → d.segBase + f.d.offset + f.d.len ≤ 68719476736 → (s.dirAt f.d.unit f.d.handle).isSome = true → s.stackErr = [] → s.odecc = [] →
      ∃ t, exec (.tableWrite port sq k data) s = .next t ∧
        t.stackBytes f.d.unit (d.segBase + f.d.offset) f.d.len = data ∧
        (∀ q o : Nat, o < 68719476736 →
          ¬ (q = f.d.unit ∧ d.segBase + f.d.offset ≤ o ∧ o < d.segBase + f.d.offset + f.d.len) →
          Memory.read t.stack (stackKey q o) = Memory.read s.stack (stackKey q o)) ∧
        s.Completed t f 0 0 f.d.len 0 ∧ { t with regs := s.regs, stack := s.stack, cache := s.cache, host := s.host } = s) ∧
    (∀ d, s.ready (port, sq, k) 0x21 false = some f → s.descrStatus f .pack 1 16777216 = 0 → s.tblPending f.d.handle = false →
      s.hubGone (s.tblHub f.d.handle f.d.unit) = false → mfind s.tables f.d.handle = some d →
      s.tblRangeBad f.d.handle f.d.unit f.d.offset f.d.len = false → s.stackLive (s.servedAt d f.d.unit).1 = true →
      (s.dirAt (s.servedAt d f.d.unit).1 f.d.handle).isSome = true → s.stackErr = [] → s.odecc = [] → s.portUp f.port = true →
      ∃ t, exec (.tableRead port sq k) s = .next t ∧
        t.outs = .hostWrite f.port f.d.hostAddr
          (s.stackBytes (s.servedAt d f.d.unit).1 ((s.servedAt d f.d.unit).2 + f.d.offset) f.d.len) :: s.outs ∧
        s.Completed t f 0 0 f.d.len 0 ∧ { t with regs := s.regs, host := s.host, outs := s.outs } = s)

/-- REGION_START, REGION_START_LEGACY, REGION_STOP: a region that nothing refuses begins with its members and its first entry; one that
waits for a trigger stops at once, one with a step open drains. LEADER_TRIGGER, STEP_REPORT, STEP_DEADLINE, RERUN_START: a step begins
when its trigger counter is reached, which is consumed; reports settle the attempt, a failure or the deadline drains it, and a drained
one runs again. -/
def Obligations.RegionsRunAttempts : Prop :=
  (∀ (s : State) (port : Fin 2) (sq : Fin 256) (k : Nat) (f : FDescr), s.arrHeld f.d.unit = false →
    (∀ ms g, s.ready (port, sq, k) 0x10 false = some f → s.descrStatus f .array 0 0 = 0 →
      s.readBlockOf f.d.unit f.d.offset = (ms, .inr g, s) → s.startRefused f f.d.unit ms (.inr g) = 0 → g.table ≠ [] →
      ∃ t, exec (.regionStart port sq k) s = .next t ∧ s.Begun t f.d.unit ms g ∧ s.MemSame t) ∧
    (∀ table ms g, s.ready (port, sq, k) 0x11 true = some f → s.descrStatus f .array 1 4096 = 0 → table.length = f.d.len →
      (∀ c ∈ table, 1 ≤ c.maxItems ∧ 1 ≤ c.maxBytes ∧ c.maxBytes ≤ 4096 ∧ capLoad table c.dstArray c.dstEp ≤ 32 ∧ s.capPeers c = true) →
      s.readBlockOf f.d.unit f.d.offset = (ms, .inr g, s) → s.startRefused f f.d.unit ms (.inr g) = 0 → g.table ≠ [] →
      ∃ t, exec (.regionStartLegacy port sq k table) s = .next t ∧ s.Begun t f.d.unit ms { g with legacy := table } ∧ s.MemSame t) ∧
    (s.ready (port, sq, k) 0x12 false = some f → s.descrStatus f .array 0 0 = 0 →
      (s.regionOf f.d.unit = none → f.Loud → ∃ t, exec (.regionStop port sq k) s = .next t ∧ s.Completed t f 0 0 0 0 ∧
        { t with regs := s.regs, host := s.host } = s) ∧
      (∀ g, s.regionOf f.d.unit = some g → g.phase = .trigger → ∃ t, exec (.regionStop port sq k) s = .next t ∧
        t.regionOf f.d.unit = none ∧ ∀ m ∈ g.list, (t.arr m).member = none) ∧
      (∀ g, s.regionOf f.d.unit = some g → g.phase = .running → g.waiting ≠ [] → ∃ t h, exec (.regionStop port sq k) s = .next t ∧
        t.regionOf f.d.unit = some h ∧ h.phase = .draining ∧ h.stopBy = g.stopBy ++ [f.id] ∧ h.outcome.status = 0x0E ∧
        (∀ m ∈ g.waiting, s.Told t f.d.unit m (.cancel g.stepId)) ∧ s.MemSame t))) ∧
  (∀ (s : State) (l : Fin 512) (g : Region), s.regionOf l = some g →
    (g.phase = .trigger → g.now.trigCtr < 64 → g.now.trigCount ≤ s.rd F.tmCtr_value (l * 64 + g.now.trigCtr) →
      s.halted (s.arrIsland l) = false →
      ∃ t h, exec (.leaderTrigger l) s = .next t ∧
        t.rd F.tmCtr_value (l * 64 + g.now.trigCtr) = s.rd F.tmCtr_value (l * 64 + g.now.trigCtr) - g.now.trigCount ∧
        t.regionOf l = some h ∧ h.phase = .running ∧ h.stepId = (g.stepId + 1) % 2 ^ 32 ∧ h.attempt = 0 ∧
        (∀ m ∈ g.list, s.Told t l m (.stepStart h.stepId 0 g.now.entry g.serial g.now.ctrClear h.deadline)) ∧ s.MemSame t) ∧
    (∀ p m id attempt status tag addr, s.Takes p l → p.body = .stepMsg (.report id attempt status tag addr) → p.src = .tile m → m ∈ g.list →
      mfind g.reported m = none → g.phase = .running → id = g.stepId → attempt = g.attempt →
      ((status = 0 ∨ status = 0x0D) → { g with reported := mset g.reported m status }.allOk = false →
        ∃ t, exec (.stepReport p) s = .next t ∧ t.regionOf l = some { g with reported := mset g.reported m status } ∧
          mfind t.faults.stepFails m = none ∧ s.Answered t p (.ack 1 0 0) 0 ∧
          { t with net := s.net, mesh := s.mesh, regions := s.regions, faults := s.faults } = s) ∧
      ((status = 0 ∨ status = 0x0D) → { g with reported := mset g.reported m status }.allOk = true → g.entry + 1 < g.table.length →
        g.stopBy = [] → ∃ t h, exec (.stepReport p) s = .next t ∧ t.regionOf l = some h ∧ h.entry = g.entry + 1 ∧
          h.stepsOk = (g.stepsOk + 1) % 2 ^ 32 ∧ h.last = { id := g.stepId, attempt := g.attempt }) ∧
      (status ∉ [0, 0x0D, 0x0E] → (∃ w ∈ g.waiting, w ≠ m) →
        ∃ t h, exec (.stepReport p) s = .next t ∧ t.regionOf l = some h ∧ h.phase = .draining ∧
          h.outcome = { id := g.stepId, attempt := g.attempt, status := status, tag := tag, addr := addr, member := m } ∧
          (∀ w ∈ g.waiting, w ≠ m → s.Told t l w (.cancel g.stepId)) ∧ s.MemSame t)) ∧
    (g.phase = .running → g.deadline ≠ 0 → s.halted (s.arrIsland l) = false → g.waiting ≠ [] →
      ∃ t h, exec (.stepDeadline l) s = .next t ∧ t.regionOf l = some h ∧ h.phase = .draining ∧ h.outcome.status = 0x0C ∧
        (∀ w ∈ g.waiting, s.Told t l w (.cancel g.stepId)) ∧ s.MemSame t) ∧
    (g.phase = .draining → g.waiting = [] → g.backupBusy = false → (∀ q ∈ g.reported, s.unacked q.1 = false) → g.stopBy = [] →
      rerunStatus g.outcome.status = true → g.fencedOpen = [] → g.resetting = [] → g.vacant = false → g.unsafeSub = false → g.attempt < 3 →
      g.holds = [] → s.halted (s.arrIsland l) = false →
      ∃ t h, exec (.rerunStart l) s = .next t ∧ t.regionOf l = some h ∧ h.phase = .running ∧ h.stepId = g.stepId ∧
        h.attempt = g.attempt + 1 ∧ h.reruns = (g.reruns + 1) % 2 ^ 32 ∧ h.last = g.outcome ∧
        (∀ m ∈ g.list, s.Told t l m (.stepStart g.stepId (g.attempt + 1) g.now.entry g.serial g.now.ctrClear h.deadline))))

/-! ### Leaders, members, backups (R153 to R161, R485, R490, R499 to R502) -/

/-- STEP_START and CANCEL at a member: the step begins with its counters cleared, a step without records in flight ends cancelled. R157: a
member belongs to one region, ignores another leader's messages and answers that it is not its member. BACKUP_TIMER, BACKUP_REQUEST, BACKUP_REFUSED, COMMIT_NOTICE, BACKUP_FAILED: a backup is
asked for once an attempt, begins at a standby leader that waits for its trigger with as many members, and its outcome is counted. -/
def Obligations.MembersAndBackups : Prop :=
  (∀ (s : State) (a : Nat) (p : Packet) (l : Nat), s.Takes p a → p.src = .tile l →
    (∀ id attempt entry serial clear deadline n, p.body = .stepMsg (.stepStart id attempt entry serial clear deadline) →
      (s.arr a).member = some (l, n) → (s.arr a).run = none →
      ∃ t, exec (.stepStart p) s = .next t ∧
        (t.arr a).run = some { leader := l, serial := serial, id := id, attempt := attempt, deadline := deadline, next := entry } ∧
        (t.arr a).gate = {} ∧ (∀ c ∈ maskList clear 64, t.rd F.tmCtr_value (a * 64 + c) = 0) ∧ (∀ b, b ≠ a → t.arr b = s.arr b) ∧
        s.MemSame t) ∧
    (∀ id c, ((∃ attempt entry serial clear deadline, p.body = .stepMsg (.stepStart id attempt entry serial clear deadline) ∧ c = .stepStart p) ∨
        (p.body = .stepMsg (.cancel id) ∧ s.regionOf a = none ∧ (∀ run, (s.arr a).run = some run → run.leader ≠ l) ∧ c = .cancel p)) →
      (∀ n, (s.arr a).member ≠ some (l, n)) →
      ∃ t, exec c s = .next t ∧ { t with net := s.net, mesh := s.mesh, buckets := s.buckets, tc0Wait := s.tc0Wait, regs := s.regs } = s ∧
        (s.rd F.admSrc_rate a ≠ 0 → 1 ≤ s.rd F.admSrc_burst a → mget s.tc0Wait a [] = [] → 4096 ≤ s.bucket a →
          s.entering { body := .stepMsg (.notMember id), cls := 0, noack := true, dst := .tile l, src := .tile a } ⊆ t.net)) ∧
    (∀ id n run, p.body = .stepMsg (.cancel id) → s.regionOf a = none → (s.arr a).member = some (l, n) → (s.arr a).run = some run →
      run.id = id → run.leader = l → run.cancelled = false → run.failed = none → (s.arr a).flights = [] →
      ∃ t, exec (.cancel p) s = .next t ∧ s.Reported t a run 0x0E 0 0 ∧ s.MemSame t)) ∧
  (∀ (s : State) (l : Fin 512) (g : Region), s.regionOf l = some g →
    (g.phase = .running → s.halted (s.arrIsland l) = false → g.backupAsked = false → g.now.backupPct ≠ 0 → g.now.standbyEn = true →
      g.now.deadline ≠ 0 →
      ∃ t, exec (.backupTimer l) s = .next t ∧
        t.regionOf l = some { g with backupAsked := true, backupBusy := true, backups := (g.backups + 1) % 2 ^ 32 } ∧
        t.rd F.fltBackup_requested 0 = min (s.rd F.fltBackup_requested 0 + 1) 65535 ∧
        s.Told t l g.now.standby (.backupRequest g.stepId g.attempt l g.now.entry g.serial g.now.ctrClear g.deadline) ∧ s.MemSame t) ∧
    (∀ p, s.Takes p l →
      (∀ id attempt primary entry serial clear deadline, p.body = .stepMsg (.backupRequest id attempt primary entry serial clear deadline) →
        (∀ q, s.regionOf primary = some q → q.list.length = g.list.length → g.phase = .trigger →
          ∃ t h, exec (.backupRequest p) s = .next t ∧ t.regionOf l = some h ∧ h.phase = .standby ∧
            h.backupOf = some (primary, serial, id, attempt) ∧ h.members = g.members ∧
            (∀ m ∈ g.list, s.Told t l m (.stepStart id attempt entry serial clear deadline)) ∧ s.MemSame t) ∧
        (g.phase ≠ .trigger → ∃ t, exec (.backupRequest p) s = .next t ∧ t.regionOf l = some g ∧
          { t with net := s.net, mesh := s.mesh, buckets := s.buckets, tc0Wait := s.tc0Wait, regs := s.regs } = s)) ∧
      (∀ id, p.body = .stepMsg (.backupRefused id) → g.phase = .running → g.stepId = id → g.backupBusy = true →
        ∃ t, exec (.backupRefused p) s = .next t ∧ t.rd F.fltBackup_refused 0 = min (s.rd F.fltBackup_refused 0 + 1) 65535 ∧
          t.regionOf l = some { g with backupBusy := false } ∧
          { t with net := s.net, mesh := s.mesh, regions := s.regions, regs := s.regs } = s) ∧
      (∀ id attempt rank, p.body = .stepMsg (.commitNotice id attempt rank) → g.phase = .running → g.stepId = id →
        g.committed.contains rank = false → { g with committed := rank :: g.committed }.allOk = false →
        ∃ t, exec (.commitNotice p) s = .next t ∧ t.rd F.fltBackup_won 0 = min (s.rd F.fltBackup_won 0 + 1) 65535 ∧
          t.regionOf l = some { g with committed := rank :: g.committed } ∧
          { t with net := s.net, mesh := s.mesh, regions := s.regions, regs := s.regs } = s) ∧
      (∀ id, p.body = .stepMsg (.backupFailed id) →
        ∃ t, exec (.backupFailed p) s = .next t ∧ t.rd F.fltBackup_failed 0 = min (s.rd F.fltBackup_failed 0 + 1) 65535 ∧
          s.Took t p ∧ { t with net := s.net, mesh := s.mesh, regs := s.regs } = s)))

/-! ### Fences, substitution, half panel (R462, R478, R479, R483 to R497, R503) -/

/-- HEARTBEAT_TIMEOUT, ATTRIBUTED_FAILURE, ARRAY_FENCE, HOST_FENCE, FENCE_RETURN, FENCE_NOTICE: an array is reported, fenced with its reason, its step gone, and
returned; leaders note a member's fence and its end. -/
def Obligations.FencesStopAndReturnArrays : Prop :=
  ∀ s : State,
    (∀ (site : Fin 576) (a : Nat), s.arrayAt site = some a → s.inSit = false → s.inReset a = false → s.arrFenced a = false →
      s.siteDead site = false → s.packDark (sitePack site) = false → (a, 1) ∉ s.faults.toFence →
      exec (.heartbeatTimeout site) s = .next { s with faults := { s.faults with toFence := s.faults.toFence ++ [(a, 1)] } }) ∧
    (∀ a : Fin 512, a.val ∈ s.faults.attributed → s.arrVacant a = false → s.arrFenced a = false →
      ((s.rd F.fltCfg_stepFailLimit 0 = 0 ∨ mget s.faults.stepFails a 0 + 1 < s.rd F.fltCfg_stepFailLimit 0) →
        ∃ t, exec (.attributedFailure a) s = .next t ∧ mget t.faults.stepFails a 0 = mget s.faults.stepFails a 0 + 1 ∧
          t.faults.attributed = s.faults.attributed.erase a ∧
          t.rd F.fltHealth_penalty (s.siteOf a) = min (s.rd F.fltHealth_penalty (s.siteOf a) + 8192) 0xFFFFFFFF ∧ t.arrFenced a = false ∧
          { t with regs := s.regs, host := s.host, faults := s.faults } = s) ∧
      (s.rd F.fltCfg_stepFailLimit 0 ≠ 0 → s.rd F.fltCfg_stepFailLimit 0 ≤ mget s.faults.stepFails a 0 + 1 →
        ∃ t, exec (.attributedFailure a) s = .next t ∧ t.arrFenced a = true ∧ mfind t.faults.fenced a = some 2)) ∧
    (∀ (a : Fin 512) (reason : Nat), (a.val, reason) ∈ s.faults.toFence → reason ∉ [4, 8] → s.arrVacant a = false → s.arrFenced a = false →
      ∃ t, exec (.arrayFence a reason) s = .next t ∧ t.arrFenced a = true ∧ mfind t.faults.fenced a = some reason ∧
        (∀ x ∈ t.faults.toFence, x.1 ≠ a.val) ∧
        ((s.isl (s.siteOf a)).running = true → (t.arr a).run = none ∧ (t.arr a).flights = [])) ∧
    (∀ (port : Fin 2) (a : Fin 512), s.Open port .unit →
      (s.arrVacant a = true → ∃ t, exec (.hostFence port a) s = .next t ∧ t.rd F.fltFence_status 0 = 1 ∧
        s.OnlyRegs t (fieldsOf .fltFence 0)) ∧
      (s.arrVacant a = false → s.substBusy (arrPack a) = true → ∃ t, exec (.hostFence port a) s = .next t ∧ t.rd F.fltFence_status 0 = 3 ∧
        s.OnlyRegs t (fieldsOf .fltFence 0)) ∧
      (s.arrVacant a = false → s.substBusy (arrPack a) = false → s.arrFenced a = false →
        ∃ t, exec (.hostFence port a) s = .next t ∧ t.rd F.fltFence_status 0 = 0 ∧ t.arrFenced a = true ∧
          mfind t.faults.fenced a = some 5) ∧
      (s.arrVacant a = false → s.substBusy (arrPack a) = false → mfind s.faults.fenced a = some 5 → s.packDark (arrPack a) = false →
        ∃ t, exec (.fenceReturn port a true) s = .next t ∧ t.rd F.fltFence_status 0 = 0 ∧ t.arrFenced a = false ∧
          mfind t.faults.fenced a = none ∧ s.MemSame t) ∧
      (∀ pass, s.arrVacant a = false → s.substBusy (arrPack a) = false → mfind s.faults.fenced a ≠ some 5 →
        ∃ t, exec (.fenceReturn port a pass) s = .next t ∧ t.rd F.fltFence_status 0 = 2 ∧ s.OnlyRegs t (fieldsOf .fltFence 0))) ∧
    (∀ (p : Packet) (a reason site l n : Nat) (g : Region), p.body = .fenceNotice a reason site → s.mayMove p = true → s.inSit = false →
      s.hears p (s.siteOf l) = true →
      (s.arr a).member = some (l, n) → s.regionOf l = some g → g.phase = .trigger → s.rounds = [] →
      (reason ∉ [0x07, 0x10, 0x11, 0x12] → ∃ t, exec (.fenceNotice p) s = .next t ∧
        t.regionOf l = some { g with fencedOpen := g.fencedOpen ++ [a] } ∧ s.Took t p ∧
        { t with net := s.net, mesh := s.mesh, regions := s.regions } = s) ∧
      (reason = 0x11 → ∃ t, exec (.fenceNotice p) s = .next t ∧
        t.regionOf l = some { g with fencedOpen := g.fencedOpen.filter (· != a), vacant := true } ∧ s.Took t p ∧
        { t with net := s.net, mesh := s.mesh, regions := s.regions } = s) ∧
      (reason = 0x12 → ∃ t, exec (.fenceNotice p) s = .next t ∧
        t.regionOf l = some { g with fencedOpen := g.fencedOpen.filter (· != a) } ∧ s.Took t p ∧
        { t with net := s.net, mesh := s.mesh, regions := s.regions } = s))

/-- SUBSTITUTION, PROACTIVE_SWAP, FLASH_MAP_WRITE, KNOWN_ANSWER_DONE: a fenced array's number moves to a reserve that passes its run, or becomes vacant; a
swap is recorded and fences an array of no region at once; what failed is written to flash. -/
def Obligations.SubstitutionMovesNumbers : Prop :=
  ∀ s : State,
    (∀ (p : Fin 64) (x : Subst), s.substOf p = some x → s.inSit = false → s.packDark p = false → s.arrFenced x.array = true → x.array < 512 →
      (∀ pass, s.reservePos p = none → ∃ t, exec (.substitution p pass) s = .next t ∧
        t.changes = s.changes ++ [{ scope := arrPack x.array, array := x.array, site := s.siteOf x.array, vacant := true }] ∧
        (s.changes = [] → s.Offered t (mnMessage (.fabCtl 0 (arrPack x.array)))) ∧
        { t with regs := s.regs, changes := s.changes, net := s.net, buckets := s.buckets, tc0Wait := s.tc0Wait } = s ∧
        s.RegsBut t ((F.fabState_drainBusy, 0) :: tc0Fields 512)) ∧
      (∀ q, s.reservePos p = some q → ∃ t, exec (.substitution p true) s = .next t ∧
        t.changes = s.changes ++ [{ scope := arrPack x.array, array := x.array, site := packSite (arrPack x.array) q }] ∧
        (x.copy = false → s.rd F.fltRestore_valid x.array = 0 →
          (∀ site o : Nat, o < 67108864 → t.byte site o = if site = packSite (arrPack x.array) q then 0 else s.byte site o))) ∧
      (∀ q, s.reservePos p = some q → x.swap = false → ∃ t, exec (.substitution p false) s = .next t ∧ t.reservePos p = none ∧
        t.changes = s.changes ++ [{ scope := arrPack x.array, array := x.array, site := s.siteOf x.array, vacant := true, resFailed := true }] ∧
        s.MemSame t)) ∧
    (∀ (port : Fin 2) (a : Fin 512) (copy : Bool), s.Open port .unit → s.rd F.fltSwap_go 0 = 0 →
      (s.arrVacant a = true → ∃ t, exec (.proactiveSwap port a copy) s = .next t ∧ t.rd F.fltSwap_status 0 = 1 ∧ t.rd F.fltSwap_go 0 = 0 ∧
        s.OnlyRegs t (fieldsOf .fltSwap 0)) ∧
      (s.arrVacant a = false → s.substBusy (arrPack a) = false → s.arrFenced a = false → s.packDark (arrPack a) = false →
        (s.reservePos (arrPack a)).isSome = true → s.inRegion a = false →
        ∃ t, exec (.proactiveSwap port a copy) s = .next t ∧ t.rd F.fltSwap_go 0 = 1 ∧ t.arrFenced a = true ∧
          { array := a, reason := 8, swap := true, copy := copy } ∈ t.faults.substs)) ∧
    (∀ p : Fin 64, ∃ t, exec (.flashMapWrite p) s = .next t ∧ mget t.faults.failedFlash p 0 = s.rd F.fltReserve_failedSites p ∧
      mfind t.faults.mapFlash p = (s.movedK p).map (· + 1) ∧ { t with faults := s.faults } = s) ∧
    (∀ (site : Fin 576) (a : Nat), s.rd F.idnState_panelState 0 = 0 → s.rd F.idnState_phase 0 = 7 → site.val ∉ s.boot.knownDone →
      site.val ∉ s.faults.awaitKat → s.siteFitted site = true →
      (s.rd F.fltReserve_failedSites (sitePack site)).testBit (sitePos site) = false → s.arrayAt site = some a → mfind s.faults.fenced a = none →
      (∃ t, exec (.knownAnswerDone site true) s = .next t ∧ t.boot.knownDone = site.val :: s.boot.knownDone ∧
        { t with boot := s.boot, faults := s.faults } = s) ∧
      (s.arrFenced a = false → ∃ t, exec (.knownAnswerDone site false) s = .next t ∧ site.val ∈ t.boot.knownDone ∧ t.arrFenced a = true ∧
        mfind t.faults.fenced a = some 3))

/-- PACK_SHORT, PACK_RETRY, SERVICE_CHAIN_REPORT, STATE_CONFLICT, NEIGHBOUR_TEST_DONE, HEALTH_DECAY, HALF_STOP, HALF_START: a shorted pack goes dark with its
arrays fenced, and returns; conflicts of views are tested; penalties decay; the south half stops and starts. -/
def Obligations.PacksHalvesAndHealth : Prop :=
  ∀ s : State,
    (∀ p : Fin 64, s.packFitted p = true → s.packDark p = false → s.boot.busesUp = true →
      ∃ t, exec (.packShort p) s = .next t ∧ t.packDark p = true ∧ t.stackState p = 4 ∧
        ∀ a ∈ packArrays p, s.arrVacant a = false → t.arrFenced a = true) ∧
    (∀ (port : Fin 2) (p : Fin 64) (short : Bool) (dl : List (Fin 1104)), s.Open port .unit → s.rd F.fltPackCmd_retry 0 = 0 →
      ((s.packDark p = false ∨ 3 ≤ mget s.faults.retries p 0) → ∃ t, exec (.packRetry port p short dl) s = .next t ∧
        t.rd F.fltPackCmd_status 0 = 1 ∧ t.rd F.fltPackCmd_retry 0 = 0 ∧ s.OnlyRegs t (fieldsOf .fltPackCmd 0)) ∧
      (s.packDark p = true → mget s.faults.retries p 0 < 3 → ∃ t, exec (.packRetry port p true dl) s = .next t ∧
        t.rd F.fltPackCmd_status 0 = 2 ∧ mget t.faults.retries p 0 = mget s.faults.retries p 0 + 1 ∧ t.packDark p = true ∧ s.MemSame t) ∧
      (s.packDark p = true → mget s.faults.retries p 0 < 3 → ∃ t, exec (.packRetry port p false dl) s = .next t ∧ t.packDark p = false ∧
        mget t.faults.retries p 0 = mget s.faults.retries p 0 + 1 ∧ ∃ l, t.faults.awaitKat = s.faults.awaitKat ++ l)) ∧
    (∀ (p : Fin 64) (r : ChainReport), s.packFitted p = true → (s.inSit && s.sit.all) = false →
      ∃ t, exec (.serviceChainReport p r) s = .next t ∧ mfind t.faults.chain p = some r ∧
        (∀ v, r.silent = false → r.hubTemp = some v → t.rd F.thmHub_tDie p = (v % 65536).toNat) ∧
        { t with regs := s.regs, faults := s.faults } = s) ∧
    (∀ (u : Nat) (row : Fin 5), s.conflict u row = true → s.inSit = false → (∀ q ∈ s.faults.tests, q.1 ≠ u) →
      (row.val = 4 → ∃ t, exec (.stateConflict u row) s = .next t ∧ s.Barked t 0x0023 {} [(24, u), (26, 5), (27, 0)] ∧
        (u - 576) ∈ t.faults.chainHeld ∧ { t with regs := s.regs, host := s.host, faults := s.faults } = s) ∧
      (row.val ∈ [0, 2, 3] → u < 576 → ∃ t, exec (.stateConflict u row) s = .next t ∧
        s.Barked t 0x0023 {} [(24, u), (26, row + 1), (27, 0)] ∧ t.faults.tests = s.faults.tests ++ [(u, row.val)] ∧
        { t with regs := s.regs, host := s.host, faults := s.faults } = s) ∧
      (row.val = 1 → u < 576 → ∃ t, exec (.stateConflict u row) s = .next t ∧ t.faults.tests = s.faults.tests ++ [(u, 1)])) ∧
    (∀ (u row : Nat) (pass : Bool), s.faults.tests.find? (fun t => t.1 == u) = some (u, row) → s.inSit = false →
      ∃ t, exec (.neighbourTestDone u pass) s = .next t ∧ t.faults.tests = s.faults.tests.filter (fun t => t.1 != u) ∧
        (∀ a, row = 1 → pass = true → s.arrayAt u = some a → mfind s.faults.fenced a = some 4 → t.arrFenced a = false)) ∧
    (∃ t, exec .healthDecay s = .next t ∧ (∀ u < 654, t.rd F.fltHealth_penalty u =
        s.rd F.fltHealth_penalty u - (if s.rd F.fltHealth_penalty u < 32 then 0 else s.rd F.fltHealth_penalty u / 32)) ∧
      { t with regs := s.regs, host := s.host, faults := s.faults } = s) ∧
    (∀ port : Fin 2, s.Open port .unit →
      (s.rd F.prtHalf_stop 0 = 0 → s.rd F.prtHalf_state 0 = 0 → ∃ t, exec (.halfStop port) s = .next t ∧ t.rd F.prtHalf_state 0 = 1 ∧
        t.rd F.prtHalf_stop 0 = 1 ∧ t.rd F.prtHalf_status 0 = 0) ∧
      (s.rd F.prtHalf_stop 0 = 0 → s.rd F.prtHalf_state 0 ≠ 0 → ∃ t, exec (.halfStop port) s = .next t ∧ t.rd F.prtHalf_status 0 = 2 ∧
        s.OnlyRegs t [(F.prtHalf_status, 0)]) ∧
      (s.rd F.prtHalf_start 0 = 0 → s.rd F.prtHalf_state 0 = 2 → (∃ p ∈ s.packList, 32 ≤ p ∧ s.packDark p = false) →
        ∃ t, exec (.halfStart port) s = .next t ∧ t.rd F.prtHalf_state 0 = 3 ∧ t.rd F.prtHalf_start 0 = 1) ∧
      (s.rd F.prtHalf_start 0 = 0 → s.rd F.prtHalf_state 0 ≠ 2 → ∃ t, exec (.halfStart port) s = .next t ∧ t.rd F.prtHalf_status 0 = 2 ∧
        s.OnlyRegs t [(F.prtHalf_status, 0)]))

/-! ### Packets at tiles and replies (R145, R182 to R188, R259, R260, R531) -/

/-- WRITE_PACKET, READ_REQ, ATOMIC, SIGNAL_PACKET, SERVICE_PACKET: an allowed access is done and answered, a WRITE outside every region is refused with NACK
status 0x01 and counted. -/
def Obligations.PacketsActAndAreAnswered : Prop :=
  ∀ (s : State) (p : Packet) (a n : Nat), s.Takes p a → s.flips = [] →
    (p.body = .write → 1 ≤ p.payload.length → p.payload.length ≤ 4096 → s.initWaits p p.payload.length = false → p.ctrEn = false →
      (s.region a p.off p.payload.length = some n → s.mayWrite a n (whoOf p a) p.off p.payload.length = true →
        ∃ t, exec (.writePacket p) s = .next t ∧ t.mem = Memory.tileWrite s.mem (s.siteOf a) p.off p.payload ∧
          s.Answered t p (.ack 1 0 0) 0 ∧ { t with mem := s.mem, net := s.net, mesh := s.mesh } = s) ∧
      (s.region a p.off p.payload.length = none →
        ∃ t, exec (.writePacket p) s = .next t ∧ s.Answered t p .nack 1 ∧
          t.rd F.tmDeny_denyCnt a = min (s.rd F.tmDeny_denyCnt a + 1) (2 ^ F.tmDeny_denyCnt.w - 1) ∧ s.MemSame t)) ∧
    (p.body = .write → 1 ≤ p.payload.length → p.payload.length ≤ 4096 → s.initWaits p p.payload.length = false → p.ctrEn = true → p.ctr < 64 →
      s.region a p.off p.payload.length = some n → s.mayWrite a n (whoOf p a) p.off p.payload.length = true →
      ∃ t, exec (.writePacket p) s = .next t ∧ t.mem = Memory.tileWrite s.mem (s.siteOf a) p.off p.payload ∧
        t.rd F.tmCtr_value (a * 64 + p.ctr) = min (s.rd F.tmCtr_value (a * 64 + p.ctr) + 1) 0xFFFFFFFF ∧
        s.Answered t p (.ack 1 0 0) 0) ∧
    (∀ len, p.body = .readReq len → 1 ≤ len → len ≤ 4096 → s.initWaits p len = false → s.region a p.off len = some n →
      s.mayRead a n (readerOf p a) p.off len = true →
      ∃ t, exec (.readReq p) s = .next t ∧
        t.net = s.net.erase p ++ s.entering { replyTo p .readData 0 with payload := s.own a p.off len } ∧ t.mesh = s.mesh.drop p ∧
        { t with net := s.net, mesh := s.mesh } = s) ∧
    (∀ op, p.body = .atomic op → 1 ≤ op → op ≤ 2 → 1 ≤ p.payload.length → p.payload.length ≤ 4096 → p.payload.length % 4 = 0 → p.off % 4 = 0 →
      s.initWaits p p.payload.length = false → s.region a p.off p.payload.length = some n →
      s.mayWrite a n (whoOf p a) p.off p.payload.length = true → p.ctrEn = false →
      ∃ t, exec (.atomic p) s = .next t ∧
        t.mem = addAt op s.mem (s.siteOf a) p.off p.payload ∧
        s.Answered t p (.ack 1 0 0) 0 ∧ { t with mem := s.mem, net := s.net, mesh := s.mesh } = s) ∧
    (∀ v, p.body = .signal v → p.ctr < 64 →
      ∃ t, exec (.signalPacket p) s = .next t ∧
        t.rd F.tmCtr_value (a * 64 + p.ctr) = min (s.rd F.tmCtr_value (a * 64 + p.ctr) + v) 0xFFFFFFFF ∧
        s.Answered t p (.ack 1 0 0) 0 ∧
        { t with net := s.net, mesh := s.mesh, regs := s.regs, host := s.host, faults := s.faults } = s) ∧
    (∀ k, p.body = .service k → ∃ t, exec (.servicePacket p) s = .next t ∧ s.Answered t p (.ack 1 0 0) 0 ∧
      { t with net := s.net, mesh := s.mesh } = s)

/-- ACK, NACK, READ_DATA, REQUEST_TIMEOUT: the last answer that a record waits for retires its request and ends the wait, with the step status that R259
gives for a NACK; read data goes to its place. -/
def Obligations.AnswersRetireRequests : Prop :=
  ∀ (s : State) (p : Packet) (q : Req) (a : Nat) (f : Flight),
    (s.LastReply p q a f → (∀ len, q.pkt.body ≠ .readReq len) →
      (∀ c result epoch, p.body = .ack c result epoch →
        ∃ t, exec (.ack p) s = .next t ∧ s.Retired t a p.rtag { f with out := [], await := .nothing, reads := [] } (s.arr a).run ∧
          s.Took t p ∧ { t with net := s.net, mesh := s.mesh, reqs := s.reqs, arrays := s.arrays, eps := s.eps } = s) ∧
      (p.body = .nack → p.status ≠ 0 → f.copies = 0 → f.status = 0 →
        ∃ t, exec (.nack p) s = .next t ∧
          s.Retired t a p.rtag { f with out := [], await := .nothing, reads := [], status := nackStatus p.status }
            ((s.arr a).run.map (fun r => r.fail (nackStatus p.status) f.tag f.addr)) ∧
          s.Took t p ∧ { t with net := s.net, mesh := s.mesh, reqs := s.reqs, arrays := s.arrays } = s)) ∧
    (∀ len, s.LastReply p q a f → q.pkt.body = .readReq len → p.body = .readData → s.flips = [] →
      s.ownOk a q.loc (q.loc + p.payload.length) = true →
      ∃ t, exec (.readData p) s = .next t ∧ t.mem = Memory.tileWrite s.mem (s.siteOf a) q.loc p.payload ∧ s.Took t p ∧
        s.Retired t a p.rtag { f with out := [], await := .nothing, reads := [] } (s.arr a).run ∧
        { t with mem := s.mem, net := s.net, mesh := s.mesh, reqs := s.reqs, arrays := s.arrays } = s) ∧
    (∀ tag, mfind s.reqs tag = some q → (∀ w ∈ s.tc0Wait, ∀ e ∈ w.2, e.2.rtag ≠ tag) → q.pkt.route.held = false → s.dstHalted { q.pkt with dst := q.src } = false →
      q.src = .tile a → q.array = a → q.flight = f.n → q.flight ≠ 0 → q.descr = none → q.fifo = none → q.expert = 0 → s.inReset a = false →
      (s.arr a).flights = [f] → f.await = .replies → f.out = [tag] → f.copies = 0 → f.status = 0 →
      ∃ t, exec (.requestTimeout tag) s = .next t ∧
        s.Retired t a tag { f with out := [], await := .nothing, reads := [], status := 0x08 }
          ((s.arr a).run.map (fun r => r.fail 0x08 f.tag f.addr)) ∧
        { t with reqs := s.reqs, arrays := s.arrays } = s)

/-! ### Channels (R279 to R310) -/

/-- CHANNEL_ITEM, COMBINING_CONTRIBUTION, RECV_DELIVER, SPILL_REFILL: an item that fits its open endpoint is queued and acknowledged with its epoch, a stale one is
refused; a waiting RECV takes the oldest item; a spilled item moves up. -/
def Obligations.ItemsAreQueuedAndTaken : Prop :=
  ∀ s : State,
    (∀ (p : Packet) (a e mode srcEp epoch b x y : Nat), s.Takes p a → p.body = .channelItem e mode srcEp epoch x y → p.src = .tile b → e < 64 →
      mode ≠ 1 → mode ≠ 3 → s.itemFits a e mode b srcEp p.reply = true →
      (s.epOpen a e = true → epoch = s.epEpoch a e → s.rd F.chEpState_spilled (epKey a e) = 0 →
        (s.ep a e).used + itemEntries p.payload.length ≤ 32 →
        ∃ t, exec (.channelItem p) s = .next t ∧
          (t.ep a e).queue = (s.ep a e).queue ++ [{ data := p.payload, src := b, epoch := epoch }] ∧
          s.Answered t p (.ack 1 0 epoch) 0 ∧ { t with net := s.net, mesh := s.mesh, eps := s.eps, regs := s.regs } = s ∧
          s.RegsBut t [(F.chEpState_queued, epKey a e)]) ∧
      (s.epOpen a e = true → epoch ≠ s.epEpoch a e → s.placeWaits a e p.payload.length = false →
        ∃ t, exec (.channelItem p) s = .next t ∧ s.Answered t p (.ack 1 3 (s.epEpoch a e)) 0 ∧
          { t with net := s.net, mesh := s.mesh } = s)) ∧
    (∀ (p : Packet) (a e srcEp epoch slot fmt n el : Nat), s.Takes p a → p.body = .channelItem e 1 srcEp epoch slot fmt → e < 64 →
      s.epRole a e = 5 → s.epOpen a e = true → s.rd F.chEpState_batch (epKey a e) ≠ 0 → fmt = s.rd F.chEp_inFmt (epKey a e) →
      fmt ∈ [1, 2, 3, 14] → el = s.combElems a e → p.payload.length = el * fmtWidth fmt / 8 → s.combWaits a e slot = false → mget (s.ep a e).arrived slot 0 < mget (s.ep a e).expected slot 0 → s.flips = [] →
      s.region a (s.combBase a e + slot * el * 4) (el * 4) = some n → s.recvWaiting a e = none →
      s.mayWrite a n .channel (s.combBase a e + slot * el * 4) (el * 4) = true →
      ∃ t, exec (.combiningContribution p) s = .next t ∧
        t.mem = addAt (if fmt = 14 then 2 else 1) s.mem (s.siteOf a) (s.combBase a e + slot * el * 4) (wideElems fmt el p.payload) ∧
        mget (t.ep a e).arrived slot 0 = mget (s.ep a e).arrived slot 0 + 1 ∧ s.Answered t p (.ack 1 0 (s.epEpoch a e)) 0 ∧
        { t with mem := s.mem, net := s.net, mesh := s.mesh, eps := s.eps, regs := s.regs } = s ∧ s.RegsBut t [(F.chEpCnt_items, epKey a e)]) ∧
    (∀ (a : Fin 512) (e : Fin 64) (f : Flight) (it : Item) (rest : List Item), s.recvWaiting a e = some f → s.flight a f.n = some f →
      (s.ep a e).queue = it :: rest → s.halted (s.arrIsland a) = false → s.rangesStall a f.writes = false →
      it.bad = false → it.data.length ≤ Rf f.record 16 0 32 → s.flips = [] →
      s.ownOk a (Rf f.record 12 0 26) (Rf f.record 12 0 26 + it.data.length) = true →
      s.ownOk a (Rf f.record 20 0 26) (Rf f.record 20 0 26 + 8) = true →
      ∃ t, exec (.recvDeliver a e) s = .next t ∧ t.ep a e = { s.ep a e with queue := rest, refused := [] } ∧
        t.mem = Memory.tileWrite (Memory.tileWrite s.mem (s.siteOf a) (Rf f.record 12 0 26) it.data) (s.siteOf a) (Rf f.record 20 0 26)
          (leBytes 8 (statusWord 0 it.spilled false it.data.length it.epoch it.src)) ∧
        t.arr a = { s.arr a with flights := (s.arr a).flights.map (fun x => if x.n = f.n then { x with await := .nothing } else x) } ∧
        t.rd F.chEpCnt_items (epKey a e) = (s.rd F.chEpCnt_items (epKey a e) + 1) % 2 ^ F.chEpCnt_items.w ∧
        t.net = s.net ++ (s.ep a e).refused.flatMap (fun q => s.entering (creditPacket a e q 0 (s.epEpoch a e))) ∧
        (∀ b, b ≠ a.val → t.arr b = s.arr b) ∧
        { t with mem := s.mem, net := s.net, arrays := s.arrays, eps := s.eps, regs := s.regs } = s ∧
        s.RegsBut t [(F.chEpCnt_items, epKey a e), (F.chEpState_queued, epKey a e)]) ∧
    (∀ (a : Fin 512) (e : Fin 64) (slot n base size k : Nat), s.oldestSlot a e = some slot → s.spillArea a = some (n, base, size, k) →
      s.halted (s.arrIsland a) = false → s.spillBusy a = false →
      (s.ep a e).used + itemEntries (s.slotHdr a base slot 2 2) ≤ 32 → s.flips = [] →
      ∃ t, exec (.spillRefill a e) s = .next t ∧
        (t.ep a e).queue = (s.ep a e).queue ++
          [{ data := s.own a (base + size / 64 + 4096 * slot) (s.slotHdr a base slot 2 2), src := s.slotHdr a base slot 6 2,
             epoch := s.slotHdr a base slot 4 2, spilled := true }] ∧
        t.mem = Memory.tileWrite s.mem (s.siteOf a) (base + 64 * slot) (List.replicate 64 0) ∧
        t.rd F.chEpState_spilled (epKey a e) = (s.rd F.chEpState_spilled (epKey a e) - 1) % 2 ^ F.chEpState_spilled.w ∧
        { t with mem := s.mem, net := s.net, eps := s.eps, regs := s.regs } = s ∧
        s.RegsBut t [(F.chEpState_spilled, epKey a e), (F.chEpState_queued, epKey a e)] ∧
        ((∀ x < 64, (s.ep a x).refused = []) → t.net = s.net))

/-- SPACE_NOTICE, OPEN_NOTICE, CLOSE_NOTICE, EPOCH_QUERY, BLOCK_NOTICE: notices of the peer set the known epoch and send what waits, a
query is answered, a block notice makes the endpoint suspect. CHANNEL_RESEND, CHANNEL_SUSPECT, CHANNEL_SEND_TIMEOUT: a blocked item is
sent again, marked suspect with a notice to the peer and a record, and given up with code 0x03. -/
def Obligations.NoticesAndBlockedSends : Prop :=
  (∀ (s : State) (p : Packet) (a e b srcEp op epoch : Nat), s.Takes p a → p.body = .channelCredit e srcEp op epoch → p.src = .tile b → e < 64 →
    (op = 0 → s.epPeer a e = (b, srcEp) →
      (∀ o, (s.ep a e).outs = [o] → o.since.isSome = true → o.rtag = 0 →
        ∃ t, exec (.spaceNotice p) s = .next t ∧ s.Resent t (s.net.erase p) a e epoch o ∧ t.mesh = s.mesh.drop p ∧
          { t with net := s.net, mesh := s.mesh, arrays := s.arrays, eps := s.eps, reqs := s.reqs, nextTag := s.nextTag } = s) ∧
      ((s.ep a e).outs = [] → ∃ t, exec (.spaceNotice p) s = .next t ∧ t.ep a e = { s.ep a e with peerEpoch := epoch } ∧ s.Took t p ∧
        { t with net := s.net, mesh := s.mesh, eps := s.eps } = s)) ∧
    (op = 1 → s.epPeer a e = (b, srcEp) → roleSends (s.epRole a e) = true →
      ∀ o, (s.ep a e).outs = [o] → o.since = none → o.rtag = 0 →
        ∃ t, exec (.openNotice p) s = .next t ∧ s.Resent t (s.net.erase p) a e epoch o ∧ (t.ep a e).queried = false ∧
          t.mesh = s.mesh.drop p ∧
          { t with net := s.net, mesh := s.mesh, arrays := s.arrays, eps := s.eps, reqs := s.reqs, nextTag := s.nextTag } = s) ∧
    (op = 2 → s.epPeer a e = (b, srcEp) → roleSends (s.epRole a e) = true → (s.ep a e).outs = [] →
      ∃ t, exec (.closeNotice p) s = .next t ∧ t.ep a e = { s.ep a e with peerEpoch := epoch, queried := false } ∧
        s.Took t p ∧ { t with net := s.net, mesh := s.mesh, eps := s.eps } = s) ∧
    (op = 3 → ∃ t, exec (.epochQuery p) s = .next t ∧ t.mesh = s.mesh.drop p ∧
      t.net = s.net.erase p ++ s.entering (creditPacket a e (b, srcEp) (if s.epOpen a e then 1 else 2) (s.epEpoch a e)) ∧
      { t with net := s.net, mesh := s.mesh } = s) ∧
    (op = 4 → s.epPeer a e = (b, srcEp) → ∃ t, exec (.blockNotice p) s = .next t ∧ t.rd F.chEpState_suspect (epKey a e) = 1 ∧
      s.Took t p ∧ { t with net := s.net, mesh := s.mesh, regs := s.regs } = s ∧ s.RegsBut t [(F.chEpState_suspect, epKey a e)])) ∧
  (∀ (s : State) (a : Fin 512) (e : Fin 64) (o : OutItem), s.halted (s.arrIsland a) = false → (s.ep a e).outs = [o] → o.since.isSome = true →
    (o.rtag = 0 → ∃ t, exec (.channelResend a e) s = .next t ∧ s.Resent t s.net a e (s.ep a e).peerEpoch o ∧
      { t with net := s.net, arrays := s.arrays, eps := s.eps, reqs := s.reqs, nextTag := s.nextTag } = s) ∧
    (o.suspect = false → ∃ t, exec (.channelSuspect a e) s = .next t ∧ (t.ep a e).outs = [{ o with suspect := true }] ∧
      t.rd F.chEpState_suspect (epKey a e) = 1 ∧ t.net = s.net ++ s.entering (creditPacket a e (s.epPeer a e) 4 0) ∧
      s.Barked t 0x0008 { kind := .array, num := a } [(24, a), (26, e), (28, (s.epPeer a e).1), (30, (s.epPeer a e).2)] ∧
      { t with net := s.net, eps := s.eps, regs := s.regs, host := s.host, faults := s.faults } = s) ∧
    (∀ f, s.rd F.chCfg_tmo10us a ≠ 0 → s.flight a o.flight = some f → s.flips = [] →
      s.ownOk a (Rf f.record 20 0 26) (Rf f.record 20 0 26 + 8) = true →
      ∃ t, exec (.channelSendTimeout a e) s = .next t ∧ (t.ep a e).outs = [] ∧
        t.rd F.chEpCnt_tmo (epKey a e) = min (s.rd F.chEpCnt_tmo (epKey a e) + 1) (2 ^ F.chEpCnt_tmo.w - 1) ∧
        t.mem = Memory.tileWrite s.mem (s.siteOf a) (Rf f.record 20 0 26)
          (leBytes 8 (statusWord 0x03 false o.suspect 0 (s.ep a e).peerEpoch (s.epPeer a e).1)) ∧
        { t with mem := s.mem, arrays := s.arrays, eps := s.eps, regs := s.regs } = s))

/-! ### Gathers, reductions, dispatch, tokens (R131 to R141, R153, R213 to R219, R266 to R270) -/

/-- GATHER_RESERVE, GATHER_LIST, BAG_PART: a hub reserves and passes the reserve on; with the last list chunk it pools its rows; a bag's value is written at its
destination. -/
def Obligations.GathersPassThroughHubs : Prop :=
  ∀ (s : State) (p : Packet) (gid : Nat) (g : Gather), mfind s.gathers gid = some g →
    (∀ h w packs, s.ReachesHub p h → p.body = .gatherReserve gid w packs → mfind s.hubWait h = none → s.tblHeld gid = false →
      (s.hubBytes h g = 0 ∨ mget s.hubUsed h 0 + s.hubBytes h g ≤ 4194304) →
      ∃ t, exec (.gatherReserve p) s = .next t ∧ (t.gather gid).reserved.testBit h = true ∧ t.mesh = s.mesh.drop p ∧
        mget t.hubUsed h 0 = mget s.hubUsed h 0 + s.hubBytes h g ∧
        t.net = s.net.erase p ++ (match (maskList g.packs 64).find? (fun x => decide (h < x)) with
          | some x => s.enteringFrom (.hub h) (g.reserve gid x)
          | none => s.entering (replyTo (g.reserve gid h) (.ack 1 0 0) 0)) ∧
        { t with net := s.net, mesh := s.mesh, gathers := s.gathers, hubUsed := s.hubUsed } = s) ∧
    (∀ h c, s.ReachesHub p h → p.body = .gatherList gid c →
      (mget g.got h 0 + 1 < ceilDiv (8 * g.list.length) 4096 →
        ∃ t, exec (.gatherList p) s = .next t ∧ mget (t.gather gid).got h 0 = mget g.got h 0 + 1 ∧
          s.Answered t p (.ack 1 0 0) 0 ∧ { t with net := s.net, mesh := s.mesh, gathers := s.gathers } = s) ∧
      (∀ d, ceilDiv (8 * g.list.length) 4096 ≤ mget g.got h 0 + 1 → s.hubStatus h g = 0 → s.dirAt h g.table = some d → g.failed = [] →
        g.bagsDone < g.nbags → s.stackErr = [] →
        ∃ t, exec (.gatherList p) s = .next t ∧ h ∈ (t.gather gid).pooled ∧ s.MemSame t)) ∧
    (∀ h bag lo hi count, s.ReachesHub p h → p.body = .bagPart gid bag lo hi count → g.failed = [] → g.bagsDone < g.nbags →
      ∃ t x, exec (.bagPart p) s = .next t ∧ x ∈ (t.gather gid).parts ∧ x.tag = lo ∧ x.bag = bag ∧ x.count = count ∧
        x.vals = unpackElems 32 (p.payload.length / 4) p.payload ∧ s.MemSame t) ∧
    (∀ a n bag lo hi count bytes, s.Takes p a → p.body = .bagPart gid bag lo hi count → s.flips = [] → p.ctrEn = false →
      bytes = bagBytes g bag count (unpackElems 32 (p.payload.length / 4) p.payload) → s.initWaits p bytes.length = false → s.region a p.off bytes.length = some n →
      s.mayWrite a n (if g.array = a then .own else .array g.array) p.off bytes.length = true →
      ∃ t, exec (.bagPart p) s = .next t ∧ t.mem = Memory.tileWrite s.mem (s.siteOf a) p.off bytes ∧
        s.Answered t p (.ack 1 0 0) 0 ∧ { t with mem := s.mem, net := s.net, mesh := s.mesh } = s)

/-- REDUCE_PART, RED_CREDIT, RED_DONE, DISPATCH_SEND, TOKEN_CLAIM: parts and credits join their round; the end of a round writes the completion word; a DISPATCH sends every
row with its tag to its expert; a claim is granted or denied by the order of R153. -/
def Obligations.ReductionsDispatchAndTokens : Prop :=
  ∀ s : State,
    (∀ (p : Packet) (a g op lo hi c n : Nat) (x : RedRound), s.Takes p a → p.body = .reducePart g op lo hi c n →
      (mfind s.rounds g).isSome = true → (s.round g).serial = p.rtag →
      x = { (s.round g).compare a (srcUnit p.src) with
        parts := (s.round g).parts ++ [(lo, hi, c, unpackElems 32 (p.payload.length / 4) p.payload)] } → s.RoundWaits g x →
      ∃ t, exec (.reducePart p) s = .next t ∧ t.round g = x ∧ s.Took t p ∧
        { t with net := s.net, mesh := s.mesh, rounds := s.rounds } = s) ∧
    (∀ (p : Packet) (a b g k : Nat) (x : RedRound), s.Takes p a → p.body = .redCredit g k → p.src = .tile b →
      (s.round g).serial = p.rtag → redLeader (s.redAlive g) a (redTop (s.redAlive g) a + 1) = some b →
      x = { s.round g with credits := mset (s.round g).credits a (mget (s.round g).credits a 0 + k) } → s.RoundWaits g x →
      ∃ t, exec (.redCredit p) s = .next t ∧ t.round g = x ∧ s.Took t p ∧
        { t with net := s.net, mesh := s.mesh, rounds := s.rounds } = s) ∧
    (∀ (p : Packet) (a g counted : Nat) (short mismatch : Bool) (f : Flight), s.Takes p a → p.body = .redDone g counted short mismatch →
      ((s.round g).serial = p.rtag ∨ mfind (s.round g).contrib a = none) →
      (s.arr a).flights = [f] → f.await = .reduce g → f.status = 0 → s.flips = [] →
      s.ownOk a (Rf f.record 32 0 26) (Rf f.record 32 0 26 + 8) = true →
      ∃ t, exec (.redDone p) s = .next t ∧ s.Took t p ∧
        t.mem = Memory.tileWrite s.mem (s.siteOf a) (Rf f.record 32 0 26)
          (leBytes 8 (counted + (if short then 1 else 0) * 2 ^ 16 + (if mismatch then 1 else 0) * 2 ^ 17)) ∧
        (t.arr a).flights = [{ f with await := .nothing,
                                      status := if mismatch then 0x02 else if short && Rf f.record 19 0 1 == 1 then 0x0A else 0 }] ∧
        { t with mem := s.mem, net := s.net, mesh := s.mesh, arrays := s.arrays } = s) ∧
    (∀ (a : Fin 512) (run : StepRun) (r : Record) (pl : Plan) (n e i : Nat) (x : MapEntry), s.Fetches a run r .dispatchSend pl →
      n = (if Rf r 10 0 8 = 0 then 256 else Rf r 10 0 8) * Rf r 11 0 8 → e = Rf r 28 0 6 → s.epRole a e = 5 → s.epOpen a e = true →
      s.rd F.chEpState_batch (epKey a e) = 1 → (s.ep a e).expected = [] →
      s.ownOk a (Rf r 12 0 26) (Rf r 12 0 26 + 8 * n) = true → s.ownOk a (Rf r 24 0 26) (Rf r 24 0 26 + 4096) = true →
      (∀ j < 256, (s.dispEntry a r j).valid = true → (s.dispEntry a r j).cntBase % 4 = 0 ∧ (s.dispEntry a r j).inBase % 8 = 0 ∧
        (s.dispEntry a r j).tagBase % 8 = 0) →
      (∀ j < n, (s.dispSlot a r n j).testBit 8 = true →
        (s.dispEntry a r (bitsAt (s.dispSlot a r n j) 0 8)).valid = true ∧
        s.RowsOk a (Rf r 16 0 26) (Rf r 22 0 16 * 64) (j / Rf r 11 0 8 + 1) (Rf r 20 0 16) ∧
        (s.dispEntry a r (bitsAt (s.dispSlot a r n j) 0 8)).array ≠ a ∧
        s.arrVacant (s.dispEntry a r (bitsAt (s.dispSlot a r n j) 0 8)).array = false) →
      i < n → (s.dispSlot a r n i).testBit 8 = true → x = s.dispEntry a r (bitsAt (s.dispSlot a r n i) 0 8) →
      bitsAt (s.dispSlot a r n i) 16 16 < x.rps →
      x.inBase + (Rf r 9 0 8 * x.rps + bitsAt (s.dispSlot a r n i) 16 16) * Rf r 20 0 16 + Rf r 20 0 16 ≤ 67108864 →
      x.tagBase + 8 * (Rf r 9 0 8 * x.rps + bitsAt (s.dispSlot a r n i) 16 16) + 8 ≤ 67108864 →
      ∃ t, exec (.dispatchSend a) s = .next t ∧
        s.Carries t a x.array (x.inBase + (Rf r 9 0 8 * x.rps + bitsAt (s.dispSlot a r n i) 16 16) * Rf r 20 0 16)
          (s.own a (Rf r 16 0 26 + i / Rf r 11 0 8 * Rf r 22 0 16 * 64) (Rf r 20 0 16)) ∧
        s.Carries t a x.array (x.tagBase + 8 * (Rf r 9 0 8 * x.rps + bitsAt (s.dispSlot a r n i) 16 16))
          (leBytes 8 (a + i / Rf r 11 0 8 * 2 ^ 16 + bitsAt (s.dispSlot a r n i) 32 32 * 2 ^ 32)) ∧
        { t with regs := s.regs, eps := s.eps, mem := s.mem, arrays := s.arrays, net := s.net, reqs := s.reqs, nextTag := s.nextTag,
                 host := s.host, faults := s.faults } = s) ∧
    (∀ (p : Packet) (a slot serial id leader attempt : Nat), s.Takes p a → p.body = .tokenClaim slot serial id leader attempt →
      ∃ t ok, exec (.tokenClaim p) s = .next t ∧
        ok = grantClaim (mfind s.tokens (s.siteOf a * 64 + slot)) { serial := serial, id := id, leader := leader, attempt := attempt } ∧
        t.net = s.net.erase p ++ s.entering (replyTo p (.tokenAnswer ok) 0) ∧ t.mesh = s.mesh.drop p ∧
        mfind t.tokens (s.siteOf a * 64 + slot) = (if ok then some { serial := serial, id := id, leader := leader, attempt := attempt }
          else mfind s.tokens (s.siteOf a * 64 + slot)) ∧ { t with net := s.net, mesh := s.mesh, tokens := s.tokens } = s)

/-! ### Field ports (R331 to R361) -/

/-- FIELD_LINK_CHANGE, FIELD_FRAME_RX, KEY_COMMIT, KEY_ERASE: the link shows, every frame counts once and a bad one again, a frame of a stream is
one item of its FIFO, an ARP frame is answered, a datagram without its key is refused; a key is taken from the staged words or erased. -/
def Obligations.FieldPortsReceive : Prop :=
  ∀ (s : State) (n : Fin 8),
    (s.halted (fieldIsland (n.val / 4)) = false →
      (∀ speed fec, s.rd F.fldPort_en n = 1 → s.linkFits n speed fec = true →
        ∃ t, exec (.fieldLinkChange n true speed fec) s = .next t ∧ t.rd F.fldPortStat_link n = 1 ∧ t.rd F.fldPortStat_speedAct n = speed ∧
          t.rd F.fldPortStat_fecAct n = (if speed = 1 then 1 else fec) ∧ s.OnlyRegs t (fieldsOf .fldPortStat n)) ∧
      (∀ speed fec, ∃ t, exec (.fieldLinkChange n false speed fec) s = .next t ∧ t.rd F.fldPortStat_link n = 0 ∧
        t.rd F.fldPortStat_speedAct n = 0 ∧ t.rd F.fldPortStat_fecAct n = 0 ∧ s.OnlyRegs t (fieldsOf .fldPortStat n)) ∧
      (s.rd F.fldPort_en n = 1 → s.rd F.fldPortStat_link n = 1 →
        (∀ f : Frame, s.stampOk (fieldIsland (n.val / 4)) f.rxTime = true → ∃ t, exec (.fieldFrameRx n f) s = .next t ∧
          t.rd F.fldPortCnt_rxFrames n = (s.rd F.fldPortCnt_rxFrames n + 1) % 2 ^ F.fldPortCnt_rxFrames.w ∧ s.MemSame t) ∧
        (∀ f : Frame, s.stampOk (fieldIsland (n.val / 4)) f.rxTime = true → (f.fcsOk = false ∨ f.tagOk = false ∨ f.length < 64 ∨ 1522 < f.length) →
          ∃ t, exec (.fieldFrameRx n f) s = .next t ∧
            t.rd F.fldPortCnt_rxBad n = min (s.rd F.fldPortCnt_rxBad n + 1) (2 ^ F.fldPortCnt_rxBad.w - 1) ∧
            s.OnlyRegs t [(F.fldPortCnt_rxFrames, n), (F.fldPortCnt_rxBad, n)]) ∧
        (∀ f : Frame, s.stampOk (fieldIsland (n.val / 4)) f.rxTime = true → f.fcsOk = true → f.tagOk = true → 64 ≤ f.length → f.length ≤ 1522 →
          (∀ mac ip, f.body = .arp mac ip (s.rd F.fldPort_ipv4 n) → ∃ t, exec (.fieldFrameRx n f) s = .next t ∧
            (t.fport n).replies = (s.fport n).replies ++ [.arpReply mac ip (s.rd F.fldPort_ipv4 n)] ∧
            { t with regs := s.regs, field := s.field } = s ∧ s.RegsBut t [(F.fldPortCnt_rxFrames, n)]) ∧
          (∀ appid m i (x : Asdu), f.body = .sv appid [x] → s.stream (n.val / 4) (n.val % 4) 1 appid = some m → x.smpSynch = 0 →
            s.field.learnt = [] → s.rd F.fldCfg_concEn 0 = 0 → s.rd F.fldStrm_fifoEn (n.val / 4 * 256 + m) = 1 →
            i = n.val / 4 * 32 + s.rd F.fldStrm_fifo (n.val / 4 * 256 + m) → s.rd F.fldFifo_en i = 1 → (s.fifo i).gap = none →
            (s.fifo i).used + itemWords x.seqData.length + 1 ≤ 1024 →
            ∃ t, exec (.fieldFrameRx n f) s = .next t ∧
              (t.fifo i).items = (s.fifo i).items ++
                [{ rxTime := f.rxTime, tagTime := f.rxTime, kind := 1, port := n.val % 4, unsynced := true, stream := m, ident := appid,
                   sub := x.smpCnt, aux := x.confRev, vlan := f.vlan, srcMac := f.srcMac, data := x.seqData }] ∧
              t.rd F.fldFifoStat_used i = (s.fifo i).used + itemWords x.seqData.length ∧
              { t with regs := s.regs, field := s.field } = s) ∧
          (∀ b, f.body = .datagram true (s.rd F.fldCfg_sptUdp 0) b →
            ((sptOf b).good = false ∨ ((sptOf b).len ≤ 976 ∧ s.inEntry (n.val / 4) (sptOf b).keyId = none)) →
            ∃ t, exec (.fieldFrameRx n f) s = .next t ∧
              t.rd F.fldInCnt_authFail (n.val / 4) = min (s.rd F.fldInCnt_authFail (n.val / 4) + 1) (2 ^ F.fldInCnt_authFail.w - 1) ∧
              s.OnlyRegs t [(F.fldPortCnt_rxFrames, n), (F.fldInCnt_authFail, n.val / 4)])))) ∧
    (∀ (port d : Fin 2) (slot : Fin 64), s.Open port .unit →
      (∀ newId : BitVec 16, ∃ t, exec (.keyCommit port d slot newId) s = .next t ∧
        t.keyOf d slot = some ((List.range 8).flatMap (fun w => leBytes 8 (mget s.field.stage (d.val * 8 + w) 0))) ∧
        t.rd F.fldKeyId_keyId (d.val * 64 + slot.val) = newId.toNat ∧ t.rd F.fldKeyId_loaded (d.val * 64 + slot.val) = 1 ∧
        (∀ w < 8, mget t.field.stage (d.val * 8 + w) 0 = 0) ∧
        (∀ k, k ≠ d.val * 64 + slot.val → mfind t.field.keys k = mfind s.field.keys k) ∧ { t with regs := s.regs, field := s.field } = s) ∧
      (∃ t, exec (.keyErase port d slot) s = .next t ∧ t.keyOf d slot = none ∧ t.rd F.fldKeyId_keyId (d.val * 64 + slot.val) = 0 ∧
        t.rd F.fldKeyId_loaded (d.val * 64 + slot.val) = 0 ∧ (∀ w < 8, mget t.field.stage (d.val * 8 + w) 0 = 0) ∧
        (∀ k, k ≠ d.val * 64 + slot.val → mfind t.field.keys k = mfind s.field.keys k) ∧ { t with regs := s.regs, field := s.field } = s))

/-- INGEST_DELIVERY, INGEST_IDLE, CONC_SNAPSHOT_CLOSE, CONC_SOUTH_PART, CONC_PUBLISH_TIMEOUT, CONC_RATE_LEARNT: items leave their FIFO as writes to the
slot of their `SEQ`; an empty FIFO sends its watermark; a die closes its part, and the north die publishes both, or its own with the south's missing. -/
def Obligations.IngestAndSnapshots : Prop :=
  ∀ s : State,
    (∀ (d : Fin 2) (f : Fin 32) (i : Nat) (x : Fifo), i = d.val * 32 + f.val → x = s.fifo i → s.halted (fieldIsland d) = false →
      s.rd F.fldFifo_en i = 1 → s.arrHeld (s.rd F.fldFifo_array i) = false →
      (∀ it rest, x.items = it :: rest → it.flips = [] →
        ∃ t, exec (.ingestDelivery d f) s = .next t ∧ t.fifo i = { x with items := rest, seq := (x.seq + 1) % 2 ^ 32 } ∧
          t.net = s.net ++ s.entering (s.itemWrite d i (itemBytes it x.seq rest.length) x.seq) ∧
          (mfind t.reqs s.nextTag).isSome = true ∧ t.nextTag = s.nextTag + 1 ∧
          { t with regs := s.regs, field := s.field, net := s.net, reqs := s.reqs, nextTag := s.nextTag } = s) ∧
      (x.items = [] → s.rd F.fldFifo_idleUs i ≠ 0 →
        ∃ t, exec (.ingestIdle d f) s = .next t ∧ t.fifo i = { x with seq := (x.seq + 1) % 2 ^ 32 } ∧
          t.net = s.net ++ s.entering (s.itemWrite d i (itemBytes { kind := 2, tagTime := s.now } x.seq 0) x.seq) ∧
          (mfind t.reqs s.nextTag).isSome = true ∧ t.nextTag = s.nextTag + 1 ∧
          { t with regs := s.regs, field := s.field, net := s.net, reqs := s.reqs, nextTag := s.nextTag } = s)) ∧
    (∀ (d : Fin 2) (T : Nat), s.halted (fieldIsland d) = false → s.rd F.fldCfg_concEn 0 = 1 → T % 20000000 = 0 →
      mget s.field.closed d 0 < T → T + s.rd F.fldConc_concWait 0 * 1000000 ≤ s.now →
      ∃ t, exec (.concSnapshotClose d T) s = .next t ∧ mget t.field.closed d 0 = T ∧ mfind t.field.parts (T * 2 + d) = some (s.concPart d T) ∧
        { t with field := s.field } = s) ∧
    (∀ (T : Nat) (n so : List ConcBlock), s.halted (fieldIsland 0) = false → mfind s.field.parts (T * 2) = some n →
      (mfind s.field.parts (T * 2 + 1) = some so →
        ∃ t out, exec (.concSouthPart T) s = .next t ∧ (t.fport 0).snaps = (s.fport 0).snaps ++ out ∧
          out.map (List.drop 32) = (cutBlocks s.snapRoom (s.snapBlocks (n ++ so)) [] 0).map (fun g => g.flatMap concBytes) ∧
          t.rd F.fldConcStat_snapSeq 0 = (s.rd F.fldConcStat_snapSeq 0 + 1) % 2 ^ F.fldConcStat_snapSeq.w ∧
          mfind t.field.parts (T * 2) = none ∧ mfind t.field.parts (T * 2 + 1) = none ∧ { t with regs := s.regs, field := s.field } = s ∧
          s.RegsBut t [(F.fldConcStat_snapSeq, 0), (F.fldConcStat_missing, 0)]) ∧
      (T + (s.rd F.fldConc_concWait 0 + 2) * 1000000 ≤ s.now → so = (s.concPart 1 T).map (fun b => { stream := b.stream, die := 1, kind := b.kind, state := 1 }) →
        ∃ t out, exec (.concPublishTimeout T) s = .next t ∧ (t.fport 0).snaps = (s.fport 0).snaps ++ out ∧
          out.map (List.drop 32) = (cutBlocks s.snapRoom (s.snapBlocks (n ++ so)) [] 0).map (fun g => g.flatMap concBytes) ∧
          mfind t.field.parts (T * 2) = none ∧ { t with regs := s.regs, field := s.field } = s ∧
          s.RegsBut t [(F.fldConcStat_snapSeq, 0), (F.fldConcStat_missing, 0)])) ∧
    (∀ (d : Fin 2) (m : Fin 256) (k : Nat), mfind s.field.svMax (d.val * 256 + m.val) = some k → s.field.learnt.contains (d.val * 256 + m.val) = true →
      s.rd F.fldStrm_kind (d.val * 256 + m.val) = 1 → s.halted (fieldIsland d) = false →
      ∃ t, exec (.concRateLearnt d m) s = .next t ∧ t.rd F.fldStrm_rateBase (d.val * 256 + m.val) = (k + 1) % 2 ^ F.fldStrm_rateBase.w ∧
        t.field.learnt.contains (d.val * 256 + m.val) = false ∧ { t with regs := s.regs, field := s.field } = s ∧
        s.RegsBut t [(F.fldStrm_rateBase, d.val * 256 + m.val)])

/-- SETPOINT_ACCEPT, SETPOINT_DEADLINE_PASS, PORT_FRAME_SELECT, FRAME_TX_DONE, SETPOINT_DELIVER: a bound setpoint joins its port's queue, another is
refused; one whose deadline passes is late; the earliest is built, sent and counted; an inbound one lands in its slot. -/
def Obligations.SetpointsLeaveAndArrive : Prop :=
  ∀ s : State,
    (∀ (p : Packet) (d a e i n : Nat) (v : Spt), s.mayMove p = true → s.stopsAt p = none → p.body = .setpoint e → p.cls = 0 → p.bad = false →
      p.dst = .field d → p.src = .tile a → s.dstHalted p = false → i = d * 1024 + bitsAt (leNat (p.payload.take 16)) 64 10 → n = 4 * d + s.rd F.fldTgt_port i →
      v = { deadline := bitsAt (leNat (p.payload.take 16)) 0 64, target := bitsAt (leNat (p.payload.take 16)) 64 10,
            asset := bitsAt (leNat (p.payload.take 16)) 96 32, payload := p.payload.drop 16 } →
      (∀ j, s.fieldBind a e = some j → s.rd F.fldSptBind_die j = d → s.epRole a e = 1 → s.rd F.fldTgt_valid i = 1 →
        (s.keyOf d (s.rd F.fldTgt_key i)).isSome = true → bitsAt (leNat (p.payload.take 16)) 74 22 = 0 → 16 ≤ p.payload.length →
        p.payload.length ≤ 1024 → s.now ≤ v.deadline → (s.fport n).setpoints.length < 512 →
        ∃ t, exec (.setpointAccept p) s = .next t ∧
          (t.fport n).setpoints = (s.fport n).setpoints ++ [{ v with order := (s.fport n).accepted }] ∧
          s.Answered t p (.ack 1 0 0) 0 ∧ { t with net := s.net, mesh := s.mesh, field := s.field } = s) ∧
      ((s.fieldBind a e = none ∨ (∃ j, s.fieldBind a e = some j ∧ s.rd F.fldSptBind_die j ≠ d) ∨ s.epRole a e ≠ 1 ∨ s.rd F.fldTgt_valid i = 0 ∨
          s.keyOf d (s.rd F.fldTgt_key i) = none ∨ bitsAt (leNat (p.payload.take 16)) 74 22 ≠ 0 ∨ p.payload.length < 16 ∨ 1024 < p.payload.length) →
        ∃ t, exec (.setpointAccept p) s = .next t ∧ t.rd F.fldSptCnt_refused n = min (s.rd F.fldSptCnt_refused n + 1) (2 ^ F.fldSptCnt_refused.w - 1) ∧
          s.Answered t p .nack 1 ∧ { t with net := s.net, mesh := s.mesh, regs := s.regs } = s ∧ s.RegsBut t [(F.fldSptCnt_refused, n)])) ∧
    (∀ n : Fin 8, s.halted (fieldIsland (n.val / 4)) = false →
      (∃ t, exec (.setpointDeadlinePass n) s = .next t ∧
        (t.fport n).setpoints = (s.fport n).setpoints.filter (fun x => !decide (x.deadline < s.now)) ∧
        t.rd F.fldSptCnt_late n = min (s.rd F.fldSptCnt_late n + ((s.fport n).setpoints.filter (fun x => decide (x.deadline < s.now))).length)
          (2 ^ F.fldSptCnt_late.w - 1) ∧ s.MemSame t) ∧
      (∀ firstBit, s.rd F.fldPort_en n = 1 → s.rd F.fldPortStat_link n = 1 → (s.fport n).wire = none → s.now + 160 ≤ firstBit →
        (∀ g, (s.fport n).ahead = some g → ∃ t, exec (.portFrameSelect n firstBit) s = .next t ∧ (t.fport n).wire = some g ∧
          (t.fport n).ahead = none ∧ t.outs = .frame n g :: s.outs ∧ { t with field := s.field, outs := s.outs } = s) ∧
        ((s.fport n).ahead = none →
        (∀ x key c i, firstSpt (s.fport n).setpoints = some x → i = n.val / 4 * 1024 + x.target → c = mget s.field.tgtCount i 0 →
          s.keyOf (n.val / 4) (s.rd F.fldTgt_key i) = some key → firstBit ≤ x.deadline → c < 2 ^ 40 - 1 →
          ∃ t, exec (.portFrameSelect n firstBit) s = .next t ∧ (t.fport n).setpoints = (s.fport n).setpoints.erase x ∧
            (t.fport n).wire = some (.setpoint (s.sptFrame n i
              (s.buildSetpoint (n.val / 4) x (s.rd F.fldSeqEpoch_seqEpoch 0 * 2 ^ 40 + c) key))) ∧
            mget t.field.tgtCount i 0 = c + 1 ∧ { t with field := s.field, outs := s.outs } = s) ∧
        ((s.fport n).setpoints = [] → (s.fport n).ptp = [] → (s.fport n).replies = [] → ∀ b id rest, (s.fport n).hostTx = (b, id) :: rest →
          (s.fport n).snaps = [] →
          ∃ t, exec (.portFrameSelect n firstBit) s = .next t ∧ (t.fport n).wire = some (.host b id) ∧ (t.fport n).hostTx = rest ∧
            t.outs = .frame n (.host b id) :: s.outs ∧ { t with field := s.field, outs := s.outs } = s))) ∧
      (∀ txTime, s.stampOk (fieldIsland (n.val / 4)) txTime = true → (s.fport n).ahead = none →
        (∀ b, (s.fport n).wire = some (.setpoint b) →
          ∃ t, exec (.frameTxDone n txTime) s = .next t ∧ (t.fport n).wire = none ∧
            t.rd F.fldSptCnt_sent n = (s.rd F.fldSptCnt_sent n + 1) % 2 ^ F.fldSptCnt_sent.w ∧ { t with field := s.field, regs := s.regs } = s ∧
            s.RegsBut t [(F.fldSptCnt_sent, n)]) ∧
        (∀ b f, (s.fport n).wire = some (.host b f.id) → s.descr f.id = some f → f.st ≠ .done → f.Loud →
          ∃ t, exec (.frameTxDone n txTime) s = .next t ∧ (t.fport n).wire = none ∧ s.Completed t f 0 0 b.length 0 ∧
            { t with field := s.field, regs := s.regs, host := s.host } = s))) ∧
    (∀ (p : Packet) (a e k : Nat), s.Takes p a → p.body = .setpoint e → s.initWaits p p.payload.length = false → s.flips = [] → s.region a p.off p.payload.length = some k →
      s.mayWrite a k (whoOf p a) p.off p.payload.length = true →
      (p.ctrEn = false → ∃ t, exec (.setpointDeliver p) s = .next t ∧
        t.mem = Memory.tileWrite s.mem (s.siteOf a) p.off p.payload ∧ s.Answered t p (.ack 1 0 0) 0 ∧
        { t with mem := s.mem, net := s.net, mesh := s.mesh } = s) ∧
      (p.ctrEn = true → p.ctr < 64 → s.rd F.tmCtr_value (a * 64 + p.ctr) + 1 < 2 ^ 32 - 1 → ∃ t, exec (.setpointDeliver p) s = .next t ∧
        t.mem = Memory.tileWrite s.mem (s.siteOf a) p.off p.payload ∧
        t.rd F.tmCtr_value (a * 64 + p.ctr) = s.rd F.tmCtr_value (a * 64 + p.ctr) + 1 ∧ s.Answered t p (.ack 1 0 0) 0 ∧
        { t with mem := s.mem, net := s.net, mesh := s.mesh, regs := s.regs } = s ∧ s.RegsBut t [(F.tmCtr_value, a * 64 + p.ctr)]))

/-! ### Routers and MN's work for them (R255 to R276, R318) -/

/-- MCAST_GROUP_WRITE, REDUCTION_GROUP_WRITE, MCAST_GROUP_CLEAR, REDUCTION_GROUP_CLEAR (R276): a group change waits its turn, or is
refused with its status; while `GO` is set another changes nothing. FAB_HOLD, FAB_DRAIN_QUERY, FAB_DRAIN_REPORT, FAB_TABLE_UPDATE,
FAB_RELEASE (R275): MN's FAB_CTL messages take the first change through its steps in order; a pack's arrays are held meanwhile, and the
table changes once every router that takes part has answered. -/
def Obligations.FabricChangesDrainFirst : Prop :=
  (∀ (s : State) (port : Fin 2) (g : Fin 4096), s.Open port .unit →
    (s.rd F.fabGrpCmd_go 0 = 1 →
      ∀ c ∈ [Instr.mcastGroupWrite port g, .reductionGroupWrite port g, .mcastGroupClear port g, .reductionGroupClear port g],
        exec c s = .next s) ∧
    (s.rd F.fabGrpCmd_go 0 = 0 →
      (g.val ≤ 511 → ∀ q ∈ [(Instr.mcastGroupWrite port g, 0, s.stagedMask), (.mcastGroupClear port g, 2, 0)],
        ∃ t, exec q.1 s = .next t ∧ s.ChangeAdded t { scope := scopeMcast g, op := q.2.1, mask := q.2.2 } ∧
          t.rd F.fabGrpCmd_go 0 = 1 ∧ t.rd F.fabGrpCmd_op 0 = q.2.1 ∧ t.rd F.fabGrpCmd_group 0 = g ∧
          s.RegsBut t ((F.fabState_drainBusy, 0) :: fieldsOf .fabGrpCmd 0 ++ tc0Fields 512)) ∧
      (511 < g.val → ∀ c ∈ [Instr.mcastGroupWrite port g, .mcastGroupClear port g],
        ∃ t, exec c s = .next t ∧ t.rd F.fabGrpCmd_status 0 = 1 ∧ t.rd F.fabGrpCmd_go 0 = 0 ∧ s.OnlyRegs t (fieldsOf .fabGrpCmd 0)) ∧
      (s.groupInUse g = true → ∀ c ∈ [Instr.reductionGroupWrite port g, .reductionGroupClear port g],
        ∃ t, exec c s = .next t ∧ t.rd F.fabGrpCmd_status 0 = 3 ∧ t.rd F.fabGrpCmd_go 0 = 0 ∧ s.OnlyRegs t (fieldsOf .fabGrpCmd 0)) ∧
      (s.groupInUse g = false → s.groupsFull g s.stagedMask = true →
        ∃ t, exec (.reductionGroupWrite port g) s = .next t ∧ t.rd F.fabGrpCmd_status 0 = 2 ∧ t.rd F.fabGrpCmd_go 0 = 0 ∧
          s.OnlyRegs t (fieldsOf .fabGrpCmd 0)) ∧
      (s.groupInUse g = false → s.groupsFull g s.stagedMask = false →
        ∃ t, exec (.reductionGroupWrite port g) s = .next t ∧ s.ChangeAdded t { scope := scopeRed g, op := 1, mask := s.stagedMask } ∧
          t.rd F.fabGrpCmd_go 0 = 1 ∧ s.RegsBut t ((F.fabState_drainBusy, 0) :: fieldsOf .fabGrpCmd 0 ++ tc0Fields 512)) ∧
      (s.groupInUse g = false →
        ∃ t, exec (.reductionGroupClear port g) s = .next t ∧ s.ChangeAdded t { scope := scopeRed g, op := 3, mask := 0 } ∧
          t.rd F.fabGrpCmd_go 0 = 1 ∧ s.RegsBut t ((F.fabState_drainBusy, 0) :: fieldsOf .fabGrpCmd 0 ++ tc0Fields 512)))) ∧
  (∀ (s : State) (c : FabChange) (rest : List FabChange), s.changes = c :: rest → s.inSit = false →
    (c.step = 1 → ∀ p, s.FabCtlAt 0 c.scope p →
      ∃ t, exec .fabHold s = .next t ∧ t.changes = { c with step := 2 } :: rest ∧ t.holds = s.holds ++ [c.scope] ∧
        (c.scope < 64 → ∀ a ∈ packArrays c.scope, s.rd F.fabSite_state a = 0 → t.rd F.fabSite_state a = 3) ∧ s.FabNext t p 1 c.scope ∧
        { t with regs := s.regs, changes := s.changes, holds := s.holds, net := s.net, mesh := s.mesh, buckets := s.buckets,
                 tc0Wait := s.tc0Wait } = s) ∧
    (c.step = 2 → ∀ p, s.FabCtlAt 1 c.scope p →
      exec .fabDrainQuery s = .next { s.take p with changes := { c with step := 3, drained := [] } :: rest }) ∧
    (c.step = 3 → ∀ site : Fin 576, c.drained.contains site.val = false → site.val ∈ s.partakers → s.routerDrained site c.scope = true →
      ∃ t d, exec (.fabDrainReport site) s = .next t ∧ t.changes = d :: rest ∧ d.drained = site.val :: c.drained ∧
        (d.step = 4 ↔ ∀ x ∈ s.partakers, x ∈ site.val :: c.drained) ∧
        (d.step = 4 → s.Offered t (mnMessage (.fabCtl 3 c.scope))) ∧ (d.step ≠ 4 → t.net = s.net) ∧
        { t with regs := s.regs, changes := s.changes, net := s.net, buckets := s.buckets, tc0Wait := s.tc0Wait } = s ∧
        s.RegsBut t (tc0Fields 512)) ∧
    (c.step = 4 → ∀ p, s.FabCtlAt 3 c.scope p →
      (100 ≤ c.scope → c.scope < 10000 → ∃ t, exec .fabTableUpdate s = .next t ∧ mget t.mcast (c.scope - 100) 0 = c.mask ∧
        (∀ g, g ≠ c.scope - 100 → mget t.mcast g 0 = mget s.mcast g 0) ∧ t.changes = { c with step := 6 } :: rest ∧ s.FabNext t p 4 c.scope ∧
        { t with regs := s.regs, mcast := s.mcast, changes := s.changes, net := s.net, mesh := s.mesh, buckets := s.buckets,
                 tc0Wait := s.tc0Wait } = s ∧ s.RegsBut t (tc0Fields 512)) ∧
      (10000 ≤ c.scope → ∃ t, exec .fabTableUpdate s = .next t ∧ mget t.redGroups (c.scope - 10000) 0 = c.mask ∧
        (∀ g, g ≠ c.scope - 10000 → mget t.redGroups g 0 = mget s.redGroups g 0) ∧ t.changes = { c with step := 6 } :: rest ∧
        s.FabNext t p 4 c.scope ∧
        { t with regs := s.regs, redGroups := s.redGroups, changes := s.changes, net := s.net, mesh := s.mesh, buckets := s.buckets,
                 tc0Wait := s.tc0Wait } = s ∧ s.RegsBut t (tc0Fields 512)) ∧
      (c.scope = 64 → ∃ t, exec .fabTableUpdate s = .next t ∧
        (c.mask = s.rd F.fabState_maskGen 0 → s.rd F.fabState_escMode 0 = 2 → t.rd F.fabState_escMode 0 = 1 ∧ t.escTable = some s.maskNow) ∧
        (c.mask ≠ s.rd F.fabState_maskGen 0 → t.escTable = s.escTable) ∧ t.changes = { c with step := 6 } :: rest ∧ s.FabNext t p 4 c.scope ∧
        { t with regs := s.regs, escTable := s.escTable, changes := s.changes, net := s.net, mesh := s.mesh, buckets := s.buckets,
                 tc0Wait := s.tc0Wait } = s ∧ s.RegsBut t ((F.fabState_escMode, 0) :: tc0Fields 512)) ∧
      (c.scope < 64 → c.array < 512 → c.site < 576 → c.vacant = false →
        ∃ t, exec .fabTableUpdate s = .next t ∧ t.siteOf c.array = c.site ∧ t.changes = { c with step := 6, site := s.siteOf c.array } :: rest ∧
          (∀ a < 512, a ≠ c.array → t.siteOf a = s.siteOf a) ∧ (∀ k < 16, t.rd F.tmRgn_initBusy (c.array * 16 + k) = 0) ∧
          (∀ k < 64, t.rd F.tmCtr_value (c.array * 64 + k) = 0 ∧
            t.rd F.chEpState_state (epKey c.array k) = (if s.epOpen c.array k || (s.ep c.array k).wasOpen then 2 else 0)) ∧
          (∀ b, b ≠ c.array → t.arr b = s.arr b) ∧ s.MemSame t ∧ s.FabNext t p 4 c.scope) ∧
      (c.scope < 64 → c.array < 512 → c.vacant = true → ∃ t, exec .fabTableUpdate s = .next t ∧ t.rd F.fabSite_state c.array = 1 ∧
        s.FabNext t p 4 c.scope ∧
        { t with regs := s.regs, changes := s.changes, net := s.net, mesh := s.mesh, buckets := s.buckets, tc0Wait := s.tc0Wait } = s ∧
        s.RegsBut t ((F.fabSite_state, c.array) :: tc0Fields 512))) ∧
    (c.step = 6 → ∀ p, s.FabCtlAt 4 c.scope p →
      (64 ≤ c.scope → ∃ t, exec .fabRelease s = .next t ∧ t.changes = rest ∧ t.holds = s.holds.filter (· != c.scope) ∧
        t.rd F.fabState_drainBusy 0 = b2n (rest != []) ∧
        (100 ≤ c.scope → t.rd F.fabGrpCmd_go 0 = 0 ∧ t.rd F.fabGrpCmd_status 0 = 0) ∧
        (∀ q ∈ s.net.erase p, q.route.held = false → q ∈ t.net) ∧ t.mesh = s.mesh.drop p ∧
        { t with regs := s.regs, changes := s.changes, holds := s.holds, net := s.net, mesh := s.mesh, reqs := s.reqs, buckets := s.buckets,
                 tc0Wait := s.tc0Wait } = s ∧
        s.RegsBut t ([(F.fabState_drainBusy, 0), (F.fabGrpCmd_status, 0), (F.fabGrpCmd_go, 0)] ++ tc0Fields 512)) ∧
      (c.array < 512 → c.site < 576 → c.scope = arrPack c.array → c.vacant = false → s.boot.deferred = [] →
        (∀ x ∈ s.faults.substs, x.array = c.array ∧ x.swap = false) →
        ∃ t, exec .fabRelease s = .next t ∧ t.changes = rest ∧ t.holds = s.holds.filter (· != c.scope) ∧ t.arrFenced c.array = false ∧
          (∀ a ∈ packArrays c.scope, s.rd F.fabSite_state a = 3 → t.rd F.fabSite_state a = 0) ∧
          t.rd F.fltReserve_resPos c.scope = 0xF ∧ t.rd F.fltReserve_subK c.scope = c.array % 8 ∧ t.faults.substs = [] ∧
          mfind t.faults.fenced c.array = none ∧ t.mesh = s.mesh.drop p ∧ s.MemSame t)))

/-- FLIT_ARRIVAL, LINK_IDLE_TIMEOUT, DEAD_LINK_REPORT, DEAD_MASK, ESCAPE_TABLE_COMPUTED, EJECT_GUARD_EXPIRE, GAP_NOTICE: a good flit is buffered
or reaches its unit's port, a bad one is replayed, at last forwarded `BAD` or its link dead; what is reported joins the next mask, which the
routers apply. -/
def Obligations.FlitsAndMasks : Prop :=
  ∀ s : State,
    (∀ (site : Fin 576) (inPort : Fin 6) (vc : Fin 14), s.PortOpen site inPort →
      (∀ p f, beyondOf site inPort = none → (s.wire site inPort).fly = [] →
        s.net.find? (fun q => !q.route.held && firstVC q == vc.val && s.portOf q site inPort && decide (s.mesh.leftSource q < pktFlits q)) = some p →
        s.mesh.used site inPort vc < vcRoom vc → p.route.site = site.val → noRoute p = false → (∀ a, p.src = .tile a → s.arrFenced a = false) →
        f = s.flitOf p vc (s.mesh.leftSource p) → s.Keeps site inPort f →
        ∃ t, exec (.flitArrival site inPort vc [] [] []) s = .next t ∧
          mget t.mesh.bufs (bufKey site inPort vc) [] = mget s.mesh.bufs (bufKey site inPort vc) [] ++ [f] ∧
          (t.wire site inPort).fly = [] ∧ { t with mesh := s.mesh, host := s.host } = s) ∧
      (∀ f rest, (s.wire site inPort).fly = f :: rest →
        (s.Keeps site inPort f → ∃ t, exec (.flitArrival site inPort vc [] [] []) s = .next t ∧
          mget t.mesh.bufs (bufKey site inPort f.vc) [] = mget s.mesh.bufs (bufKey site inPort f.vc) [] ++ [f] ∧
          (t.wire site inPort).fly = rest ∧ (t.wire site inPort).fails = 0 ∧ { t with mesh := s.mesh, host := s.host } = s) ∧
        (f.dstSite = site.val → ∃ t, exec (.flitArrival site inPort vc [] [] []) s = .next t ∧
          mget t.mesh.eject site [] = mget s.mesh.eject site [] ++ [f] ∧ (t.wire site inPort).fly = rest ∧
          { t with mesh := s.mesh, host := s.host } = s) ∧
        (∀ (pay : List (Fin 2048)) (par : List (Fin 256)) (side : List (Fin 64)),
          (parityFails (wrongWires pay par side) = true ∨ sideFlips (wrongWires pay par side) ≠ 0) →
          ((s.wire site inPort).fails < 3 → ∃ t, exec (.flitArrival site inPort vc pay par side) s = .next t ∧
            t.rd F.fabRtrCnt_parErr site = min (s.rd F.fabRtrCnt_parErr site + 1) (2 ^ F.fabRtrCnt_parErr.w - 1) ∧
            t.rd F.fabRtrCnt_replays site = min (s.rd F.fabRtrCnt_replays site + 1) (2 ^ F.fabRtrCnt_replays.w - 1) ∧
            t.wire site inPort = { s.wire site inPort with fails := (s.wire site inPort).fails + 1 } ∧
            { t with regs := s.regs, mesh := s.mesh, host := s.host, faults := s.faults } = s) ∧
          (3 ≤ (s.wire site inPort).fails → sideFlips (wrongWires pay par side) < 2 → parityFails (wrongWires pay par side) = true → s.Keeps site inPort f →
            ∃ t l, exec (.flitArrival site inPort vc pay par side) s = .next t ∧
              t.rd F.fabRtrCnt_badFwd site = min (s.rd F.fabRtrCnt_badFwd site + 1) (2 ^ F.fabRtrCnt_badFwd.w - 1) ∧
              mget t.mesh.bufs (bufKey site inPort f.vc) [] = l ++ [{ f with bad := true, pkt := { f.pkt with bad := true } }] ∧
              t.net = s.net.map (fun q => if q = f.pkt then { q with bad := true } else q) ∧ s.MemSame t) ∧
          (∀ x, 3 ≤ (s.wire site inPort).fails → 2 ≤ sideFlips (wrongWires pay par side) → beyondOf site inPort = some x → s.mesh.bufs = [] →
            ∃ t, exec (.flitArrival site inPort vc pay par side) s = .next t ∧ t.declared site x.2 = true ∧
              t.net = s.net.erase f.pkt ++ s.nackFrom site f.pkt 2 ∧
              t.rd F.fabRtrCnt_absorbed site = min (s.rd F.fabRtrCnt_absorbed site + 1) (2 ^ F.fabRtrCnt_absorbed.w - 1) ∧ s.MemSame t)))) ∧
    (∀ (site : Fin 576) (outPort : Fin 6) (x : Nat × Nat), beyondOf site outPort = some x → s.siteOk site = true → s.halted (576 + site.val) = false →
      s.linkDead x.2 = false → s.declared site x.2 = false →
      exec (.linkIdleTimeout site outPort) s = .next ({ s with localDead := (site.val * 2048 + x.2) :: s.localDead }).sweep) ∧
    (∀ (ls : List (Fin 1104)) (ts : List (Fin 576)), s.inSit = false →
      ((∃ l ∈ ls, s.mnMask.2.testBit l = false ∧ s.reported l = true) ∨
        (∃ x ∈ ts, s.siteFitted x = true ∧ s.mnMask.1.testBit x = false ∧ s.routerDown x = true)) →
      ∃ t, exec (.deadLinkReport ls ts) s = .next t ∧ (∀ l ∈ ls, s.reported l = true → t.mnMask.2.testBit l = true) ∧
        (∀ x ∈ ts, s.siteFitted x = true → s.routerDown x = true → t.mnMask.1.testBit x = true) ∧
        (∀ i, s.mnMask.1.testBit i = true → t.mnMask.1.testBit i = true) ∧
        (∀ i, s.mnMask.2.testBit i = true → t.mnMask.2.testBit i = true) ∧ t.mnGen = (s.mnGen + 1) % 65536 ∧
        mfind t.maskSent t.mnGen = some t.mnMask ∧ s.Offered t (mnMessage (.deadMask t.mnGen)) ∧ s.MemSame t) ∧
    (∀ (p : Packet) (g ts ls : Nat), s.mayMove p = true → p.body = .deadMask g → s.inSit = false → mfind s.maskSent g = some (ts, ls) →
      (∀ q < 64, s.packDark q = false) →
      ∃ t, exec (.deadMask p) s = .next t ∧ t.rd F.fabState_maskGen 0 = g % 65536 ∧ (∀ n < 9, t.rd F.fabMaskSite_dead n = bitsAt ts (64 * n) 64) ∧
        (∀ n < 18, t.rd F.fabMaskLink_dead n = bitsAt ls (64 * n) 64) ∧
        t.rd F.fabState_escMode 0 = (if ts = 0 ∧ ls = 0 then 0 else 2) ∧ t.escTable = (if ts = 0 ∧ ls = 0 then none else s.escTable) ∧
        (∀ l ∈ t.localDead, ls.testBit (l % 2048) = false) ∧ s.MemSame t ∧
        (s.mesh.bufs = [] → s.Took t p ∧
          { t with regs := s.regs, net := s.net, mesh := s.mesh, maskSent := s.maskSent, localDead := s.localDead, escTable := s.escTable } = s)) ∧
    (s.rd F.fabState_escMode 0 = 2 → (∀ c ∈ s.changes, c.scope ≠ 64) → s.inSit = false →
      ∃ t, exec .escapeTableComputed s = .next t ∧ s.ChangeAdded t { scope := 64, mask := s.rd F.fabState_maskGen 0 } ∧
        s.RegsBut t ((F.fabState_drainBusy, 0) :: tc0Fields 512)) ∧
    (∀ (site : Fin 576) (p : Packet), s.mayMove p = true → p.cls = 0 → s.inSit = false →
      (p.dst ≠ .broadcast → s.stopsAt p = none → s.destSite p = site →
        ∃ t, exec (.ejectGuardExpire site p) s = .next t ∧ t.net = s.net.erase p ++ s.nackFrom site p 2 ∧ t.mesh = s.mesh.drop p ∧
          t.rd F.fabRtrCnt_absorbed site = min (s.rd F.fabRtrCnt_absorbed site + 1) (2 ^ F.fabRtrCnt_absorbed.w - 1) ∧
          (mfind s.rateAt (0x000A * 65536 + srcUnit p.dst) = none → s.Barked t 0x000A { kind := .routerSite, num := site } []) ∧ s.MemSame t) ∧
      (p.dst = .broadcast → s.hears p site = true →
        ∃ t, exec (.ejectGuardExpire site p) s = .next t ∧ t.net = s.net ∧ t.hears p site = false ∧
          t.rd F.fabRtrCnt_absorbed site = min (s.rd F.fabRtrCnt_absorbed site + 1) (2 ^ F.fabRtrCnt_absorbed.w - 1) ∧
          (mfind s.rateAt (0x000A * 65536 + (1024 + site.val)) = none → s.Barked t 0x000A { kind := .routerSite, num := site } []) ∧ s.MemSame t)) ∧
    (∀ (p : Packet) (u d e m : Nat), s.mayMove p = true → s.stopsAt p = none → p.body = .gapNotice u d e → p.dst = .mgmt m → s.dstHalted p = false →
      ∃ t, exec (.gapNotice p) s = .next t ∧ s.Took t p ∧ s.Barked t 0x000B { kind := .mgmtDie, num := m } [(24, u), (26, d), (28, e)] ∧
        { t with net := s.net, mesh := s.mesh, regs := s.regs, host := s.host, faults := s.faults } = s ∧ s.RegsBut t lostRecords)

/-! ### Links (R362 to R393) -/

/-- LINK_LIGHT_DETECT, LINK_TRAIN_DONE, LINK_ALIGN_DONE, IDENTITY_WORD, LINK_TRAIN_RETRY, LINK_LOCK_LOSS, UNCORR_LIMIT_EXCEEDED, RETRAIN_DONE,
LINK_LIGHT_LOST, FAILOVER_TIMEOUT, QUIESCE_WORD, QUIESCE_ACKNOWLEDGE, QUIESCE_TIMEOUT (R364, R365, R372 to R377, R387, R388): the states of a port. -/
def Obligations.LinkPortsChangeState : Prop :=
  ∀ (s : State) (n : Fin 8),
    (s.linkHalted n = false →
      (s.lstate n = 1 → ∃ t, exec (.linkLightDetect n) s = .next t ∧ t.lstate n = 2 ∧ (t.lport n).sent = [] ∧ (t.lport n).credited = [] ∧
        s.Barked t 0x0014 { kind := .linkPort, num := n } [(24, 1), (25, 2)] ∧ s.MemSame t) ∧
      (s.lstate n = 2 → ∀ f : LaneMap,
        (∀ k half, s.lanesOk n f = some (k, half) → ∃ t, exec (.linkTrainDone n f) s = .next t ∧ t.lstate n = 3 ∧ t.rd F.lnkLane_failed n = f.toNat ∧
          t.rd F.lnkStat_sparesRx n = k ∧ t.rd F.lnkStat_half n = b2n half ∧ s.MemSame t) ∧
        (s.lanesOk n f = none → ∃ t, exec (.linkTrainDone n f) s = .next t ∧ t.lstate n = 9 ∧ t.rd F.lnkLane_failed n = f.toNat ∧
          { t with regs := s.regs, host := s.host, faults := s.faults } = s)) ∧
      (s.lstate n = 3 → ∃ t, exec (.linkAlignDone n) s = .next t ∧ t.lstate n = 4 ∧
        t.outs = .control n 4 [s.panelId, n, s.rd F.lnkPort_dateline n, s.rd F.lnkPort_spanId n, s.rd F.idnSerial_serial 0] :: s.outs ∧ s.MemSame t) ∧
      (∀ w : Identity, (s.lstate n = 4 ∨ s.lstate n = 8) →
        (w.spanId = s.rd F.lnkPort_spanId n → (w.dateline = true ↔ s.rd F.lnkPort_dateline n = 1) → (w.panelId ≠ s.panelId ∨ w.panelId = 4095) →
          w.serial ≠ s.rd F.idnSerial_serial 0 →
          ∃ t, exec (.identityWord n w) s = .next t ∧ t.lstate n = 5 ∧ t.rd F.lnkPort_retrain n = 0 ∧
            t.rd F.lnkStat_peerPanel n = w.panelId % 4096 ∧ t.rd F.lnkStat_peerPort n = w.port % 8 ∧ s.MemSame t) ∧
        (s.lstate n = 4 → (w.spanId ≠ s.rd F.lnkPort_spanId n ∨ (w.dateline = true ∧ s.rd F.lnkPort_dateline n = 0) ∨ (w.panelId = s.panelId ∧ w.panelId ≠ 4095) ∨ w.serial = s.rd F.idnSerial_serial 0) →
          ∃ t r, exec (.identityWord n w) s = .next t ∧ t.lstate n = 8 ∧ t.faults.barkLog.head? = some r ∧ r.code = 0x0013 ∧
            r.unit = { kind := .linkPort, num := n } ∧ r.detail = [(24, w.panelId)] ∧ s.MemSame t)) ∧
      (2 ≤ s.lstate n → s.lstate n ≤ 4 → ∃ t, exec (.linkTrainRetry n) s = .next t ∧ t.lstate n = 1 ∧
        { t with regs := s.regs, host := s.host, faults := s.faults } = s) ∧
      (∀ c ∈ [Instr.linkLockLoss n, .uncorrLimitExceeded n], s.lup n = true → ∃ t, exec c s = .next t ∧ t.lstate n = 6 ∧
        t.rd F.lnkCnt_retrains n = min (s.rd F.lnkCnt_retrains n + 1) (2 ^ F.lnkCnt_retrains.w - 1) ∧ s.MemSame t) ∧
      (s.lstate n = 6 → ∀ f : LaneMap,
        ((s.lanesOk n f).isSome = true → ∃ t, exec (.retrainDone n f) s = .next t ∧ t.lstate n = 5 ∧ t.rd F.lnkLane_failed n = f.toNat ∧ s.MemSame t) ∧
        (s.lanesOk n f = none → ∃ t, exec (.retrainDone n f) s = .next t ∧ t.lstate n = 9 ∧ t.rd F.lnkLane_failed n = f.toNat ∧ s.MemSame t)) ∧
      (2 ≤ s.lstate n → ∃ t, exec (.linkLightLost n) s = .next t ∧ t.lstate n = 1 ∧ s.MemSame t) ∧
      (s.lstate n = 6 → ∃ t, exec (.failoverTimeout n) s = .next t ∧ (t.lport n).failover = true ∧ t.lstate n = 6 ∧ s.MemSame t) ∧
      (∀ w, (s.lstate n = 5 ∨ s.lstate n = 7) → (s.lport n).peerQuiesced = false →
        ∃ t, exec (.quiesceWord n w) s = .next t ∧ t.lstate n = 7 ∧ (t.lport n).peerQuiesced = true ∧ t.outs.head? = some (.control n 2 [s.panelId]) ∧
          t.rd F.lnkStat_peerPanel n = w % 4096 ∧ s.MemSame t)) ∧
    (s.lstate n = 7 → (s.lport n).quiescing = true →
      (∀ w, (s.lport n).txq ≠ [] → ∃ t, exec (.quiesceAcknowledge n w) s = .next t ∧ (t.lport n).ackRcvd = true ∧
        t.rd F.lnkStat_peerPanel n = w % 4096 ∧ { t with regs := s.regs, links := s.links } = s ∧ s.RegsBut t [(F.lnkStat_peerPanel, n)]) ∧
      (∀ w, (s.lport n).txq = [] → s.boot.panelReset = false → ∃ t, exec (.quiesceAcknowledge n w) s = .next t ∧ t.lstate n = 0 ∧
        t.rd F.lnkStat_peerPanel n = w % 4096 ∧ .lasers n false ∈ t.outs ∧ s.MemSame t) ∧
      (s.boot.panelReset = false → ∃ t, exec (.quiesceTimeout n) s = .next t ∧ t.lstate n = 0 ∧
        t.rd F.lnkCnt2_lost n = min (s.rd F.lnkCnt2_lost n + (s.lport n).txq.length) (2 ^ F.lnkCnt2_lost.w - 1) ∧ .lasers n false ∈ t.outs ∧
        s.MemSame t))

/-- CREDIT_WORD, CREDIT_WORD_TIMER, CREDIT_RESYNC_TIMER, DELAY_PROBE, DELAY_PROBE_TIMER, SPAN_HEAD_WORD, UNCORRECTABLE_CODEWORD (R366 to R371, R376, R377,
R392): credits and probes, a head word that is for this panel, goes on by another port, or has no hops left, and a codeword that is lost. -/
def Obligations.LinkWordsAreCountedAndRouted : Prop :=
  ∀ (s : State) (n : Fin 8), s.linkHalted n = false →
    (∀ freed : List Nat, freed.length = 16 → (s.lport n).txq = [] →
      ((s.lstate n ≠ 7 ∨ (s.lport n).quiescing = false ∨ (s.lport n).ackRcvd = false) →
        ∃ t, exec (.creditWord n freed) s = .next t ∧ (∀ v < 16, mget (t.lport n).credited v 0 = freed.getD v 0 % 65536) ∧
          { t with links := s.links } = s) ∧
      (s.lstate n = 7 → (s.lport n).quiescing = true → (s.lport n).ackRcvd = true → s.boot.panelReset = false →
        ∃ t, exec (.creditWord n freed) s = .next t ∧ t.lstate n = 0 ∧ .lasers n false ∈ t.outs ∧ s.MemSame t)) ∧
    ((s.lstate n = 5 ∨ s.lstate n = 7) →
      (mget s.links.tc0Held n [] = [] → (s.lport n).unreported = true →
        ∃ t, exec (.creditWordTimer n) s = .next t ∧ t.outs = .control n 0 ((List.range 16).map (fun v => mget (s.lport n).freed v 0)) :: s.outs ∧
          (t.lport n).unreported = false ∧ { t with links := s.links, outs := s.outs } = s) ∧
      (∀ p : SpanPkt, p.lvc ≤ 15 → p.data.length ≤ 2048 → p.reservedZero = true → p.kind ∈ [0, 2] →
        (∀ c, ∃ t, exec (.spanHeadWord n ⟨p, c⟩) s = .next t ∧
          t.rd F.lnkCnt_corrCw n = min (s.rd F.lnkCnt_corrCw n + c) (2 ^ F.lnkCnt_corrCw.w - 1) ∧ s.MemSame t) ∧
        (1 ≤ p.hops → s.forMe p = true →
          ∃ t, exec (.spanHeadWord n ⟨p, 0⟩) s = .next t ∧ (t.lport n).arrived = (s.lport n).arrived ++ [({ p with hops := p.hops - 1 }, true)] ∧
            { t with links := s.links } = s) ∧
        (∀ m q, 1 ≤ p.hops → s.spanRoute n true { p with hops := p.hops - 1 } = .port m → m ≠ n → 4 ≤ s.lvcFor n m true p →
          q = meshSpan n m { p with hops := p.hops - 1, lvc := s.lvcFor n m true p } →
          ∃ t, exec (.spanHeadWord n ⟨p, 0⟩) s = .next t ∧ t.net = s.net ++ s.entering (if q.reply then q else { q with rtag := s.nextTag }) ∧
            { t with links := s.links, net := s.net, reqs := s.reqs, nextTag := s.nextTag } = s) ∧
        (p.hops = 0 → p.kind = 2 → ∃ t, exec (.spanHeadWord n ⟨p, 0⟩) s = .next t ∧
          t.rd F.lnkCnt2_hopsExpired n = min (s.rd F.lnkCnt2_hopsExpired n + 1) (2 ^ F.lnkCnt2_hopsExpired.w - 1) ∧
          { t with links := s.links, regs := s.regs } = s ∧ s.RegsBut t [(F.lnkCnt2_hopsExpired, n)]))) ∧
    (s.lstate n = 5 →
      (∀ lvc : Fin 16, (s.lport n).owed lvc ≠ 0 →
        ∃ t, exec (.creditResyncTimer n lvc) s = .next t ∧ mget (t.lport n).sent lvc 0 = (mget (s.lport n).sent lvc 0 + 1) % 65536 ∧
          t.outs = .span n { lvc := lvc, kind := 3, srcPanel := s.panelId, sent := mget (s.lport n).sent lvc 0 } :: s.outs ∧
          { t with links := s.links, outs := s.outs } = s) ∧
      (∀ peer, ∃ t, exec (.delayProbe n peer 0) s = .next t ∧ (t.lport n).probe = peer ∧ { t with links := s.links } = s) ∧
      (∀ peer echoed, echoed ≠ 0 → ∃ t, exec (.delayProbe n peer echoed) s = .next t ∧ (t.lport n).probe = peer ∧
        t.rd F.lnkStat_rttNs n = Config.freeNat s.free % 2 ^ F.lnkStat_rttNs.w ∧ { t with links := s.links, regs := s.regs, free := s.free } = s ∧
        s.RegsBut t [(F.lnkStat_rttNs, n)]) ∧
      exec (.delayProbeTimer n) s = .next { s with outs := .control n 3 [s.now, (s.lport n).probe] :: s.outs }) ∧
    (s.lstate n ∈ [4, 5, 6, 7] → s.rd F.fltCfg_healthWarn 0 = 0 →
      (∃ t, exec (.uncorrectableCodeword n none) s = .next t ∧
        t.rd F.lnkCnt_uncorrCw n = min (s.rd F.lnkCnt_uncorrCw n + 1) (2 ^ F.lnkCnt_uncorrCw.w - 1) ∧
        { t with regs := s.regs, faults := s.faults } = s ∧
        s.RegsBut t [(F.lnkCnt_uncorrCw, n), (F.fltHealth_penalty, 640 + n), (F.fltHealth_score, 640 + n)]) ∧
      (∀ p : SpanPkt, p.kind ≠ 0 → ∃ t, exec (.uncorrectableCodeword n (some p)) s = .next t ∧
        t.rd F.lnkCnt2_lost n = min (s.rd F.lnkCnt2_lost n + 1) (2 ^ F.lnkCnt2_lost.w - 1) ∧
        { t with regs := s.regs, faults := s.faults, links := s.links } = s))

/-- EXPORT_START, EXPORT_CHUNK, EXPORT_ANSWER, SPAN_TMO_EXPIRE, LNK_CONTROL_ACCEPT, SPAN_CONTROL_MESSAGE (R380 to R384, R391): an export reads its chunks
and is answered when the last one is; a chunk is written at its array; a control message leaves, or lands in its ring. -/
def Obligations.ExportsAndControlMessages : Prop :=
  ∀ (s : State) (d : Fin 8), s.linkHalted d = false →
    (∀ (p : Packet) (a e mode srcEp epoch slot fmt v : Nat), s.mayMove p = true → s.stopsAt p = none →
      p.body = .channelItem e mode srcEp epoch slot fmt → p.src = .tile a → p.dst = .link d → p.cls = 2 → p.bad = false → v = leNat p.payload →
      (s.links.accepting = true → s.panelId ≠ 4095 →
        ∃ t x, exec (.exportStart d p) s = .next t ∧ mfind t.links.exports s.links.nextXid = some x ∧
          x = { die := d, item := p, array := a, src := bitsAt v 0 32, len := bitsAt v 32 32, dstPanel := bitsAt v 64 12, dstArray := bitsAt v 80 9,
                dstOff := bitsAt v 96 26, ctr := bitsAt v 122 6, ctrEn := v.testBit 128,
                open_ := List.range (chunkCount (bitsAt v 96 26) (bitsAt v 32 32)) } ∧
          t.links.nextXid = (s.links.nextXid + 1) % 2 ^ 32 ∧
          (∀ c < chunkCount (bitsAt v 96 26) (bitsAt v 32 32), ∀ r ∈ chunkReads x c, ∃ n,
            s.entering { body := .readReq r.2.1, dst := .tile a, src := .link d, off := r.1, rtag := n } ⊆ t.net) ∧ t.mesh = s.mesh.drop p ∧
          { t with links := s.links, net := s.net, mesh := s.mesh, reqs := s.reqs, nextTag := s.nextTag } = s) ∧
      ((s.links.accepting = false ∨ s.panelId = 4095) →
        ∃ t, exec (.exportStart d p) s = .next t ∧ s.Answered t p .nack 2 ∧ { t with net := s.net, mesh := s.mesh } = s)) ∧
    (∀ (p : SpanPkt) (b : Bool), (s.lport d).arrived.find? (fun x => x.1 == p) = some (p, b) →
      (p.kind = 0 → ∃ t, exec (.exportChunk d p) s = .next t ∧ (t.lport d).arrived = (s.lport d).arrived.erase (p, b) ∧
        t.net = s.net ++ s.entering { body := .write, span := true, dst := .tile p.dstUnit, src := .link d, off := p.dstOffset, ctr := p.ctr,
                                      ctrEn := p.ctrEn, payload := p.data, rtag := s.nextTag } ∧
        mfind t.links.chunkWait s.nextTag = some p ∧
        { t with links := s.links, net := s.net, reqs := s.reqs, nextTag := s.nextTag } = s) ∧
      (∀ x, p.kind = 1 → mfind s.links.exports p.xid = some x → x.firstFail = 0 →
        (x.open_ = [p.chunk] → p.status = 0 → ∃ t, exec (.exportAnswer d p) s = .next t ∧ mfind t.links.exports p.xid = none ∧
          t.net = s.net ++ (if x.item.noack then [] else s.entering (replyTo x.item (.ack 1 0 0) 0)) ∧ { t with links := s.links, net := s.net } = s) ∧
        (∀ c, x.open_ = [p.chunk, c] → c ≠ p.chunk → ∃ t, exec (.exportAnswer d p) s = .next t ∧
          mfind t.links.exports p.xid = some { x with open_ := [c], firstFail := p.status } ∧ { t with links := s.links } = s)) ∧
      (∀ i, p.kind = 2 → i = d.val * 64 + p.dstUnit % 64 →
        (s.rd F.lnkIn_valid i = 0 → ∃ t, exec (.spanControlMessage d p) s = .next t ∧
          t.rd F.lnkCnt2_unreach d = min (s.rd F.lnkCnt2_unreach d + 1) (2 ^ F.lnkCnt2_unreach.w - 1) ∧
          { t with links := s.links, regs := s.regs } = s ∧ s.RegsBut t [(F.lnkCnt2_unreach, d)]) ∧
        (s.rd F.lnkIn_valid i = 1 → p.data.length ≤ 992 → s.rd F.admSrc_rate (514 + d) ≠ 0 → 6 ≤ s.rd F.admSrc_burst (514 + d) →
          ∃ t q, exec (.spanControlMessage d p) s = .next t ∧ (s.entering q ⊆ t.net ∨ ∃ w ∈ mget t.tc0Wait (514 + d) [], w.2 = q) ∧
            q.body = .setpoint (p.dstUnit % 64) ∧ q.dst = .tile (s.rd F.lnkIn_array i) ∧ q.src = .link d ∧
            q.off = inSlot (s.rd F.lnkIn_ringBase i) (s.rd F.lnkIn_nslots i) (mget s.links.inCount i 0) ∧ q.ctr = s.rd F.lnkIn_ctr i ∧
            q.payload.drop 32 = p.data ∧ mget t.links.inCount i 0 = mget s.links.inCount i 0 + 1 ∧ s.MemSame t))) ∧
    (∀ xid chunk x, mfind s.links.exports xid = some x → x.die = d → x.open_ = [chunk] → chunk ∈ x.sent → x.firstFail = 0 →
      ∃ t, exec (.spanTmoExpire d xid chunk) s = .next t ∧ mfind t.links.exports xid = none ∧
        t.net = s.net ++ (if x.item.noack then [] else s.entering (replyTo x.item .nack 2)) ∧ { t with links := s.links, net := s.net } = s) ∧
    (∀ (p : Packet) (a e j : Nat) (m : SpanPkt), s.mayMove p = true → s.stopsAt p = none → p.body = .setpoint e → p.src = .tile a →
      p.dst = .link d → p.cls = 0 → p.bad = false → s.linkBind a e = some j →
      m = { lvc := 0, kind := 2, hops := 63, dstPanel := s.rd F.lnkBind_dstPanel j, srcPanel := s.panelId, dstUnit := s.rd F.lnkBind_dstEntry j,
            xid := a, data := p.payload } →
      (s.rd F.lnkBind_kind j = 1 → s.rd F.lnkBind_via j = d → s.epRole a e = 1 → p.payload.length ≤ 992 → s.links.accepting = true →
        (s.spanRoute d false m = .hold → ∃ t, exec (.lnkControlAccept d p) s = .next t ∧ (t.lport d).held = (s.lport d).held ++ [(m, false)] ∧
          s.Answered t p (.ack 1 0 0) 0 ∧ { t with links := s.links, net := s.net, mesh := s.mesh } = s) ∧
        (s.spanRoute d false m = .port d → ∃ t q, exec (.lnkControlAccept d p) s = .next t ∧ q.data = p.payload ∧ q.dstPanel = m.dstPanel ∧
          (q ∈ (t.lport d).txq ∨ .span d q ∈ t.outs) ∧ s.Answered t p (.ack 1 0 0) 0 ∧
          { t with links := s.links, net := s.net, mesh := s.mesh, outs := s.outs } = s) ∧
        (s.spanRoute d false m = .drop → ∃ t, exec (.lnkControlAccept d p) s = .next t ∧
          t.rd F.lnkCnt2_unreach d = min (s.rd F.lnkCnt2_unreach d + 1) (2 ^ F.lnkCnt2_unreach.w - 1) ∧ s.Answered t p .nack 2 ∧
          { t with regs := s.regs, net := s.net, mesh := s.mesh } = s ∧ s.RegsBut t [(F.lnkCnt2_unreach, d)])) ∧
      ((s.rd F.lnkBind_kind j ≠ 1 ∨ s.rd F.lnkBind_via j ≠ d ∨ s.epRole a e ≠ 1 ∨ 992 < p.payload.length) →
        ∃ t, exec (.lnkControlAccept d p) s = .next t ∧ s.Answered t p .nack 1 ∧ { t with net := s.net, mesh := s.mesh } = s))

/-! ### Clocks and panel time (R394 to R420) -/

/-- BEACON_BROADCAST, BEACON, BEACON_MISSED_LIMIT, SPINE_TICK_LOSS, SPINE_TICK_RETURN, ISLAND_FREQ_CHANGE_DONE, DROOP_STRETCH, SUSTAINED_DROOP,
CLOCK_HOLD, MARGIN_WINDOW (R396 to R413): what each does to an island's time, mode, counters and caps. -/
def Obligations.IslandsKeepTime : Prop :=
  ∀ s : State,
    (s.time.beaconSent ≠ s.time.marker + 1 → s.inSit = false → s.mnHalted = false → s.rd F.idnState_panelState 0 ≠ 2 →
      ∃ t, exec .beaconBroadcast s = .next t ∧ t.time.beaconSent = s.time.marker + 1 ∧ s.MemSame t ∧
        ∀ q, q = { mnMessage (.beacon (s.time.marker % 2 ^ 32) s.now) with payload := s.beaconBytes } → s.Admits q → s.entering q ⊆ t.net) ∧
    (∀ i : Fin 1230,
      (s.halted i = false →
        (∀ (p : Packet) (marker time : Nat) (m : Rat), s.islandHears p i = true → p.body = .beacon marker time →
          markersSince (s.isl i).lastBeacon marker < 2 ^ 31 →
          s.rd F.clkIsl_holdover i = 0 → m = (time : Rat) + (leNat (p.payload.take 2) : Rat) / 65536 + s.spineDelay i →
          ((s.isl i).latched.find? (fun l => l.1 == marker) = none →
            ∃ t, exec (.beacon i p) s = .next t ∧ t.rd F.clkIsl_missed i = min (s.rd F.clkIsl_missed i + 1) (2 ^ F.clkIsl_missed.w - 1) ∧
              (t.isl i).missedRun = (s.isl i).missedRun + 1 ∧ (t.isl i).lastBeacon = (marker + 1) % 2 ^ 32 ∧ (t.isl i).spineT = m ∧
              { t with regs := s.regs, time := s.time } = s ∧ s.RegsBut t [(F.clkIsl_missed, i)]) ∧
          (∀ k e r, (s.isl i).latched.find? (fun l => l.1 == marker) = some (k, e) →
            r = ({ s.isl i with lastBeacon := (marker + 1) % 2 ^ 32, spineT := m, spinePeriod := leNat ((p.payload.drop 4).take 4) } : Island).correct i
              ((leNat ((p.payload.drop 2).take 1)).testBit 0) m e →
            ∃ t, exec (.beacon i p) s = .next t ∧ (t.isl i).anchorT = r.2.anchorT ∧ (t.isl i).anchorE = r.2.anchorE ∧ (t.isl i).rate = r.2.rate ∧
              (t.isl i).missedRun = 0 ∧ t.rd F.clkIsl_corrErr i = min ((if r.1 < 0 then -r.1 else r.1) * 4).floor.toNat 0xFF ∧
              (s.rd F.clkIsl_mode i = 0 → (t.rd F.clkIsl_mode i = 1 ↔ 20 < (if r.1 < 0 then -r.1 else r.1))) ∧ s.MemSame t)) ∧
        (s.rd F.clkIsl_holdover i = 0 → s.rd F.clkIsl_mode i = 0 →
          8 ≤ (s.isl i).missedRun + markersSince (s.isl i).lastBeacon (s.time.marker + 1) → ∃ t, exec (.beaconMissedLimit i) s = .next t ∧ t.rd F.clkIsl_mode i = 1 ∧
          t.rd F.clkIsl_switches i = min (s.rd F.clkIsl_switches i + 1) (2 ^ F.clkIsl_switches.w - 1) ∧ s.MemSame t) ∧
        (∀ f, islKind i ≠ .fixed → f = s.setFreq i → f ≠ (s.isl i).freqNow i → f ≠ 0 →
          ∃ t, exec (.islandFreqChangeDone i f) s = .next t ∧ (t.isl i).freq = f ∧ { t with time := s.time } = s) ∧
        (s.braked i = false → ∃ t, exec (.droopStretch i 0) s = .next t ∧ (t.isl i).window = 0 ∧ (t.isl i).cc = ((s.isl i).cc + 1) % 2 ^ 48 ∧
          { t with time := s.time } = s) ∧
        (∀ (st : Fin 20) (k : Nat), k = (if s.braked i then 19 else st.val) → k ≠ 0 → ∃ t, exec (.droopStretch i st) s = .next t ∧
          (t.isl i).window = (s.isl i).window + 64 + k ∧ (t.isl i).sc = (s.isl i).sc + k ∧ (t.isl i).cc = ((s.isl i).cc + 1) % 2 ^ 48 ∧
          t.rd F.clkMargin_stretchWin i = (if (s.isl i).window = 0 then min (s.rd F.clkMargin_stretchWin i + 1) (2 ^ F.clkMargin_stretchWin.w - 1)
            else s.rd F.clkMargin_stretchWin i) ∧ { t with regs := s.regs, time := s.time } = s ∧ s.RegsBut t [(F.clkMargin_stretchWin, i)]) ∧
        ((s.isl i).longWin = false → 1000 < ((s.isl i).window : Rat) * unitNs ((s.isl i).freqNow i) → ∃ t, exec (.sustainedDroop i) s = .next t ∧
          (t.isl i).longWin = true ∧
          t.rd F.clkMargin_longWin i = min (s.rd F.clkMargin_longWin i + 1) (2 ^ F.clkMargin_longWin.w - 1) ∧
          (islKind i ≠ .fixed → t.capOf i 0 = some (max (s.setFreq i - 1) (islMin i))) ∧ s.MemSame t) ∧
        (∃ t, exec (.clockHold i) s = .next t ∧ t.rd F.clkIsl_holdCnt i = min (s.rd F.clkIsl_holdCnt i + 1) (2 ^ F.clkIsl_holdCnt.w - 1) ∧
          t.rd F.clkIsl_mode i = 1 ∧ s.MemSame t) ∧
        (∀ (ps : BitVec 10) (sensor : Fin 8),
          (s.rd F.clkMarginCfg_warnPs 0 ≤ ps.toNat → s.rd F.clkMarginCfg_critPs 0 ≤ ps.toNat →
            ∃ t, exec (.marginWindow i ps sensor) s = .next t ∧ t.rd F.clkMargin_minPs i = ps.toNat ∧ t.rd F.clkMargin_minSensor i = sensor ∧
              s.OnlyRegs t [(F.clkMargin_minPs, i), (F.clkMargin_minSensor, i)]) ∧
          (ps.toNat < s.rd F.clkMarginCfg_warnPs 0 → ∃ t, exec (.marginWindow i ps sensor) s = .next t ∧ t.rd F.clkMargin_minPs i = ps.toNat ∧
            t.rd F.clkMargin_warnCnt i = min (s.rd F.clkMargin_warnCnt i + 1) (2 ^ F.clkMargin_warnCnt.w - 1) ∧ s.MemSame t) ∧
          (ps.toNat < s.rd F.clkMarginCfg_critPs 0 → islKind i ≠ .fixed → ∃ t, exec (.marginWindow i ps sensor) s = .next t ∧
            t.capOf i 1 = some (max (s.setFreq i - 1) (islMin i)) ∧ s.MemSame t))) ∧
      (s.rd F.clkIsl_holdover i = 0 → (s.isl i).running = true → ∃ t, exec (.spineTickLoss i) s = .next t ∧ t.rd F.clkIsl_holdover i = 1 ∧
        t.rd F.clkIsl_mode i = 0 ∧ s.Barked t 0x001A { kind := .island, num := i } [] ∧
        { t with regs := s.regs, time := s.time, host := s.host, faults := s.faults } = s) ∧
      (s.rd F.clkIsl_holdover i = 1 → ∃ t, exec (.spineTickReturn i) s = .next t ∧ t.rd F.clkIsl_holdover i = 0 ∧ t.rd F.clkIsl_mode i = 1 ∧
        { t with regs := s.regs, time := s.time } = s))

/-- SPINE_MARKER, REF10M_INVALID, REF10M_RESTORE, PPS_IN_EDGE, PPS_IN_MISSING, PPS_OUT_PULSE, TIME_SOURCE_LOST (R404, R406, R408, R415 to R418): panel
time advances by 250 spine periods or takes its step; the spine's root, the pulses and the time state follow. -/
def Obligations.PanelTimeFollowsTheSpine : Prop :=
  ∀ s : State,
    (∀ latched : NMap Nat,
      (s.time.stepAt = none → s.time.stepBy = none →
        ∃ t, exec (.spineMarker latched) s = .next t ∧ t.time.marker = s.time.marker + 1 ∧
          t.time.ns = (s.time.ns * 2 ^ 28 + s.time.frac + 250 * s.time.period) / 2 ^ 28 % 2 ^ 64 ∧
          t.time.frac = (s.time.ns * 2 ^ 28 + s.time.frac + 250 * s.time.period) % 2 ^ 28 ∧
          { t with time := s.time, regs := s.regs, pins := s.pins, host := s.host, field := s.field } = s ∧ s.RegsBut t [(F.clkStat_timeState, 0)] ∧
          (∀ i e, latched = [(i, e)] → i < 1230 → s.halted i = false → s.rd F.clkIsl_holdover i = 0 →
            (t.isl i).latched = (((s.time.marker + 1) % 2 ^ 32, e) :: (s.isl i).latched).take 4)) ∧
      (∀ m v, s.time.stepAt = some (m, v) → m ≤ s.time.marker + 1 →
        ∃ t, exec (.spineMarker latched) s = .next t ∧ t.time.ns = v % 2 ^ 64 ∧ t.time.stepAt = none ∧ t.time.everSet = true ∧
          t.rd F.clkCmd_set 0 = 0 ∧ s.MemSame t)) ∧
    (s.time.refOk = true → s.rd F.clkCfg_refEn 0 = 1 → s.rd F.clkStat_spineSrc 0 ≠ 1 →
      ∃ t, exec .ref10mInvalid s = .next t ∧ t.time.refOk = false ∧ t.rd F.clkStat_spineSrc 0 = 1 ∧ s.Barked t 0x0018 {} [(24, 1)] ∧
        { t with regs := s.regs, time := s.time, host := s.host, faults := s.faults } = s) ∧
    (s.time.refOk = false → s.rd F.clkCfg_refEn 0 = 1 →
      ∃ t, exec .ref10mRestore s = .next t ∧ t.time.refOk = true ∧ t.rd F.clkStat_spineSrc 0 = 0 ∧ s.Barked t 0x0018 {} [(24, 0)] ∧
        { t with regs := s.regs, time := s.time, host := s.host, faults := s.faults } = s) ∧
    (s.rd F.clkCfg_refEn 0 = 0 → (s.time.refOk = true → exec .ref10mInvalid s = .next { s with time := { s.time with refOk := false } }) ∧
      (s.time.refOk = false → exec .ref10mRestore s = .next { s with time := { s.time with refOk := true } })) ∧
    (s.mnHalted = false →
      (∀ ts v : Nat, s.stampOk 1228 ts = true → v = ((ts : Int) - signed16 (s.rd F.clkCfg_ppsInComp 0)).toNat →
        (s.time.lastPps = none → s.rd F.clkCfg_timeSrc 0 ≠ 2 →
          ∃ t, exec (.ppsInEdge ts) s = .next t ∧ t.rd F.clkPpsInTs_ns 0 = v % 2 ^ 64 ∧ t.rd F.clkStat_ppsInOk 0 = 1 ∧ t.time.lastPps = some v ∧
            { t with regs := s.regs, time := s.time } = s ∧ s.RegsBut t [(F.clkPpsInTs_ns, 0), (F.clkStat_ppsInOk, 0)]) ∧
        (∀ l : Nat, s.time.lastPps = some l → 1000 < (((v : Int) - l) - 1000000000).natAbs →
          ∃ t, exec (.ppsInEdge ts) s = .next t ∧ t.rd F.clkStat_ppsInOk 0 = 0 ∧ t.time.lastPps = some v ∧
            t.rd F.clkStat_timeState 0 = (if s.rd F.clkCfg_timeSrc 0 = 2 ∧ s.rd F.clkStat_timeState 0 = 2 then 3 else s.rd F.clkStat_timeState 0) ∧
            { t with regs := s.regs, time := s.time } = s)) ∧
      ((∀ l, s.time.lastPps = some l → (l : Int) + 2000000000 + signed16 (s.rd F.clkCfg_ppsInComp 0) ≤ s.now + 1000) →
        ∃ t, exec .ppsInMissing s = .next t ∧ t.rd F.clkStat_ppsInOk 0 = 0 ∧ t.time.lastPps = none ∧
        t.rd F.clkStat_timeState 0 = (if s.rd F.clkCfg_timeSrc 0 = 2 ∧ s.rd F.clkStat_timeState 0 = 2 then 3 else s.rd F.clkStat_timeState 0) ∧
        { t with regs := s.regs, time := s.time } = s ∧ s.RegsBut t [(F.clkStat_ppsInOk, 0), (F.clkStat_timeState, 0)])) ∧
    (s.secondDue = true → ((s.rd F.clkCfg_ppsOutEn 0 = 1 ∧ s.rd F.clkStat_timeState 0 = 2) ∨ s.rd F.clkCfg_ppsOutForce 0 = 1) → s.inSit = false →
      exec .ppsOutPulse s = .next { s with pins := { s.pins with ppsOut := true },
                                           time := { s.time with ppsUntil := s.now + s.rd F.clkCfg_ppsOutWidth 0 * 1000000 } }) ∧
    (s.time.master = true →
      ∃ t, exec .timeSourceLost s = .next t ∧ t.time.master = t.ptpElected ∧
        (∀ n ∈ s.ptpPorts, (s.ptpRole n = .slave → (t.fport n).heard = none) ∧ (s.ptpRole n ≠ .slave → (t.fport n).heard = (s.fport n).heard)) ∧
        t.rd F.clkStat_timeState 0 = (if s.rd F.clkCfg_timeSrc 0 = 1 ∧ s.rd F.clkStat_timeState 0 = 2 then 3 else s.rd F.clkStat_timeState 0) ∧
        { t with regs := s.regs, time := s.time, field := s.field } = s ∧ s.RegsBut t [(F.clkStat_timeState, 0)])

/-! ### Power and heat (R34, R514 to R530) -/

/-- CELL_FAIL, POWER_LOOP, PACK_POWER_SAMPLE, BRAKE_ENGAGE, BRAKE_RELEASE, CAP_RAISE, VOLTAGE_LOOP: cells, readings, brakes, caps and rails. -/
def Obligations.PowerStaysWithinLimits : Prop :=
  ∀ s : State,
    (∀ (south : Bool) (c : Fin 16), (s.rd (if south then F.pwrIn_cellsS else F.pwrIn_cellsN) 0).testBit c = false →
      ∃ t, exec (.cellFail south c) s = .next t ∧
        t.rd (if south then F.pwrIn_cellsS else F.pwrIn_cellsN) 0 = s.rd (if south then F.pwrIn_cellsS else F.pwrIn_cellsN) 0 + 2 ^ c.val ∧
        (t.pins.pwrOk = true ↔ s.boot.busesUp = true ∧ t.failedCells 0 < 16 ∧ t.failedCells 1 < 16) ∧
        (t.failedCells (b2n south) < 2 → s.Barked t 0x000D {} [(24, c)]) ∧
        (2 ≤ t.failedCells (b2n south) → t.rd F.pwrStat_cause 0 = 3 + b2n south ∧ (t.rd F.pwrAlert_cond 0).testBit 1 = true) ∧ s.MemSame t) ∧
    (s.mnHalted = false → ∀ (pIn vIn iIn : Nat) (pw : NMap Nat),
      (∃ t, exec (.powerLoop pIn vIn iIn pw) s = .next t ∧ t.rd F.pwrStat_pIn 0 = min pIn 0xFFFF ∧ t.rd F.pwrIn_vIn 0 = min vIn 0xFFFF ∧
        t.rd F.pwrIn_iIn 0 = min iIn 0xFFFF ∧ (∀ p < 64, t.rd F.pwrPackStat_pPack p = min (mget pw p 0) 0xFFFF) ∧
        t.rd F.pwrStat_limitEff 0 = (s.limitEff vIn).1 % 65536 ∧
        t.rd F.pwrStat_cause 0 = (if 2 ≤ s.failedCells 0 then 3 else if 2 ≤ s.failedCells 1 then 4 else (s.limitEff vIn).2) ∧ s.MemSame t) ∧
      (pIn ≤ (s.limitEff vIn).1 → (s.limitEff vIn).1 * 98 ≤ pIn * 100 → s.failedCells 0 < 2 → s.failedCells 1 < 2 →
        ∃ t, exec (.powerLoop pIn vIn iIn pw) s = .next t ∧ t.power.caps = s.power.caps ∧
          ∀ p < 64, t.rd F.pwrPackStat_pcap p = s.rd F.pwrPackStat_pcap p)) ∧
    (∀ (p : Fin 64) (power : Nat), s.halted (hubIsland p) = false → s.packDark p = false →
      ((s.rd F.pwrPack_pCeil p = 0 ∨ power ≤ s.rd F.pwrPack_pCeil p) →
        exec (.packPowerSample p power) s =
          .next { s with power := { s.power with packBrake := s.power.packBrake.filter (fun q => q != p.val) } }) ∧
      (s.rd F.pwrPack_pCeil p ≠ 0 → s.rd F.pwrPack_pCeil p < power →
        (∃ t, exec (.packPowerSample p power) s = .next t ∧ p.val ∈ t.power.packBrake ∧ s.MemSame t) ∧
        (s.packFitted p = true → 12 < s.packFreq p → power - s.rd F.pwrPack_pCeil p ≤ s.saving p →
          ∃ t, exec (.packPowerSample p power) s = .next t ∧ t.rd F.pwrPackStat_pcap p = (s.packFreq p - 1) % 64 ∧ s.MemSame t))) ∧
    (s.rd F.pwrStat_brake 0 = 0 → ∃ t, exec .brakeEngage s = .next t ∧ t.rd F.pwrStat_brake 0 = 1 ∧ t.power.brakeAt = s.now + 1 ∧
      { t with regs := s.regs, power := s.power } = s ∧ s.RegsBut t [(F.pwrStat_brake, 0)]) ∧
    (s.rd F.pwrStat_brake 0 = 1 → ∃ t, exec .brakeRelease s = .next t ∧ t.rd F.pwrStat_brake 0 = 0 ∧ t.power.brakeAt = 0 ∧
      (t.rd F.pwrAlert_cond 0).testBit 6 = false ∧ { t with regs := s.regs, power := s.power, pins := s.pins } = s ∧
      s.RegsBut t [(F.pwrStat_brake, 0), (F.pwrAlert_cond, 0)]) ∧
    (∀ (i : Fin 1230) (loop : Fin 6), s.halted i = false → loop.val ≤ 1 →
      (s.capOf i loop = none → exec (.capRaise i loop) s = .next s) ∧
      (∀ c, s.capOf i loop = some c → ∃ t, exec (.capRaise i loop) s = .next t ∧
        t.capOf i loop = (if s.ceilOf i ≤ c + 1 then none else some (c + 1)) ∧ s.MemSame t)) ∧
    (∀ (p : Fin 64) (ps : Nat), s.packDark p = false → s.inSit = false → s.packFitted p = true →
      ∃ t, exec (.voltageLoop p ps) s = .next t ∧
        t.rd F.pwrPackStat_avSet p = (if 60 < ps then max (s.rd F.pwrPack_avFloor p) (min (s.rd F.pwrPack_avCeil p) (s.rd F.pwrPackStat_avSet p - 1))
          else if ps < 30 then min (s.rd F.pwrPack_avCeil p) (max (s.rd F.pwrPack_avFloor p) (s.rd F.pwrPackStat_avSet p + 1))
          else s.rd F.pwrPackStat_avSet p) ∧ s.OnlyRegs t [(F.pwrPackStat_avSet, p)])

/-- TILE_TEMP_SAMPLE, SENSOR_DISAGREE, SENSOR_AGREE_CLEAR, GUARD_CAP_RAISE, STACK_TEMP_READ, THERMAL_PREDICT, THERMAL_REFIT (R523 to R528): readings are
stored and judged, the guard caps a hot tile, a warm stack loses command slots, every covered tile shows its prediction. -/
def Obligations.TemperaturesAreJudged : Prop :=
  ∀ s : State,
    (∀ (site : Fin 576) (raw : List Int), raw.length = 4 → s.siteFitted site = true → s.packDark (sitePack site) = false →
      (∃ t, exec (.tileTempSample site raw false) s = .next t ∧
        t.rd F.thmRaw_readings site = t16 (raw.getD 0 0) + t16 (raw.getD 1 0) * 2 ^ 16 + t16 (raw.getD 2 0) * 2 ^ 32 + t16 (raw.getD 3 0) * 2 ^ 48 ∧
        s.MemSame t) ∧
      (readingOf raw = none → ∃ t, exec (.tileTempSample site raw false) s = .next t ∧ t.rd F.thmTile_tUsed site = 0x8000 ∧
        t.rd F.thmTile_faultA site = 1 ∧ t.rd F.thmTile_faultB site = 1) ∧
      (∀ v, readingOf raw = some v → ∃ t, exec (.tileTempSample site raw false) s = .next t ∧ t.rd F.thmTile_tUsed site = t16 v ∧
        (((spotOf raw 0).all inRange = false → t.rd F.thmTile_faultA site = 1) ∧ ((spotOf raw 1).all inRange = false → t.rd F.thmTile_faultB site = 1)) ∧
        ((s.rd F.thmCfg_crit 0 * 10 : Nat) ≤ v → s.halted site = false → t.rd F.thmTile_guard site = 1 ∧ t.capOf site 3 = some 12))) ∧
    (∀ (site : Fin 576) (k : Fin 2), (s.lastPair site k).all inRange = true →
      (60 < pairGap (s.lastPair site k) → s.rd (faultFld k) site = 0 → ∃ t, exec (.sensorDisagree site k) s = .next t ∧ t.rd (faultFld k) site = 1 ∧
        s.Barked t 0x0030 { kind := .routerSite, num := site } [(24, site), (26, k), (27, 0), (28, t16 ((s.lastPair site k).getD 0 0)),
          (30, t16 ((s.lastPair site k).getD 1 0))] ∧ { t with regs := s.regs, host := s.host, faults := s.faults } = s ∧
        s.RegsBut t ((faultFld k, site.val) :: lostRecords)) ∧
      (pairGap (s.lastPair site k) ≤ 60 → ∃ t, exec (.sensorAgreeClear site k) s = .next t ∧ t.rd (faultFld k) site = 0 ∧
        s.OnlyRegs t [(faultFld k, site)])) ∧
    (∀ site : Fin 576, s.rd F.thmTile_guard site = 1 → s.halted site = false → s.rd F.thmTile_tUsed site ≠ 0x8000 →
      signed16 (s.rd F.thmTile_tUsed site) + 50 < (s.rd F.thmCfg_crit 0 * 10 : Nat) → ∀ c, s.capOf site 3 = some c →
      (c + 1 < s.ceilOf site → ∃ t, exec (.guardCapRaise site) s = .next t ∧ t.capOf site 3 = some (c + 1) ∧ t.rd F.thmTile_guard site = 1 ∧
        s.MemSame t) ∧
      (s.ceilOf site ≤ c + 1 → ∃ t, exec (.guardCapRaise site) s = .next t ∧ t.capOf site 3 = none ∧ t.rd F.thmTile_guard site = 0 ∧ s.MemSame t)) ∧
    (∀ p : Fin 64, s.halted (hubIsland p) = false → s.packDark p = false → s.packFitted p = true →
      (∃ t, exec (.stackTempRead p none) s = .next t ∧ t.rd F.hubTemp_tvalid p = 0 ∧ { t with regs := s.regs, power := s.power } = s ∧
        s.RegsBut t [(F.hubTemp_tvalid, p)]) ∧
      (∀ v, v < 120 → ∃ t, exec (.stackTempRead p (some v)) s = .next t ∧ t.rd F.hubTemp_degC p = v ∧ t.rd F.hubTemp_tvalid p = 1 ∧
        { t with regs := s.regs, power := s.power } = s ∧ s.RegsBut t [(F.hubTemp_degC, p), (F.hubTemp_tvalid, p), (F.thmHub_rateSteps, p)] ∧
        (s.rd F.thmCfg_stackTarget 0 < v → mget t.power.caps (hubIsland p * 8 + 6) 0 = min (mget s.power.caps (hubIsland p * 8 + 6) 0 + 1) 7))) ∧
    (s.rd F.thmCfg_modelEn 0 = 1 → s.mnHalted = false → s.inSit = false → ∀ tp hp : NMap Nat,
      ∃ t, exec (.thermalPredict tp hp) s = .next t ∧
        (∀ x ∈ s.modelTiles, t.rd F.thmTile_tPred x = t16 (nearest (s.tilePred tp x (s.setFreq x)))) ∧ s.MemSame t) ∧
    (∀ site : Fin 576, s.mnHalted = false → s.inSit = false → s.siteFitted site = true →
      ∃ t m, exec (.thermalRefit site) s = .next t ∧ mfind t.power.therm site = some m ∧ 1 / 10 ≤ m.rs ∧ m.rs ≤ 4 ∧ 0 ≤ m.rn ∧ m.rn ≤ 1 / 2 ∧
        5 ≤ m.tau ∧ m.tau ≤ 100 ∧ { t with power := s.power, free := s.free } = s)

/-! ### Sit and read-out (R479, R537 to R549) -/

/-- SIT_PIN_LOW, SIT_PIN_HIGH, MON_SIT_RAISE, MON_SIT_RESUME, TAP_SIT_ALL, TAP_RESUME, SIT_WORD, SIT_PACKET, ISLAND_SAFE_STOP,
SIT_RESUME: sit is raised by the pin, the latch or a span's word, ends when nothing holds it, stops the islands that have been told, and
starts them again. READOUT_GO, READOUT_ABORT, READOUT_STREAM_END (R546): a stream starts only in freeze-fabric; it ends with its status
and a record; a stream without units is its last record alone. -/
def Obligations.SitAndReadOut : Prop :=
  (∀ s : State,
    (s.rd F.monSitStat_state 0 = 0 →
      (s.sit.pinLow = false → ∃ t, exec .sitPinLow s = .next t ∧ t.sit.pinLow = true ∧ t.rd F.monSitStat_pin 0 = 1 ∧
        s.SitRaised t 0 (s.rd F.monSitCfg_pinAll 0 == 1)) ∧
      (∀ (port : Fin 2) (all : Bool), s.Open port .mon → ∃ t, exec (.monSitRaise port all false) s = .next t ∧ t.sit.latch = true ∧
        t.rd F.monSitStat_latch 0 = 1 ∧ s.SitRaised t (1 + port) all) ∧
      (∀ (port : Fin 2) (all : Bool), s.Open port .mon → s.panelId ≠ 4095 → s.rd F.monSitCfg_spanOut 0 = 1 →
        ∃ t, exec (.monSitRaise port all true) s = .next t ∧ t.sit.latch = true ∧ s.SitRaised t (1 + port) all ∧
          ∀ m < 8, s.lup m = true → .sitWord m { op := 0, all := all, origin := s.panelId, sitId := s.links.spanSits + 1, tOrigin := s.now } ∈ t.outs) ∧
      (s.tapUp = true → ∃ t, exec (.tapSitAll true) s = .next t ∧ t.sit.latch = true ∧ s.SitRaised t 4 true) ∧
      (∀ (n : Fin 8) (w : SitWord), s.lup n = true → w.op = 0 → (mget s.links.sitKeys n []).contains (w.origin, w.sitId, 0) = false →
        s.rd F.monSitCfg_spanInEn 0 = 1 → s.sit.latch = false →
        ∃ t, exec (.sitWord n w) s = .next t ∧ t.sit.latch = true ∧ t.sit.bySpan = true ∧ t.sit.spanOrigin = w.origin ∧ t.sit.spanId = w.sitId ∧
          (w.origin, w.sitId, 0) ∈ mget t.links.sitKeys n [] ∧ s.SitRaised t 5 w.all)) ∧
    exec (.tapSitAll false) s = .next s ∧
    (∀ bits : BitVec 2, bits.getLsbD 0 = false → exec (.tapResume bits) s = .next s) ∧
    (s.rd F.monSitStat_state 0 ≠ 0 →
      (s.sit.pinLow = true → ∃ t, exec .sitPinHigh s = .next t ∧ t.sit.pinLow = false ∧ t.rd F.monSitStat_pin 0 = 0 ∧
        t.rd F.monSitStat_state 0 = (if s.sit.latch then s.rd F.monSitStat_state 0 else 3) ∧ { t with regs := s.regs, sit := s.sit } = s ∧
        s.RegsBut t [(F.monSitStat_pin, 0), (F.monSitStat_state, 0)]) ∧
      (∀ c, ((∃ port : Fin 2, s.Open port .mon ∧ c = .monSitResume port false) ∨ (s.tapUp = true ∧ c = .tapResume 1)) →
        ∃ t, exec c s = .next t ∧ t.sit.latch = false ∧ t.rd F.monSitStat_latch 0 = 0 ∧
          t.rd F.monSitStat_state 0 = (if s.sit.pinLow then s.rd F.monSitStat_state 0 else 3) ∧ { t with regs := s.regs, sit := s.sit } = s ∧
          s.RegsBut t [(F.monSitStat_latch, 0), (F.monSitStat_state, 0)]) ∧
      (∀ (n : Fin 8) (w : SitWord), s.lup n = true → w.op = 1 → (mget s.links.sitKeys n []).contains (w.origin, w.sitId, 1) = false →
        s.rd F.monSitCfg_spanInEn 0 = 1 → s.sit.latch = true → s.sit.bySpan = true → s.sit.spanOrigin = w.origin → s.sit.spanId = w.sitId →
        s.sit.pinLow = false → ∃ t, exec (.sitWord n w) s = .next t ∧ t.sit.latch = false ∧ t.rd F.monSitStat_state 0 = 3 ∧ s.MemSame t)) ∧
    (∀ (i : Fin 1230) (p : Packet) (all : Bool), p.body = .sit all → s.islandHears p i = true → s.halted i = false → s.sit.told.contains i.val = false →
      exec (.sitPacket i p) s = .next { s with sit := { s.sit with told := s.sit.told ++ [i.val] } }) ∧
    (∀ i : Fin 1230, s.halted i = false →
      (s.rd F.monSitStat_state 0 = 1 → stopsLast i = false → s.sit.told.contains i.val = true →
        ∃ t, exec (.islandSafeStop i) s = .next t ∧ t.sit.stopped = s.sit.stopped ++ [i.val] ∧ t.halted i = true ∧
          t.rd F.monSitStat_state 0 = (if (List.range 1230).all (fun j =>
            stopsLast j || t.halted j || !(islandSites j).any (s.reaches (mgmtHome 0))) then 2 else 1) ∧
          { t with regs := s.regs, sit := s.sit } = s ∧ s.RegsBut t [(F.monSitStat_state, 0)]) ∧
      (s.rd F.monSitStat_state 0 = 2 → s.sit.all = true → stopsLast i = true →
        ∃ t, exec (.islandSafeStop i) s = .next t ∧ t.halted i = true ∧ (∀ port < 2, i.val = 1226 + port → (t.hport port).linkUp = false) ∧
          (i.val = 1228 → t.pins.ppsOut = false) ∧ { t with sit := s.sit, host := s.host, pins := s.pins } = s) ∧
      (s.rd F.monSitStat_state 0 = 0 → s.rd F.prtHalf_state 0 = 1 → southIslands.contains i.val = true →
        ∃ t, exec (.islandSafeStop i) s = .next t ∧ (t.isl i).running = false ∧ t.boot.halfStopped = s.boot.halfStopped ++ [i.val] ∧
          (southIslands.all t.halted = true → t.rd F.prtHalf_state 0 = 2) ∧ s.MemSame t)) ∧
    (s.rd F.monSitStat_state 0 = 3 → s.boot.deferred = [] → (∀ i ∈ s.sit.stopped, i < 1230) → (∀ f ∈ s.host.descrs, f.port < 2 ∧ f.sq < 256) →
      ∃ t, exec .sitResume s = .next t ∧ t.rd F.monSitStat_state 0 = 0 ∧ t.sit.stopped = [] ∧ t.sit.told = [] ∧
        (∀ p ∈ t.net, ∀ all, p.body ≠ .sit all) ∧ (∀ i < 1230, i ∈ s.sit.stopped → t.rd F.clkIsl_mode i = 1) ∧ s.MemSame t)) ∧
  (∀ (s : State),
    (∀ port : Fin 2, s.Open port .mon →
      (s.mon.ro.running = false → s.freezeFabric = false → ∃ t, exec (.readoutGo port) s = .next t ∧ t.rd F.monRoStat_status 0 = 5 ∧
        s.OnlyRegs t [(F.monRoStat_status, 0)]) ∧
      (s.mon.ro.running = false → s.freezeFabric = true → ∃ t, exec (.readoutGo port) s = .next t ∧ t.rd F.monRoStat_status 0 = 1 ∧
        t.rd F.monRoCmd_go 0 = 1 ∧ t.mon.ro = { running := true, port := s.rd F.monRoCmd_port 0,
                                                next := if s.rd F.monRoStat_status 0 = 3 then s.mon.ro.next else 0 } ∧
        (s.rd F.monRoStat_status 0 ≠ 3 → t.rd F.monRoStat_lines 0 = 0) ∧ { t with regs := s.regs, mon := s.mon } = s) ∧
      (s.mon.ro.running = true → exec (.readoutGo port) s = .next s ∧
        ∃ t, exec (.readoutAbort port) s = .next t ∧ t.rd F.monRoCmd_abort 0 = 1 ∧ s.OnlyRegs t [(F.monRoCmd_abort, 0)]) ∧
      (s.mon.ro.running = false → exec (.readoutAbort port) s = .next s)) ∧
    (s.mon.ro.running = true → s.freezeFabric = true →
      (∃ t r, exec .readoutStreamEnd s = .next t ∧ t.mon.ro.running = false ∧ t.rd F.monRoCmd_go 0 = 0 ∧ t.rd F.monRoCmd_abort 0 = 0 ∧
        t.faults.barkLog.head? = some r ∧ r.code = 0x0042 ∧ s.MemSame t ∧
        (s.portUp s.mon.ro.port = false → t.rd F.monRoStat_status 0 = 6) ∧
        (s.portUp s.mon.ro.port = true → s.rd F.monRoCmd_abort 0 = 0 → t.rd F.monRoStat_status 0 = 2 ∨ t.rd F.monRoStat_status 0 = 3)) ∧
      (s.portUp s.mon.ro.port = true → s.rd F.monRoCmd_abort 0 = 0 → s.roRecords = [] → 1 ≤ s.rd F.monRoLen_pages 0 →
        ∃ t b, exec .readoutStreamEnd s = .next t ∧ t.rd F.monRoStat_status 0 = 2 ∧
          t.outs = .hostWrite s.mon.ro.port (s.rd F.monRoBase_addr 0) b :: s.outs ∧ b.length = 64 ∧
          b.take 8 = [0x50, 0x5A, 0x52, 0x4F, 1, 0xFF, 0, 0])))

/-! ### The test access port and the monitor (R550 to R554) -/

/-- TAP_IDCODE, TAP_RESET, TAP_RO_ADDR, TAP_RO_DATA, SWK_UNKNOWN_COMMAND, SWK_BAUD_SWITCH, SWK_BAUD_REVERT, SWK_PRIVILEGE_TIMEOUT, SWK_AUTH_UNBLOCK, and the
commands that need no privilege: what each answers and changes. -/
def Obligations.MonitorAnswers : Prop :=
  ∀ s : State,
    (s.tapUp = true →
      (∃ t, exec .tapIdcode s = .next t ∧ t.mon.tdo % 2 = 1 ∧ t.mon.tdo / 2 ^ 12 % 2 ^ 16 ∈ [0x7200, 0x7212, 0x7216] ∧ { t with mon := s.mon } = s) ∧
      (s.CanResetAtOnce → ∃ t, exec (.tapReset 0xA5) s = .next t ∧ s.PanelReset t 4) ∧
      (∀ key : BitVec 8, key ≠ 0xA5 → exec (.tapReset key) s = .next s) ∧
      (∀ x : BitVec 64, exec (.tapRoAddr x) s = .next { s with mon := { s.mon with tapAddr := x } }) ∧
      (s.inSit = false → ∃ t, exec .tapRoData s = .next t ∧ t.mon.tdo = 0 ∧
        t.mon.tapAddr.toNat / 2 ^ 24 = (s.mon.tapAddr.toNat / 2 ^ 24 + 1) % 2 ^ 40 ∧ t.mon.tapAddr.toNat % 2 ^ 24 = s.mon.tapAddr.toNat % 2 ^ 24 ∧
        { t with mon := s.mon } = s)) ∧
    (exec .swkPrivilegeTimeout s = .next { s with mon := { s.mon with privileged := false } }) ∧
    (exec .swkAuthUnblock s = .next { s with mon := { s.mon with authFails := 0, authBlocked := false } }) ∧
    (s.swkUp = true →
      (exec .swkUnknownCommand s = .next { s with outs := .reply [("err", [1])] :: s.outs }) ∧
      (∀ r, s.mon.newBaud = some r → exec .swkBaudSwitch s = .next { s with mon := { s.mon with baud := r, newBaud := none, baudTrial := true } }) ∧
      (s.mon.baudTrial = true → exec .swkBaudRevert s = .next { s with mon := { s.mon with baud := 115200, baudTrial := false } }) ∧
      (s.mon.baudTrial = false → exec .swkBaudRevert s = .next s) ∧
      (∃ t, exec .swkHelp s = .next t ∧
        s.Replied t (("ok", []) :: (romCommands ++ if s.swkFw then fwCommands else []).map (fun c => (c, [])))) ∧
      (∀ r, s.boot.record = some r → ∃ t, exec .swkId s = .next t ∧ s.Replied t [("ok", [s.rd F.idnSerial_serial 0, s.rd F.idnPart_variant 0,
        s.rd F.idnPart_stepping 0, s.rd F.idnVer_recSeq 0, s.rd F.idnVer_fwVersion 0, s.rd F.idnState_panelState 0, s.rd F.idnState_phase 0])]) ∧
      (∃ t, exec .swkStage s = .next t ∧ s.Replied t (("ok", []) :: (List.range 28).map (fun u => ("stage", [u, s.rdReg .idnStage u])))) ∧
      (∀ n, ∃ t, exec (.swkLog n) s = .next t ∧ s.Replied t (("ok", []) ::
        (s.faults.barkLog.take (n.getD 16)).reverse.map (fun r => ("log", [r.seq, r.time, r.code, unitNum r.unit, r.count])))) ∧
      (∀ rate, (rate ∈ baudRates → ∃ t, exec (.swkBaud rate) s = .next t ∧ t.mon = { s.mon with baudTrial := false, newBaud := some rate } ∧
          t.outs = .reply [("ok", [])] :: s.outs ∧ { t with mon := s.mon, outs := s.outs } = s) ∧
        (rate ∉ baudRates → ∃ t, exec (.swkBaud rate) s = .next t ∧ s.Replied t [("err", [2])])) ∧
      (∃ t, exec .swkChal s = .next t ∧ t.outs = .reply [("ok", [(Config.challenge s.mon.chalCount).toNat])] :: s.outs ∧
        t.mon = { s.mon with baudTrial := false, chal := some (Config.challenge s.mon.chalCount), chalCount := s.mon.chalCount + 1,
                             chalAt := s.time.marker } ∧ { t with mon := s.mon, outs := s.outs } = s) ∧
      (∃ t, exec .swkLogout s = .next t ∧ t.mon = { s.mon with baudTrial := false, privileged := false } ∧
        t.outs = .reply [("ok", [])] :: s.outs ∧ { t with mon := s.mon, outs := s.outs } = s) ∧
      (∀ (r g : List Byte) (q : Option (List Byte)),
        (s.mon.authBlocked = true → ∃ t, exec (.swkAuth r g q) s = .next t ∧ s.Replied t [("err", [6])]) ∧
        (s.mon.authBlocked = false → r.length = 66 → g.length = 66 → (s.swkFw = true ∨ q ≠ none) →
          (s.authOk (r ++ g) q = true → ∃ t, exec (.swkAuth r g q) s = .next t ∧
            t.mon = { s.mon with baudTrial := false, chal := none, privileged := true, authFails := 0 } ∧ t.outs = .reply [("ok", [])] :: s.outs ∧
            { t with mon := s.mon, outs := s.outs } = s) ∧
          (s.authOk (r ++ g) q = false → ∃ t, exec (.swkAuth r g q) s = .next t ∧ t.mon.privileged = s.mon.privileged ∧ t.mon.chal = none ∧
            t.mon.authFails = s.mon.authFails + 1 ∧ (t.mon.authBlocked = true ↔ 3 ≤ s.mon.authFails + 1) ∧
            t.outs = .reply [("err", [5])] :: s.outs ∧ { t with mon := s.mon, outs := s.outs } = s))) ∧
      (s.swkFw = false → ∀ c ∈ [Instr.swkTime, .swkSit false false, .swkResume false, .swkClrfail 0],
        ∃ t, exec c s = .next t ∧ s.Replied t [("err", [4])]) ∧
      (s.swkFw = true →
        (∃ t, exec .swkTime s = .next t ∧ s.Replied t [("ok", [s.now, s.rd F.clkStat_timeState 0])]) ∧
        (∀ (off : BitVec 26) (width : Nat), width ≠ 4 → width ≠ 8 → ∃ t, exec (.swkRd off width) s = .next t ∧ s.Replied t [("err", [2])]) ∧
        (∀ (off : BitVec 26) (r : Reg) (i : Nat), s.monShut off.toNat = false → regAt 0 off.toNat = some (r, i, 0) → r ≠ .clkTime →
          s.windowShut off.toNat = false → inMsix off.toNat = false → inPba off.toNat = false →
          s.accessOk 0 off.toNat (regPlace r).bytes = true →
          ∃ t, exec (.swkRd off (regPlace r).bytes) s = .next t ∧
            s.Replied t [("ok", [if (regPlace r).bytes = 4 then s.rdReg r i % 2 ^ 32 else s.rdReg r i])]) ∧
        (s.rd F.monSitStat_state 0 = 0 → ∀ all, ∃ t, exec (.swkSit all false) s = .next t ∧ t.sit.latch = true ∧ s.SitRaised t 3 all ∧
          t.outs.head? = some (.reply [("ok", [t.rd F.monSitStat_sitId 0])])) ∧
        (s.rd F.monSitStat_state 0 ≠ 0 → s.sit.pinLow = false → ∃ t, exec (.swkResume false) s = .next t ∧ t.sit.latch = false ∧
          t.rd F.monSitStat_state 0 = 3 ∧ t.outs = .reply [("ok", [])] :: s.outs ∧ s.MemSame t)))

/-- SWK_WR, SWK_RO, SWK_RESET_ARRAY, SWK_RESET_PACK, SWK_RESET_PANEL, SWK_CLRFAIL, SWK_RECLOAD (R552, R553): refused without privilege, carried out with
it. -/
def Obligations.MonitorPrivilege : Prop :=
  ∀ s : State, s.swkUp = true → s.swkFw = true →
    (s.mon.privileged = false → ∀ (off : BitVec 26) (v : BitVec 64) (w k n sp o len a : Nat) (r : ConfigRecord),
      ∀ c ∈ [Instr.swkWr off v w, .swkRo k n sp o len, .swkResetArray a, .swkResetPack a, .swkResetPanel, .swkClrfail a, .swkRecload len r],
        ∃ t, exec c s = .next t ∧ s.Replied t [("err", [3])]) ∧
    (s.mon.privileged = true →
      (∀ (off : BitVec 26) (v : BitVec 64) (r : Reg) (i : Nat), s.monShut off.toNat = false → regAt 0 off.toNat = some (r, i, 0) → Plain r →
        isBase r = false → Legal r v.toNat → s.windowShut off.toNat = false → inMsix off.toNat = false →
        s.accessOk 0 off.toNat (regPlace r).bytes = true →
        ∃ t, exec (.swkWr off v (regPlace r).bytes) s = .next t ∧ t.Holds r i v.toNat ∧ t.outs = .reply [("ok", [])] :: s.outs ∧
          { t with regs := s.regs, mon := s.mon, outs := s.outs } = s ∧ s.RegsBut t (fieldsOf r i)) ∧
      (∀ kind n space off len b, s.freezeFabric = true → kind ≤ 8 → n < 4096 → len ≤ 4096 →
        (s.roSlice { numUnit (kind * 4096) with num := n } space off len).map (·.1) = some b →
        ∃ t, exec (.swkRo kind n space off len) s = .next t ∧ t.outs = .reply (("ok", []) :: dump off b) :: s.outs ∧
          { t with mon := s.mon, outs := s.outs, free := s.free } = s) ∧
      (s.freezeFabric = false → ∀ kind n space off len, ∃ t, exec (.swkRo kind n space off len) s = .next t ∧ s.Replied t [("err", [4])]) ∧
      (∀ a < 512,
        (∀ st, s.resetScope 0 a = .inl st → ∃ t, exec (.swkResetArray a) s = .next t ∧ s.Replied t [("ok", [st])]) ∧
        (s.resetScope 0 a = .inr ([a], []) → (s.inSit = true ∨ s.resetHeld [a] [] = true) →
          ∃ t, exec (.swkResetArray a) s = .next t ∧ t.boot.deferred = s.boot.deferred ++ [{ level := 10, num := a, arrays := [a] }] ∧
            { t with boot := s.boot, mon := s.mon } = s) ∧
        (s.resetScope 0 a = .inr ([a], []) → s.inSit = false → s.resetHeld [a] [] = false → s.boot.resets = [] →
          ∃ t, exec (.swkResetArray a) s = .next t ∧ t.inReset a = true)) ∧
      (∀ p < 64,
        (∀ st, s.resetScope 1 p = .inl st → ∃ t, exec (.swkResetPack p) s = .next t ∧ s.Replied t [("ok", [st])]) ∧
        (∀ as, s.resetScope 1 p = .inr (as, [p]) → s.inSit = false → s.resetHeld as [p] = false → s.boot.resets = [] →
          ∃ t, exec (.swkResetPack p) s = .next t ∧ t.packInReset p = true) ∧
        (∃ t, exec (.swkClrfail p) s = .next t ∧ t.rd F.fltReserve_failedSites p = 0 ∧ mfind t.faults.failedFlash p = none ∧
          t.outs = .reply [("ok", [])] :: s.outs ∧ { t with regs := s.regs, faults := s.faults, mon := s.mon, outs := s.outs } = s ∧
          s.RegsBut t [(F.fltReserve_failedSites, p)])) ∧
      (s.CanResetAtOnce → ∃ t, exec .swkResetPanel s = .next t ∧ s.PanelReset t 4) ∧
      (∀ r : ConfigRecord, ∀ len, (recordBytes r).length = len → len ≤ 1048576 →
        (s.recordValid (parseRecord false (recordBytes r)) = true →
          ∃ t, exec (.swkRecload len r) s = .next t ∧
            (t.boot.recA = some (parseRecord false (recordBytes r)) ∨ t.boot.recB = some (parseRecord false (recordBytes r))) ∧
            t.outs = .reply [("ok", [(parseRecord false (recordBytes r)).recSeq])] :: s.outs ∧
            { t with boot := s.boot, mon := s.mon, outs := s.outs } = s) ∧
        (s.recordValid (parseRecord false (recordBytes r)) = false → ∃ t, exec (.swkRecload len r) s = .next t ∧ s.Replied t [("err", [2])])))
end

