-- ==== Sys2Proof/Laws/Maps.lean ====
section
/-! SUPPORT. Laws of the sparse stores: what reads as what after a write, and that writing keeps the canonical form. -/

namespace Sys2Proof.Machine

variable {α : Type}

@[simp] theorem mfind_nil (k : Nat) : mfind ([] : NMap α) k = none := rfl

theorem mfind_mset_self (m : NMap α) (k : Nat) (v : α) : mfind (mset m k v) k = some v := by
  induction m with
  | nil => simp [mset, mfind]
  | cons p t ih =>
    obtain ⟨a, w⟩ := p
    simp only [mset]
    split_ifs with h1 h2
    · simp [mfind]
    · simp [mfind]
    · simp [mfind, Ne.symm h2, ih]

theorem mfind_mset_ne (m : NMap α) {k j : Nat} (v : α) (h : j ≠ k) : mfind (mset m k v) j = mfind m j := by
  induction m with
  | nil => simp [mset, mfind, Ne.symm h]
  | cons p t ih =>
    obtain ⟨a, w⟩ := p
    simp only [mset]
    split_ifs with h1 h2
    · simp [mfind, Ne.symm h]
    · subst h2; simp [mfind, Ne.symm h]
    · simp only [mfind, ih]

theorem mfind_filter_of_true (m : NMap α) (p : Nat × α → Bool) {k : Nat} (h : ∀ v, p (k, v) = true) :
    mfind (m.filter p) k = mfind m k := by
  induction m with
  | nil => rfl
  | cons q t ih =>
    obtain ⟨a, w⟩ := q
    by_cases hp : p (a, w) = true
    · simp [hp, mfind, ih]
    · have ha : a ≠ k := by rintro rfl; exact hp (h w)
      simp [hp, mfind, ha, ih]

theorem mfind_filter_of_false (m : NMap α) (p : Nat × α → Bool) {k : Nat} (h : ∀ v, p (k, v) = false) : mfind (m.filter p) k = none := by
  induction m with
  | nil => rfl
  | cons q t ih =>
    obtain ⟨a, w⟩ := q
    by_cases hp : p (a, w) = true
    · have ha : a ≠ k := by rintro rfl; simp [h w] at hp
      simp [hp, mfind, ha, ih]
    · simp [hp, ih]

theorem mfind_mdel_self (m : NMap α) (k : Nat) : mfind (mdel m k) k = none :=
  mfind_filter_of_false m _ (by simp)

theorem mfind_mdel_ne (m : NMap α) {k j : Nat} (h : j ≠ k) : mfind (mdel m k) j = mfind m j :=
  mfind_filter_of_true m _ (by simp [h])

@[simp] theorem mget_mset_self (m : NMap α) (k : Nat) (v d : α) : mget (mset m k v) k d = v := by
  simp [mget, mfind_mset_self]

theorem mget_mset_ne (m : NMap α) {k j : Nat} (v d : α) (h : j ≠ k) : mget (mset m k v) j d = mget m j d := by
  simp [mget, mfind_mset_ne m v h]

@[simp] theorem mget_mput_self [DecidableEq α] (m : NMap α) (k : Nat) (d v : α) : mget (mput m k d v) k d = v := by
  unfold mput
  split_ifs with h
  · simp [mget, mfind_mdel_self, h]
  · simp

theorem mget_mput_ne [DecidableEq α] (m : NMap α) {k j : Nat} (d v e : α) (h : j ≠ k) : mget (mput m k d v) j e = mget m j e := by
  unfold mput
  split_ifs
  · simp [mget, mfind_mdel_ne m h]
  · exact mget_mset_ne m v e h

/-! ### The canonical form -/

theorem mrising_iff (m : NMap α) : mrising m = true ↔ (m.map Prod.fst).Pairwise (· < ·) := by
  induction m with
  | nil => simp [mrising]
  | cons p t ih =>
    cases t with
    | nil => simp [mrising]
    | cons q t =>
      obtain ⟨a, v⟩ := p
      obtain ⟨b, w⟩ := q
      simp only [mrising, Bool.and_eq_true, decide_eq_true_eq, ih, List.map_cons, List.pairwise_cons, List.mem_cons, List.mem_map]
      constructor
      · rintro ⟨h1, h2, h3⟩
        exact ⟨fun c hc => hc.elim (fun h => h ▸ h1) (fun h => h1.trans (h2 c h)), h2, h3⟩
      · rintro ⟨h1, h2, h3⟩
        exact ⟨h1 b (.inl rfl), h2, h3⟩

theorem mrising_filter (m : NMap α) (p : Nat × α → Bool) (h : mrising m = true) : mrising (m.filter p) = true := by
  rw [mrising_iff] at *
  exact h.sublist (List.filter_sublist.map _)

theorem mset_keys (m : NMap α) (k : Nat) (v : α) : ∀ j, j ∈ (mset m k v).map Prod.fst → j = k ∨ j ∈ m.map Prod.fst := by
  induction m with
  | nil => simp [mset]
  | cons p t ih =>
    obtain ⟨a, w⟩ := p
    intro j
    simp only [mset]
    split_ifs with h1 h2
    · simp
    · subst h2; simp
    · simp only [List.map_cons, List.mem_cons]
      rintro (rfl | hj)
      · exact .inr (.inl rfl)
      · exact (ih j hj).elim .inl (fun h => .inr (.inr h))

theorem mrising_mset (m : NMap α) (k : Nat) (v : α) (h : mrising m = true) : mrising (mset m k v) = true := by
  rw [mrising_iff] at *
  induction m with
  | nil => simp [mset]
  | cons p t ih =>
    obtain ⟨a, w⟩ := p
    rw [List.map_cons, List.pairwise_cons] at h
    simp only [mset]
    split_ifs with h1 h2
    · simp only [List.map_cons, List.pairwise_cons, List.mem_cons]
      exact ⟨fun j hj => hj.elim (fun e => e ▸ h1) (fun e => h1.trans (h.1 j e)), h.1, h.2⟩
    · subst h2; simpa using h
    · simp only [List.map_cons, List.pairwise_cons]
      refine ⟨fun j hj => ?_, ih h.2⟩
      rcases mset_keys t k v j hj with rfl | hj
      · omega
      · exact h.1 j hj

/-! ### Bytes -/

namespace Memory

theorem wf_iff (m : List Host.Cell) : Memory.wf m = true ↔ mrising m = true ∧ ∀ p ∈ m, p.2 ≠ 0 := by
  simp [Memory.wf]

theorem wf_filter (m : List Host.Cell) (p : Host.Cell → Bool) (h : Memory.wf m = true) : Memory.wf (m.filter p) = true := by
  rw [wf_iff] at *
  exact ⟨mrising_filter m p h.1, fun q hq => h.2 q (List.mem_filter.mp hq).1⟩

theorem mset_values (m : List Host.Cell) (a : Nat) (b : BitVec 8) : ∀ q ∈ mset m a b, q.2 = b ∨ q ∈ m := by
  induction m with
  | nil => simp [mset]
  | cons p t ih =>
    obtain ⟨c, w⟩ := p
    intro q
    simp only [mset]
    split_ifs with h1 h2
    · simp only [List.mem_cons]
      rintro (rfl | h)
      · exact .inl rfl
      · exact .inr h
    · simp only [List.mem_cons]
      rintro (rfl | h)
      · exact .inl rfl
      · exact .inr (.inr h)
    · simp only [List.mem_cons]
      rintro (rfl | h)
      · exact .inr (.inl rfl)
      · exact (ih q h).elim .inl (fun h => .inr (.inr h))

theorem wf_write (m : List Host.Cell) (a : Nat) (b : Byte) (h : Memory.wf m = true) : Memory.wf (Memory.write m a b) = true := by
  unfold Memory.write mput
  split_ifs with hb
  · exact wf_filter m _ h
  · rw [wf_iff] at *
    refine ⟨mrising_mset m a b h.1, fun q hq => ?_⟩
    rcases mset_values m a b q hq with e | hq
    · rw [e]; exact hb
    · exact h.2 q hq

theorem wf_writeBytes (key : Nat → Nat) (l : List Byte) : ∀ (m : List Host.Cell) (a : Nat), Memory.wf m = true →
    Memory.wf (Memory.writeBytes m key a l) = true := by
  induction l with
  | nil => exact fun m a h => h
  | cons b t ih => exact fun m a h => ih _ _ (wf_write m (key a) b h)

@[simp] theorem read_write_self (m : List Host.Cell) (a : Nat) (b : Byte) : Memory.read (Memory.write m a b) a = b :=
  mget_mput_self m a 0 b

theorem read_write_ne (m : List Host.Cell) {a c : Nat} (b : Byte) (h : c ≠ a) : Memory.read (Memory.write m a b) c = Memory.read m c :=
  mget_mput_ne m 0 b 0 h

/-- A write of consecutive bytes leaves every byte that is stored elsewhere. -/
theorem read_writeBytes_out (key : Nat → Nat) (l : List Byte) : ∀ (m : List Host.Cell) (a : Nat) {c : Nat}, (∀ j < l.length, key (a + j) ≠ c) →
    Memory.read (Memory.writeBytes m key a l) c = Memory.read m c := by
  induction l with
  | nil => exact fun m a c h => rfl
  | cons b t ih =>
    intro m a c h
    have hc : c ≠ key a := (h 0 (by simp)).symm
    rw [Memory.writeBytes, ih _ _ (fun j hj => ?_), read_write_ne m b hc]
    have := h (j + 1) (by simpa using hj)
    rwa [show a + (j + 1) = a + 1 + j by omega] at this

/-- And puts its bytes in order where its addresses are stored. -/
theorem read_writeBytes_in (key : Nat → Nat) (l : List Byte) : ∀ (m : List Host.Cell) (a j : Nat) (h : j < l.length)
    (_ : ∀ i < l.length, i ≠ j → key (a + i) ≠ key (a + j)), Memory.read (Memory.writeBytes m key a l) (key (a + j)) = l[j] := by
  induction l with
  | nil => intro m a j h; simp at h
  | cons b t ih =>
    intro m a j h hk
    cases j with
    | zero =>
      rw [Memory.writeBytes, read_writeBytes_out key t _ _ (fun i hi => ?_)]
      · simp
      · have := hk (i + 1) (by simpa using hi) (by omega)
        rwa [show a + (i + 1) = a + 1 + i by omega] at this
    | succ j =>
      rw [Memory.writeBytes, show a + (j + 1) = a + 1 + j by omega, ih _ _ j (by simpa using h) (fun i hi hij => ?_)]
      · rfl
      · have := hk (i + 1) (by simpa using hi) (by omega)
        rwa [show a + (i + 1) = a + 1 + i by omega, show a + (j + 1) = a + 1 + j by omega] at this

end Memory

end Sys2Proof.Machine
end

