-- ==== Sys2Proof/Laws/State.lean ====
section
/-! SUPPORT. What every basic update of the state leaves: one lemma for each field that the update does not touch. -/

namespace Sys2Proof.Machine

namespace State

variable (s : State)

/-! `wr` -/

@[simp] theorem wr_mem (f : Fld) (i v : Nat) : (s.wr f i v).mem = s.mem := rfl
@[simp] theorem wr_flips (f : Fld) (i v : Nat) : (s.wr f i v).flips = s.flips := rfl
@[simp] theorem wr_denyAt (f : Fld) (i v : Nat) : (s.wr f i v).denyAt = s.denyAt := rfl
@[simp] theorem wr_arrays (f : Fld) (i v : Nat) : (s.wr f i v).arrays = s.arrays := rfl
@[simp] theorem wr_tokens (f : Fld) (i v : Nat) : (s.wr f i v).tokens = s.tokens := rfl
@[simp] theorem wr_regions (f : Fld) (i v : Nat) : (s.wr f i v).regions = s.regions := rfl
@[simp] theorem wr_serial (f : Fld) (i v : Nat) : (s.wr f i v).serial = s.serial := rfl
@[simp] theorem wr_eps (f : Fld) (i v : Nat) : (s.wr f i v).eps = s.eps := rfl
@[simp] theorem wr_stack (f : Fld) (i v : Nat) : (s.wr f i v).stack = s.stack := rfl
@[simp] theorem wr_stackErr (f : Fld) (i v : Nat) : (s.wr f i v).stackErr = s.stackErr := rfl
@[simp] theorem wr_odecc (f : Fld) (i v : Nat) : (s.wr f i v).odecc = s.odecc := rfl
@[simp] theorem wr_dir (f : Fld) (i v : Nat) : (s.wr f i v).dir = s.dir := rfl
@[simp] theorem wr_tables (f : Fld) (i v : Nat) : (s.wr f i v).tables = s.tables := rfl
@[simp] theorem wr_segs (f : Fld) (i v : Nat) : (s.wr f i v).segs = s.segs := rfl
@[simp] theorem wr_tblCmd (f : Fld) (i v : Nat) : (s.wr f i v).tblCmd = s.tblCmd := rfl
@[simp] theorem wr_resync (f : Fld) (i v : Nat) : (s.wr f i v).resync = s.resync := rfl
@[simp] theorem wr_cache (f : Fld) (i v : Nat) : (s.wr f i v).cache = s.cache := rfl
@[simp] theorem wr_fetch (f : Fld) (i v : Nat) : (s.wr f i v).fetch = s.fetch := rfl
@[simp] theorem wr_missed (f : Fld) (i v : Nat) : (s.wr f i v).missed = s.missed := rfl
@[simp] theorem wr_gathers (f : Fld) (i v : Nat) : (s.wr f i v).gathers = s.gathers := rfl
@[simp] theorem wr_nextGather (f : Fld) (i v : Nat) : (s.wr f i v).nextGather = s.nextGather := rfl
@[simp] theorem wr_hubWait (f : Fld) (i v : Nat) : (s.wr f i v).hubWait = s.hubWait := rfl
@[simp] theorem wr_hubUsed (f : Fld) (i v : Nat) : (s.wr f i v).hubUsed = s.hubUsed := rfl
@[simp] theorem wr_net (f : Fld) (i v : Nat) : (s.wr f i v).net = s.net := rfl
@[simp] theorem wr_reqs (f : Fld) (i v : Nat) : (s.wr f i v).reqs = s.reqs := rfl
@[simp] theorem wr_nextTag (f : Fld) (i v : Nat) : (s.wr f i v).nextTag = s.nextTag := rfl
@[simp] theorem wr_mcast (f : Fld) (i v : Nat) : (s.wr f i v).mcast = s.mcast := rfl
@[simp] theorem wr_redGroups (f : Fld) (i v : Nat) : (s.wr f i v).redGroups = s.redGroups := rfl
@[simp] theorem wr_rounds (f : Fld) (i v : Nat) : (s.wr f i v).rounds = s.rounds := rfl
@[simp] theorem wr_mesh (f : Fld) (i v : Nat) : (s.wr f i v).mesh = s.mesh := rfl
@[simp] theorem wr_localDead (f : Fld) (i v : Nat) : (s.wr f i v).localDead = s.localDead := rfl
@[simp] theorem wr_escTable (f : Fld) (i v : Nat) : (s.wr f i v).escTable = s.escTable := rfl
@[simp] theorem wr_changes (f : Fld) (i v : Nat) : (s.wr f i v).changes = s.changes := rfl
@[simp] theorem wr_mnMask (f : Fld) (i v : Nat) : (s.wr f i v).mnMask = s.mnMask := rfl
@[simp] theorem wr_mnGen (f : Fld) (i v : Nat) : (s.wr f i v).mnGen = s.mnGen := rfl
@[simp] theorem wr_maskSent (f : Fld) (i v : Nat) : (s.wr f i v).maskSent = s.maskSent := rfl
@[simp] theorem wr_rateAt (f : Fld) (i v : Nat) : (s.wr f i v).rateAt = s.rateAt := rfl
@[simp] theorem wr_holds (f : Fld) (i v : Nat) : (s.wr f i v).holds = s.holds := rfl
@[simp] theorem wr_buckets (f : Fld) (i v : Nat) : (s.wr f i v).buckets = s.buckets := rfl
@[simp] theorem wr_tc0Wait (f : Fld) (i v : Nat) : (s.wr f i v).tc0Wait = s.tc0Wait := rfl
@[simp] theorem wr_ticks (f : Fld) (i v : Nat) : (s.wr f i v).ticks = s.ticks := rfl
@[simp] theorem wr_field (f : Fld) (i v : Nat) : (s.wr f i v).field = s.field := rfl
@[simp] theorem wr_links (f : Fld) (i v : Nat) : (s.wr f i v).links = s.links := rfl
@[simp] theorem wr_time (f : Fld) (i v : Nat) : (s.wr f i v).time = s.time := rfl
@[simp] theorem wr_host (f : Fld) (i v : Nat) : (s.wr f i v).host = s.host := rfl
@[simp] theorem wr_boot (f : Fld) (i v : Nat) : (s.wr f i v).boot = s.boot := rfl
@[simp] theorem wr_faults (f : Fld) (i v : Nat) : (s.wr f i v).faults = s.faults := rfl
@[simp] theorem wr_power (f : Fld) (i v : Nat) : (s.wr f i v).power = s.power := rfl
@[simp] theorem wr_sit (f : Fld) (i v : Nat) : (s.wr f i v).sit = s.sit := rfl
@[simp] theorem wr_mon (f : Fld) (i v : Nat) : (s.wr f i v).mon = s.mon := rfl
@[simp] theorem wr_pins (f : Fld) (i v : Nat) : (s.wr f i v).pins = s.pins := rfl
@[simp] theorem wr_outs (f : Fld) (i v : Nat) : (s.wr f i v).outs = s.outs := rfl
@[simp] theorem wr_free (f : Fld) (i v : Nat) : (s.wr f i v).free = s.free := rfl
@[simp] theorem wr_pending (f : Fld) (i v : Nat) : (s.wr f i v).pending = s.pending := rfl

/-! `cnt` -/

@[simp] theorem cnt_mem (f : Fld) (i n : Nat) : (s.cnt f i n).mem = s.mem := rfl
@[simp] theorem cnt_flips (f : Fld) (i n : Nat) : (s.cnt f i n).flips = s.flips := rfl
@[simp] theorem cnt_denyAt (f : Fld) (i n : Nat) : (s.cnt f i n).denyAt = s.denyAt := rfl
@[simp] theorem cnt_arrays (f : Fld) (i n : Nat) : (s.cnt f i n).arrays = s.arrays := rfl
@[simp] theorem cnt_tokens (f : Fld) (i n : Nat) : (s.cnt f i n).tokens = s.tokens := rfl
@[simp] theorem cnt_regions (f : Fld) (i n : Nat) : (s.cnt f i n).regions = s.regions := rfl
@[simp] theorem cnt_serial (f : Fld) (i n : Nat) : (s.cnt f i n).serial = s.serial := rfl
@[simp] theorem cnt_eps (f : Fld) (i n : Nat) : (s.cnt f i n).eps = s.eps := rfl
@[simp] theorem cnt_stack (f : Fld) (i n : Nat) : (s.cnt f i n).stack = s.stack := rfl
@[simp] theorem cnt_stackErr (f : Fld) (i n : Nat) : (s.cnt f i n).stackErr = s.stackErr := rfl
@[simp] theorem cnt_odecc (f : Fld) (i n : Nat) : (s.cnt f i n).odecc = s.odecc := rfl
@[simp] theorem cnt_dir (f : Fld) (i n : Nat) : (s.cnt f i n).dir = s.dir := rfl
@[simp] theorem cnt_tables (f : Fld) (i n : Nat) : (s.cnt f i n).tables = s.tables := rfl
@[simp] theorem cnt_segs (f : Fld) (i n : Nat) : (s.cnt f i n).segs = s.segs := rfl
@[simp] theorem cnt_tblCmd (f : Fld) (i n : Nat) : (s.cnt f i n).tblCmd = s.tblCmd := rfl
@[simp] theorem cnt_resync (f : Fld) (i n : Nat) : (s.cnt f i n).resync = s.resync := rfl
@[simp] theorem cnt_cache (f : Fld) (i n : Nat) : (s.cnt f i n).cache = s.cache := rfl
@[simp] theorem cnt_fetch (f : Fld) (i n : Nat) : (s.cnt f i n).fetch = s.fetch := rfl
@[simp] theorem cnt_missed (f : Fld) (i n : Nat) : (s.cnt f i n).missed = s.missed := rfl
@[simp] theorem cnt_gathers (f : Fld) (i n : Nat) : (s.cnt f i n).gathers = s.gathers := rfl
@[simp] theorem cnt_nextGather (f : Fld) (i n : Nat) : (s.cnt f i n).nextGather = s.nextGather := rfl
@[simp] theorem cnt_hubWait (f : Fld) (i n : Nat) : (s.cnt f i n).hubWait = s.hubWait := rfl
@[simp] theorem cnt_hubUsed (f : Fld) (i n : Nat) : (s.cnt f i n).hubUsed = s.hubUsed := rfl
@[simp] theorem cnt_net (f : Fld) (i n : Nat) : (s.cnt f i n).net = s.net := rfl
@[simp] theorem cnt_reqs (f : Fld) (i n : Nat) : (s.cnt f i n).reqs = s.reqs := rfl
@[simp] theorem cnt_nextTag (f : Fld) (i n : Nat) : (s.cnt f i n).nextTag = s.nextTag := rfl
@[simp] theorem cnt_mcast (f : Fld) (i n : Nat) : (s.cnt f i n).mcast = s.mcast := rfl
@[simp] theorem cnt_redGroups (f : Fld) (i n : Nat) : (s.cnt f i n).redGroups = s.redGroups := rfl
@[simp] theorem cnt_rounds (f : Fld) (i n : Nat) : (s.cnt f i n).rounds = s.rounds := rfl
@[simp] theorem cnt_mesh (f : Fld) (i n : Nat) : (s.cnt f i n).mesh = s.mesh := rfl
@[simp] theorem cnt_localDead (f : Fld) (i n : Nat) : (s.cnt f i n).localDead = s.localDead := rfl
@[simp] theorem cnt_escTable (f : Fld) (i n : Nat) : (s.cnt f i n).escTable = s.escTable := rfl
@[simp] theorem cnt_changes (f : Fld) (i n : Nat) : (s.cnt f i n).changes = s.changes := rfl
@[simp] theorem cnt_mnMask (f : Fld) (i n : Nat) : (s.cnt f i n).mnMask = s.mnMask := rfl
@[simp] theorem cnt_mnGen (f : Fld) (i n : Nat) : (s.cnt f i n).mnGen = s.mnGen := rfl
@[simp] theorem cnt_maskSent (f : Fld) (i n : Nat) : (s.cnt f i n).maskSent = s.maskSent := rfl
@[simp] theorem cnt_rateAt (f : Fld) (i n : Nat) : (s.cnt f i n).rateAt = s.rateAt := rfl
@[simp] theorem cnt_holds (f : Fld) (i n : Nat) : (s.cnt f i n).holds = s.holds := rfl
@[simp] theorem cnt_buckets (f : Fld) (i n : Nat) : (s.cnt f i n).buckets = s.buckets := rfl
@[simp] theorem cnt_tc0Wait (f : Fld) (i n : Nat) : (s.cnt f i n).tc0Wait = s.tc0Wait := rfl
@[simp] theorem cnt_ticks (f : Fld) (i n : Nat) : (s.cnt f i n).ticks = s.ticks := rfl
@[simp] theorem cnt_field (f : Fld) (i n : Nat) : (s.cnt f i n).field = s.field := rfl
@[simp] theorem cnt_links (f : Fld) (i n : Nat) : (s.cnt f i n).links = s.links := rfl
@[simp] theorem cnt_time (f : Fld) (i n : Nat) : (s.cnt f i n).time = s.time := rfl
@[simp] theorem cnt_host (f : Fld) (i n : Nat) : (s.cnt f i n).host = s.host := rfl
@[simp] theorem cnt_boot (f : Fld) (i n : Nat) : (s.cnt f i n).boot = s.boot := rfl
@[simp] theorem cnt_faults (f : Fld) (i n : Nat) : (s.cnt f i n).faults = s.faults := rfl
@[simp] theorem cnt_power (f : Fld) (i n : Nat) : (s.cnt f i n).power = s.power := rfl
@[simp] theorem cnt_sit (f : Fld) (i n : Nat) : (s.cnt f i n).sit = s.sit := rfl
@[simp] theorem cnt_mon (f : Fld) (i n : Nat) : (s.cnt f i n).mon = s.mon := rfl
@[simp] theorem cnt_pins (f : Fld) (i n : Nat) : (s.cnt f i n).pins = s.pins := rfl
@[simp] theorem cnt_outs (f : Fld) (i n : Nat) : (s.cnt f i n).outs = s.outs := rfl
@[simp] theorem cnt_free (f : Fld) (i n : Nat) : (s.cnt f i n).free = s.free := rfl
@[simp] theorem cnt_pending (f : Fld) (i n : Nat) : (s.cnt f i n).pending = s.pending := rfl

/-! `clr` -/

@[simp] theorem clr_mem (f : Fld) (i : Nat) : (s.clr f i).mem = s.mem := rfl
@[simp] theorem clr_flips (f : Fld) (i : Nat) : (s.clr f i).flips = s.flips := rfl
@[simp] theorem clr_denyAt (f : Fld) (i : Nat) : (s.clr f i).denyAt = s.denyAt := rfl
@[simp] theorem clr_arrays (f : Fld) (i : Nat) : (s.clr f i).arrays = s.arrays := rfl
@[simp] theorem clr_tokens (f : Fld) (i : Nat) : (s.clr f i).tokens = s.tokens := rfl
@[simp] theorem clr_regions (f : Fld) (i : Nat) : (s.clr f i).regions = s.regions := rfl
@[simp] theorem clr_serial (f : Fld) (i : Nat) : (s.clr f i).serial = s.serial := rfl
@[simp] theorem clr_eps (f : Fld) (i : Nat) : (s.clr f i).eps = s.eps := rfl
@[simp] theorem clr_stack (f : Fld) (i : Nat) : (s.clr f i).stack = s.stack := rfl
@[simp] theorem clr_stackErr (f : Fld) (i : Nat) : (s.clr f i).stackErr = s.stackErr := rfl
@[simp] theorem clr_odecc (f : Fld) (i : Nat) : (s.clr f i).odecc = s.odecc := rfl
@[simp] theorem clr_dir (f : Fld) (i : Nat) : (s.clr f i).dir = s.dir := rfl
@[simp] theorem clr_tables (f : Fld) (i : Nat) : (s.clr f i).tables = s.tables := rfl
@[simp] theorem clr_segs (f : Fld) (i : Nat) : (s.clr f i).segs = s.segs := rfl
@[simp] theorem clr_tblCmd (f : Fld) (i : Nat) : (s.clr f i).tblCmd = s.tblCmd := rfl
@[simp] theorem clr_resync (f : Fld) (i : Nat) : (s.clr f i).resync = s.resync := rfl
@[simp] theorem clr_cache (f : Fld) (i : Nat) : (s.clr f i).cache = s.cache := rfl
@[simp] theorem clr_fetch (f : Fld) (i : Nat) : (s.clr f i).fetch = s.fetch := rfl
@[simp] theorem clr_missed (f : Fld) (i : Nat) : (s.clr f i).missed = s.missed := rfl
@[simp] theorem clr_gathers (f : Fld) (i : Nat) : (s.clr f i).gathers = s.gathers := rfl
@[simp] theorem clr_nextGather (f : Fld) (i : Nat) : (s.clr f i).nextGather = s.nextGather := rfl
@[simp] theorem clr_hubWait (f : Fld) (i : Nat) : (s.clr f i).hubWait = s.hubWait := rfl
@[simp] theorem clr_hubUsed (f : Fld) (i : Nat) : (s.clr f i).hubUsed = s.hubUsed := rfl
@[simp] theorem clr_net (f : Fld) (i : Nat) : (s.clr f i).net = s.net := rfl
@[simp] theorem clr_reqs (f : Fld) (i : Nat) : (s.clr f i).reqs = s.reqs := rfl
@[simp] theorem clr_nextTag (f : Fld) (i : Nat) : (s.clr f i).nextTag = s.nextTag := rfl
@[simp] theorem clr_mcast (f : Fld) (i : Nat) : (s.clr f i).mcast = s.mcast := rfl
@[simp] theorem clr_redGroups (f : Fld) (i : Nat) : (s.clr f i).redGroups = s.redGroups := rfl
@[simp] theorem clr_rounds (f : Fld) (i : Nat) : (s.clr f i).rounds = s.rounds := rfl
@[simp] theorem clr_mesh (f : Fld) (i : Nat) : (s.clr f i).mesh = s.mesh := rfl
@[simp] theorem clr_localDead (f : Fld) (i : Nat) : (s.clr f i).localDead = s.localDead := rfl
@[simp] theorem clr_escTable (f : Fld) (i : Nat) : (s.clr f i).escTable = s.escTable := rfl
@[simp] theorem clr_changes (f : Fld) (i : Nat) : (s.clr f i).changes = s.changes := rfl
@[simp] theorem clr_mnMask (f : Fld) (i : Nat) : (s.clr f i).mnMask = s.mnMask := rfl
@[simp] theorem clr_mnGen (f : Fld) (i : Nat) : (s.clr f i).mnGen = s.mnGen := rfl
@[simp] theorem clr_maskSent (f : Fld) (i : Nat) : (s.clr f i).maskSent = s.maskSent := rfl
@[simp] theorem clr_rateAt (f : Fld) (i : Nat) : (s.clr f i).rateAt = s.rateAt := rfl
@[simp] theorem clr_holds (f : Fld) (i : Nat) : (s.clr f i).holds = s.holds := rfl
@[simp] theorem clr_buckets (f : Fld) (i : Nat) : (s.clr f i).buckets = s.buckets := rfl
@[simp] theorem clr_tc0Wait (f : Fld) (i : Nat) : (s.clr f i).tc0Wait = s.tc0Wait := rfl
@[simp] theorem clr_ticks (f : Fld) (i : Nat) : (s.clr f i).ticks = s.ticks := rfl
@[simp] theorem clr_field (f : Fld) (i : Nat) : (s.clr f i).field = s.field := rfl
@[simp] theorem clr_links (f : Fld) (i : Nat) : (s.clr f i).links = s.links := rfl
@[simp] theorem clr_time (f : Fld) (i : Nat) : (s.clr f i).time = s.time := rfl
@[simp] theorem clr_host (f : Fld) (i : Nat) : (s.clr f i).host = s.host := rfl
@[simp] theorem clr_boot (f : Fld) (i : Nat) : (s.clr f i).boot = s.boot := rfl
@[simp] theorem clr_faults (f : Fld) (i : Nat) : (s.clr f i).faults = s.faults := rfl
@[simp] theorem clr_power (f : Fld) (i : Nat) : (s.clr f i).power = s.power := rfl
@[simp] theorem clr_sit (f : Fld) (i : Nat) : (s.clr f i).sit = s.sit := rfl
@[simp] theorem clr_mon (f : Fld) (i : Nat) : (s.clr f i).mon = s.mon := rfl
@[simp] theorem clr_pins (f : Fld) (i : Nat) : (s.clr f i).pins = s.pins := rfl
@[simp] theorem clr_outs (f : Fld) (i : Nat) : (s.clr f i).outs = s.outs := rfl
@[simp] theorem clr_free (f : Fld) (i : Nat) : (s.clr f i).free = s.free := rfl
@[simp] theorem clr_pending (f : Fld) (i : Nat) : (s.clr f i).pending = s.pending := rfl

/-! `put` -/

@[simp] theorem put_regs (o : OutEv) : (s.put o).regs = s.regs := rfl
@[simp] theorem put_mem (o : OutEv) : (s.put o).mem = s.mem := rfl
@[simp] theorem put_flips (o : OutEv) : (s.put o).flips = s.flips := rfl
@[simp] theorem put_denyAt (o : OutEv) : (s.put o).denyAt = s.denyAt := rfl
@[simp] theorem put_arrays (o : OutEv) : (s.put o).arrays = s.arrays := rfl
@[simp] theorem put_tokens (o : OutEv) : (s.put o).tokens = s.tokens := rfl
@[simp] theorem put_regions (o : OutEv) : (s.put o).regions = s.regions := rfl
@[simp] theorem put_serial (o : OutEv) : (s.put o).serial = s.serial := rfl
@[simp] theorem put_eps (o : OutEv) : (s.put o).eps = s.eps := rfl
@[simp] theorem put_stack (o : OutEv) : (s.put o).stack = s.stack := rfl
@[simp] theorem put_stackErr (o : OutEv) : (s.put o).stackErr = s.stackErr := rfl
@[simp] theorem put_odecc (o : OutEv) : (s.put o).odecc = s.odecc := rfl
@[simp] theorem put_dir (o : OutEv) : (s.put o).dir = s.dir := rfl
@[simp] theorem put_tables (o : OutEv) : (s.put o).tables = s.tables := rfl
@[simp] theorem put_segs (o : OutEv) : (s.put o).segs = s.segs := rfl
@[simp] theorem put_tblCmd (o : OutEv) : (s.put o).tblCmd = s.tblCmd := rfl
@[simp] theorem put_resync (o : OutEv) : (s.put o).resync = s.resync := rfl
@[simp] theorem put_cache (o : OutEv) : (s.put o).cache = s.cache := rfl
@[simp] theorem put_fetch (o : OutEv) : (s.put o).fetch = s.fetch := rfl
@[simp] theorem put_missed (o : OutEv) : (s.put o).missed = s.missed := rfl
@[simp] theorem put_gathers (o : OutEv) : (s.put o).gathers = s.gathers := rfl
@[simp] theorem put_nextGather (o : OutEv) : (s.put o).nextGather = s.nextGather := rfl
@[simp] theorem put_hubWait (o : OutEv) : (s.put o).hubWait = s.hubWait := rfl
@[simp] theorem put_hubUsed (o : OutEv) : (s.put o).hubUsed = s.hubUsed := rfl
@[simp] theorem put_net (o : OutEv) : (s.put o).net = s.net := rfl
@[simp] theorem put_reqs (o : OutEv) : (s.put o).reqs = s.reqs := rfl
@[simp] theorem put_nextTag (o : OutEv) : (s.put o).nextTag = s.nextTag := rfl
@[simp] theorem put_mcast (o : OutEv) : (s.put o).mcast = s.mcast := rfl
@[simp] theorem put_redGroups (o : OutEv) : (s.put o).redGroups = s.redGroups := rfl
@[simp] theorem put_rounds (o : OutEv) : (s.put o).rounds = s.rounds := rfl
@[simp] theorem put_mesh (o : OutEv) : (s.put o).mesh = s.mesh := rfl
@[simp] theorem put_localDead (o : OutEv) : (s.put o).localDead = s.localDead := rfl
@[simp] theorem put_escTable (o : OutEv) : (s.put o).escTable = s.escTable := rfl
@[simp] theorem put_changes (o : OutEv) : (s.put o).changes = s.changes := rfl
@[simp] theorem put_mnMask (o : OutEv) : (s.put o).mnMask = s.mnMask := rfl
@[simp] theorem put_mnGen (o : OutEv) : (s.put o).mnGen = s.mnGen := rfl
@[simp] theorem put_maskSent (o : OutEv) : (s.put o).maskSent = s.maskSent := rfl
@[simp] theorem put_rateAt (o : OutEv) : (s.put o).rateAt = s.rateAt := rfl
@[simp] theorem put_holds (o : OutEv) : (s.put o).holds = s.holds := rfl
@[simp] theorem put_buckets (o : OutEv) : (s.put o).buckets = s.buckets := rfl
@[simp] theorem put_tc0Wait (o : OutEv) : (s.put o).tc0Wait = s.tc0Wait := rfl
@[simp] theorem put_ticks (o : OutEv) : (s.put o).ticks = s.ticks := rfl
@[simp] theorem put_field (o : OutEv) : (s.put o).field = s.field := rfl
@[simp] theorem put_links (o : OutEv) : (s.put o).links = s.links := rfl
@[simp] theorem put_time (o : OutEv) : (s.put o).time = s.time := rfl
@[simp] theorem put_host (o : OutEv) : (s.put o).host = s.host := rfl
@[simp] theorem put_boot (o : OutEv) : (s.put o).boot = s.boot := rfl
@[simp] theorem put_faults (o : OutEv) : (s.put o).faults = s.faults := rfl
@[simp] theorem put_power (o : OutEv) : (s.put o).power = s.power := rfl
@[simp] theorem put_sit (o : OutEv) : (s.put o).sit = s.sit := rfl
@[simp] theorem put_mon (o : OutEv) : (s.put o).mon = s.mon := rfl
@[simp] theorem put_pins (o : OutEv) : (s.put o).pins = s.pins := rfl
@[simp] theorem put_free (o : OutEv) : (s.put o).free = s.free := rfl
@[simp] theorem put_pending (o : OutEv) : (s.put o).pending = s.pending := rfl

/-! `send` -/

@[simp] theorem send_regs (p : Packet) : (s.send p).regs = s.regs := rfl
@[simp] theorem send_mem (p : Packet) : (s.send p).mem = s.mem := rfl
@[simp] theorem send_flips (p : Packet) : (s.send p).flips = s.flips := rfl
@[simp] theorem send_denyAt (p : Packet) : (s.send p).denyAt = s.denyAt := rfl
@[simp] theorem send_arrays (p : Packet) : (s.send p).arrays = s.arrays := rfl
@[simp] theorem send_tokens (p : Packet) : (s.send p).tokens = s.tokens := rfl
@[simp] theorem send_regions (p : Packet) : (s.send p).regions = s.regions := rfl
@[simp] theorem send_serial (p : Packet) : (s.send p).serial = s.serial := rfl
@[simp] theorem send_eps (p : Packet) : (s.send p).eps = s.eps := rfl
@[simp] theorem send_stack (p : Packet) : (s.send p).stack = s.stack := rfl
@[simp] theorem send_stackErr (p : Packet) : (s.send p).stackErr = s.stackErr := rfl
@[simp] theorem send_odecc (p : Packet) : (s.send p).odecc = s.odecc := rfl
@[simp] theorem send_dir (p : Packet) : (s.send p).dir = s.dir := rfl
@[simp] theorem send_tables (p : Packet) : (s.send p).tables = s.tables := rfl
@[simp] theorem send_segs (p : Packet) : (s.send p).segs = s.segs := rfl
@[simp] theorem send_tblCmd (p : Packet) : (s.send p).tblCmd = s.tblCmd := rfl
@[simp] theorem send_resync (p : Packet) : (s.send p).resync = s.resync := rfl
@[simp] theorem send_cache (p : Packet) : (s.send p).cache = s.cache := rfl
@[simp] theorem send_fetch (p : Packet) : (s.send p).fetch = s.fetch := rfl
@[simp] theorem send_missed (p : Packet) : (s.send p).missed = s.missed := rfl
@[simp] theorem send_gathers (p : Packet) : (s.send p).gathers = s.gathers := rfl
@[simp] theorem send_nextGather (p : Packet) : (s.send p).nextGather = s.nextGather := rfl
@[simp] theorem send_hubWait (p : Packet) : (s.send p).hubWait = s.hubWait := rfl
@[simp] theorem send_hubUsed (p : Packet) : (s.send p).hubUsed = s.hubUsed := rfl
@[simp] theorem send_reqs (p : Packet) : (s.send p).reqs = s.reqs := rfl
@[simp] theorem send_nextTag (p : Packet) : (s.send p).nextTag = s.nextTag := rfl
@[simp] theorem send_mcast (p : Packet) : (s.send p).mcast = s.mcast := rfl
@[simp] theorem send_redGroups (p : Packet) : (s.send p).redGroups = s.redGroups := rfl
@[simp] theorem send_rounds (p : Packet) : (s.send p).rounds = s.rounds := rfl
@[simp] theorem send_mesh (p : Packet) : (s.send p).mesh = s.mesh := rfl
@[simp] theorem send_localDead (p : Packet) : (s.send p).localDead = s.localDead := rfl
@[simp] theorem send_escTable (p : Packet) : (s.send p).escTable = s.escTable := rfl
@[simp] theorem send_changes (p : Packet) : (s.send p).changes = s.changes := rfl
@[simp] theorem send_mnMask (p : Packet) : (s.send p).mnMask = s.mnMask := rfl
@[simp] theorem send_mnGen (p : Packet) : (s.send p).mnGen = s.mnGen := rfl
@[simp] theorem send_maskSent (p : Packet) : (s.send p).maskSent = s.maskSent := rfl
@[simp] theorem send_rateAt (p : Packet) : (s.send p).rateAt = s.rateAt := rfl
@[simp] theorem send_holds (p : Packet) : (s.send p).holds = s.holds := rfl
@[simp] theorem send_buckets (p : Packet) : (s.send p).buckets = s.buckets := rfl
@[simp] theorem send_tc0Wait (p : Packet) : (s.send p).tc0Wait = s.tc0Wait := rfl
@[simp] theorem send_ticks (p : Packet) : (s.send p).ticks = s.ticks := rfl
@[simp] theorem send_field (p : Packet) : (s.send p).field = s.field := rfl
@[simp] theorem send_links (p : Packet) : (s.send p).links = s.links := rfl
@[simp] theorem send_time (p : Packet) : (s.send p).time = s.time := rfl
@[simp] theorem send_host (p : Packet) : (s.send p).host = s.host := rfl
@[simp] theorem send_boot (p : Packet) : (s.send p).boot = s.boot := rfl
@[simp] theorem send_faults (p : Packet) : (s.send p).faults = s.faults := rfl
@[simp] theorem send_power (p : Packet) : (s.send p).power = s.power := rfl
@[simp] theorem send_sit (p : Packet) : (s.send p).sit = s.sit := rfl
@[simp] theorem send_mon (p : Packet) : (s.send p).mon = s.mon := rfl
@[simp] theorem send_pins (p : Packet) : (s.send p).pins = s.pins := rfl
@[simp] theorem send_outs (p : Packet) : (s.send p).outs = s.outs := rfl
@[simp] theorem send_free (p : Packet) : (s.send p).free = s.free := rfl
@[simp] theorem send_pending (p : Packet) : (s.send p).pending = s.pending := rfl

/-! `take` -/

@[simp] theorem take_regs (p : Packet) : (s.take p).regs = s.regs := rfl
@[simp] theorem take_mem (p : Packet) : (s.take p).mem = s.mem := rfl
@[simp] theorem take_flips (p : Packet) : (s.take p).flips = s.flips := rfl
@[simp] theorem take_denyAt (p : Packet) : (s.take p).denyAt = s.denyAt := rfl
@[simp] theorem take_arrays (p : Packet) : (s.take p).arrays = s.arrays := rfl
@[simp] theorem take_tokens (p : Packet) : (s.take p).tokens = s.tokens := rfl
@[simp] theorem take_regions (p : Packet) : (s.take p).regions = s.regions := rfl
@[simp] theorem take_serial (p : Packet) : (s.take p).serial = s.serial := rfl
@[simp] theorem take_eps (p : Packet) : (s.take p).eps = s.eps := rfl
@[simp] theorem take_stack (p : Packet) : (s.take p).stack = s.stack := rfl
@[simp] theorem take_stackErr (p : Packet) : (s.take p).stackErr = s.stackErr := rfl
@[simp] theorem take_odecc (p : Packet) : (s.take p).odecc = s.odecc := rfl
@[simp] theorem take_dir (p : Packet) : (s.take p).dir = s.dir := rfl
@[simp] theorem take_tables (p : Packet) : (s.take p).tables = s.tables := rfl
@[simp] theorem take_segs (p : Packet) : (s.take p).segs = s.segs := rfl
@[simp] theorem take_tblCmd (p : Packet) : (s.take p).tblCmd = s.tblCmd := rfl
@[simp] theorem take_resync (p : Packet) : (s.take p).resync = s.resync := rfl
@[simp] theorem take_cache (p : Packet) : (s.take p).cache = s.cache := rfl
@[simp] theorem take_fetch (p : Packet) : (s.take p).fetch = s.fetch := rfl
@[simp] theorem take_missed (p : Packet) : (s.take p).missed = s.missed := rfl
@[simp] theorem take_gathers (p : Packet) : (s.take p).gathers = s.gathers := rfl
@[simp] theorem take_nextGather (p : Packet) : (s.take p).nextGather = s.nextGather := rfl
@[simp] theorem take_hubWait (p : Packet) : (s.take p).hubWait = s.hubWait := rfl
@[simp] theorem take_hubUsed (p : Packet) : (s.take p).hubUsed = s.hubUsed := rfl
@[simp] theorem take_reqs (p : Packet) : (s.take p).reqs = s.reqs := rfl
@[simp] theorem take_nextTag (p : Packet) : (s.take p).nextTag = s.nextTag := rfl
@[simp] theorem take_mcast (p : Packet) : (s.take p).mcast = s.mcast := rfl
@[simp] theorem take_redGroups (p : Packet) : (s.take p).redGroups = s.redGroups := rfl
@[simp] theorem take_rounds (p : Packet) : (s.take p).rounds = s.rounds := rfl
@[simp] theorem take_localDead (p : Packet) : (s.take p).localDead = s.localDead := rfl
@[simp] theorem take_escTable (p : Packet) : (s.take p).escTable = s.escTable := rfl
@[simp] theorem take_changes (p : Packet) : (s.take p).changes = s.changes := rfl
@[simp] theorem take_mnMask (p : Packet) : (s.take p).mnMask = s.mnMask := rfl
@[simp] theorem take_mnGen (p : Packet) : (s.take p).mnGen = s.mnGen := rfl
@[simp] theorem take_maskSent (p : Packet) : (s.take p).maskSent = s.maskSent := rfl
@[simp] theorem take_rateAt (p : Packet) : (s.take p).rateAt = s.rateAt := rfl
@[simp] theorem take_holds (p : Packet) : (s.take p).holds = s.holds := rfl
@[simp] theorem take_buckets (p : Packet) : (s.take p).buckets = s.buckets := rfl
@[simp] theorem take_tc0Wait (p : Packet) : (s.take p).tc0Wait = s.tc0Wait := rfl
@[simp] theorem take_ticks (p : Packet) : (s.take p).ticks = s.ticks := rfl
@[simp] theorem take_field (p : Packet) : (s.take p).field = s.field := rfl
@[simp] theorem take_links (p : Packet) : (s.take p).links = s.links := rfl
@[simp] theorem take_time (p : Packet) : (s.take p).time = s.time := rfl
@[simp] theorem take_host (p : Packet) : (s.take p).host = s.host := rfl
@[simp] theorem take_boot (p : Packet) : (s.take p).boot = s.boot := rfl
@[simp] theorem take_faults (p : Packet) : (s.take p).faults = s.faults := rfl
@[simp] theorem take_power (p : Packet) : (s.take p).power = s.power := rfl
@[simp] theorem take_sit (p : Packet) : (s.take p).sit = s.sit := rfl
@[simp] theorem take_mon (p : Packet) : (s.take p).mon = s.mon := rfl
@[simp] theorem take_pins (p : Packet) : (s.take p).pins = s.pins := rfl
@[simp] theorem take_outs (p : Packet) : (s.take p).outs = s.outs := rfl
@[simp] theorem take_free (p : Packet) : (s.take p).free = s.free := rfl
@[simp] theorem take_pending (p : Packet) : (s.take p).pending = s.pending := rfl

/-! `request` -/

@[simp] theorem request_regs (r : Req) (p : Packet) : (s.request r p).regs = s.regs := rfl
@[simp] theorem request_mem (r : Req) (p : Packet) : (s.request r p).mem = s.mem := rfl
@[simp] theorem request_flips (r : Req) (p : Packet) : (s.request r p).flips = s.flips := rfl
@[simp] theorem request_denyAt (r : Req) (p : Packet) : (s.request r p).denyAt = s.denyAt := rfl
@[simp] theorem request_arrays (r : Req) (p : Packet) : (s.request r p).arrays = s.arrays := rfl
@[simp] theorem request_tokens (r : Req) (p : Packet) : (s.request r p).tokens = s.tokens := rfl
@[simp] theorem request_regions (r : Req) (p : Packet) : (s.request r p).regions = s.regions := rfl
@[simp] theorem request_serial (r : Req) (p : Packet) : (s.request r p).serial = s.serial := rfl
@[simp] theorem request_eps (r : Req) (p : Packet) : (s.request r p).eps = s.eps := rfl
@[simp] theorem request_stack (r : Req) (p : Packet) : (s.request r p).stack = s.stack := rfl
@[simp] theorem request_stackErr (r : Req) (p : Packet) : (s.request r p).stackErr = s.stackErr := rfl
@[simp] theorem request_odecc (r : Req) (p : Packet) : (s.request r p).odecc = s.odecc := rfl
@[simp] theorem request_dir (r : Req) (p : Packet) : (s.request r p).dir = s.dir := rfl
@[simp] theorem request_tables (r : Req) (p : Packet) : (s.request r p).tables = s.tables := rfl
@[simp] theorem request_segs (r : Req) (p : Packet) : (s.request r p).segs = s.segs := rfl
@[simp] theorem request_tblCmd (r : Req) (p : Packet) : (s.request r p).tblCmd = s.tblCmd := rfl
@[simp] theorem request_resync (r : Req) (p : Packet) : (s.request r p).resync = s.resync := rfl
@[simp] theorem request_cache (r : Req) (p : Packet) : (s.request r p).cache = s.cache := rfl
@[simp] theorem request_fetch (r : Req) (p : Packet) : (s.request r p).fetch = s.fetch := rfl
@[simp] theorem request_missed (r : Req) (p : Packet) : (s.request r p).missed = s.missed := rfl
@[simp] theorem request_gathers (r : Req) (p : Packet) : (s.request r p).gathers = s.gathers := rfl
@[simp] theorem request_nextGather (r : Req) (p : Packet) : (s.request r p).nextGather = s.nextGather := rfl
@[simp] theorem request_hubWait (r : Req) (p : Packet) : (s.request r p).hubWait = s.hubWait := rfl
@[simp] theorem request_hubUsed (r : Req) (p : Packet) : (s.request r p).hubUsed = s.hubUsed := rfl
@[simp] theorem request_mcast (r : Req) (p : Packet) : (s.request r p).mcast = s.mcast := rfl
@[simp] theorem request_redGroups (r : Req) (p : Packet) : (s.request r p).redGroups = s.redGroups := rfl
@[simp] theorem request_rounds (r : Req) (p : Packet) : (s.request r p).rounds = s.rounds := rfl
@[simp] theorem request_mesh (r : Req) (p : Packet) : (s.request r p).mesh = s.mesh := rfl
@[simp] theorem request_localDead (r : Req) (p : Packet) : (s.request r p).localDead = s.localDead := rfl
@[simp] theorem request_escTable (r : Req) (p : Packet) : (s.request r p).escTable = s.escTable := rfl
@[simp] theorem request_changes (r : Req) (p : Packet) : (s.request r p).changes = s.changes := rfl
@[simp] theorem request_mnMask (r : Req) (p : Packet) : (s.request r p).mnMask = s.mnMask := rfl
@[simp] theorem request_mnGen (r : Req) (p : Packet) : (s.request r p).mnGen = s.mnGen := rfl
@[simp] theorem request_maskSent (r : Req) (p : Packet) : (s.request r p).maskSent = s.maskSent := rfl
@[simp] theorem request_rateAt (r : Req) (p : Packet) : (s.request r p).rateAt = s.rateAt := rfl
@[simp] theorem request_holds (r : Req) (p : Packet) : (s.request r p).holds = s.holds := rfl
@[simp] theorem request_buckets (r : Req) (p : Packet) : (s.request r p).buckets = s.buckets := rfl
@[simp] theorem request_tc0Wait (r : Req) (p : Packet) : (s.request r p).tc0Wait = s.tc0Wait := rfl
@[simp] theorem request_ticks (r : Req) (p : Packet) : (s.request r p).ticks = s.ticks := rfl
@[simp] theorem request_field (r : Req) (p : Packet) : (s.request r p).field = s.field := rfl
@[simp] theorem request_links (r : Req) (p : Packet) : (s.request r p).links = s.links := rfl
@[simp] theorem request_time (r : Req) (p : Packet) : (s.request r p).time = s.time := rfl
@[simp] theorem request_host (r : Req) (p : Packet) : (s.request r p).host = s.host := rfl
@[simp] theorem request_boot (r : Req) (p : Packet) : (s.request r p).boot = s.boot := rfl
@[simp] theorem request_faults (r : Req) (p : Packet) : (s.request r p).faults = s.faults := rfl
@[simp] theorem request_power (r : Req) (p : Packet) : (s.request r p).power = s.power := rfl
@[simp] theorem request_sit (r : Req) (p : Packet) : (s.request r p).sit = s.sit := rfl
@[simp] theorem request_mon (r : Req) (p : Packet) : (s.request r p).mon = s.mon := rfl
@[simp] theorem request_pins (r : Req) (p : Packet) : (s.request r p).pins = s.pins := rfl
@[simp] theorem request_outs (r : Req) (p : Packet) : (s.request r p).outs = s.outs := rfl
@[simp] theorem request_free (r : Req) (p : Packet) : (s.request r p).free = s.free := rfl
@[simp] theorem request_pending (r : Req) (p : Packet) : (s.request r p).pending = s.pending := rfl

/-! `setArr` -/

@[simp] theorem setArr_regs (a : Nat) (x : ArrayState) : (s.setArr a x).regs = s.regs := rfl
@[simp] theorem setArr_mem (a : Nat) (x : ArrayState) : (s.setArr a x).mem = s.mem := rfl
@[simp] theorem setArr_flips (a : Nat) (x : ArrayState) : (s.setArr a x).flips = s.flips := rfl
@[simp] theorem setArr_denyAt (a : Nat) (x : ArrayState) : (s.setArr a x).denyAt = s.denyAt := rfl
@[simp] theorem setArr_tokens (a : Nat) (x : ArrayState) : (s.setArr a x).tokens = s.tokens := rfl
@[simp] theorem setArr_regions (a : Nat) (x : ArrayState) : (s.setArr a x).regions = s.regions := rfl
@[simp] theorem setArr_serial (a : Nat) (x : ArrayState) : (s.setArr a x).serial = s.serial := rfl
@[simp] theorem setArr_eps (a : Nat) (x : ArrayState) : (s.setArr a x).eps = s.eps := rfl
@[simp] theorem setArr_stack (a : Nat) (x : ArrayState) : (s.setArr a x).stack = s.stack := rfl
@[simp] theorem setArr_stackErr (a : Nat) (x : ArrayState) : (s.setArr a x).stackErr = s.stackErr := rfl
@[simp] theorem setArr_odecc (a : Nat) (x : ArrayState) : (s.setArr a x).odecc = s.odecc := rfl
@[simp] theorem setArr_dir (a : Nat) (x : ArrayState) : (s.setArr a x).dir = s.dir := rfl
@[simp] theorem setArr_tables (a : Nat) (x : ArrayState) : (s.setArr a x).tables = s.tables := rfl
@[simp] theorem setArr_segs (a : Nat) (x : ArrayState) : (s.setArr a x).segs = s.segs := rfl
@[simp] theorem setArr_tblCmd (a : Nat) (x : ArrayState) : (s.setArr a x).tblCmd = s.tblCmd := rfl
@[simp] theorem setArr_resync (a : Nat) (x : ArrayState) : (s.setArr a x).resync = s.resync := rfl
@[simp] theorem setArr_cache (a : Nat) (x : ArrayState) : (s.setArr a x).cache = s.cache := rfl
@[simp] theorem setArr_fetch (a : Nat) (x : ArrayState) : (s.setArr a x).fetch = s.fetch := rfl
@[simp] theorem setArr_missed (a : Nat) (x : ArrayState) : (s.setArr a x).missed = s.missed := rfl
@[simp] theorem setArr_gathers (a : Nat) (x : ArrayState) : (s.setArr a x).gathers = s.gathers := rfl
@[simp] theorem setArr_nextGather (a : Nat) (x : ArrayState) : (s.setArr a x).nextGather = s.nextGather := rfl
@[simp] theorem setArr_hubWait (a : Nat) (x : ArrayState) : (s.setArr a x).hubWait = s.hubWait := rfl
@[simp] theorem setArr_hubUsed (a : Nat) (x : ArrayState) : (s.setArr a x).hubUsed = s.hubUsed := rfl
@[simp] theorem setArr_net (a : Nat) (x : ArrayState) : (s.setArr a x).net = s.net := rfl
@[simp] theorem setArr_reqs (a : Nat) (x : ArrayState) : (s.setArr a x).reqs = s.reqs := rfl
@[simp] theorem setArr_nextTag (a : Nat) (x : ArrayState) : (s.setArr a x).nextTag = s.nextTag := rfl
@[simp] theorem setArr_mcast (a : Nat) (x : ArrayState) : (s.setArr a x).mcast = s.mcast := rfl
@[simp] theorem setArr_redGroups (a : Nat) (x : ArrayState) : (s.setArr a x).redGroups = s.redGroups := rfl
@[simp] theorem setArr_rounds (a : Nat) (x : ArrayState) : (s.setArr a x).rounds = s.rounds := rfl
@[simp] theorem setArr_mesh (a : Nat) (x : ArrayState) : (s.setArr a x).mesh = s.mesh := rfl
@[simp] theorem setArr_localDead (a : Nat) (x : ArrayState) : (s.setArr a x).localDead = s.localDead := rfl
@[simp] theorem setArr_escTable (a : Nat) (x : ArrayState) : (s.setArr a x).escTable = s.escTable := rfl
@[simp] theorem setArr_changes (a : Nat) (x : ArrayState) : (s.setArr a x).changes = s.changes := rfl
@[simp] theorem setArr_mnMask (a : Nat) (x : ArrayState) : (s.setArr a x).mnMask = s.mnMask := rfl
@[simp] theorem setArr_mnGen (a : Nat) (x : ArrayState) : (s.setArr a x).mnGen = s.mnGen := rfl
@[simp] theorem setArr_maskSent (a : Nat) (x : ArrayState) : (s.setArr a x).maskSent = s.maskSent := rfl
@[simp] theorem setArr_rateAt (a : Nat) (x : ArrayState) : (s.setArr a x).rateAt = s.rateAt := rfl
@[simp] theorem setArr_holds (a : Nat) (x : ArrayState) : (s.setArr a x).holds = s.holds := rfl
@[simp] theorem setArr_buckets (a : Nat) (x : ArrayState) : (s.setArr a x).buckets = s.buckets := rfl
@[simp] theorem setArr_tc0Wait (a : Nat) (x : ArrayState) : (s.setArr a x).tc0Wait = s.tc0Wait := rfl
@[simp] theorem setArr_ticks (a : Nat) (x : ArrayState) : (s.setArr a x).ticks = s.ticks := rfl
@[simp] theorem setArr_field (a : Nat) (x : ArrayState) : (s.setArr a x).field = s.field := rfl
@[simp] theorem setArr_links (a : Nat) (x : ArrayState) : (s.setArr a x).links = s.links := rfl
@[simp] theorem setArr_time (a : Nat) (x : ArrayState) : (s.setArr a x).time = s.time := rfl
@[simp] theorem setArr_host (a : Nat) (x : ArrayState) : (s.setArr a x).host = s.host := rfl
@[simp] theorem setArr_boot (a : Nat) (x : ArrayState) : (s.setArr a x).boot = s.boot := rfl
@[simp] theorem setArr_faults (a : Nat) (x : ArrayState) : (s.setArr a x).faults = s.faults := rfl
@[simp] theorem setArr_power (a : Nat) (x : ArrayState) : (s.setArr a x).power = s.power := rfl
@[simp] theorem setArr_sit (a : Nat) (x : ArrayState) : (s.setArr a x).sit = s.sit := rfl
@[simp] theorem setArr_mon (a : Nat) (x : ArrayState) : (s.setArr a x).mon = s.mon := rfl
@[simp] theorem setArr_pins (a : Nat) (x : ArrayState) : (s.setArr a x).pins = s.pins := rfl
@[simp] theorem setArr_outs (a : Nat) (x : ArrayState) : (s.setArr a x).outs = s.outs := rfl
@[simp] theorem setArr_free (a : Nat) (x : ArrayState) : (s.setArr a x).free = s.free := rfl
@[simp] theorem setArr_pending (a : Nat) (x : ArrayState) : (s.setArr a x).pending = s.pending := rfl

/-! `updArr` -/

@[simp] theorem updArr_regs (a : Nat) (f : ArrayState → ArrayState) : (s.updArr a f).regs = s.regs := rfl
@[simp] theorem updArr_mem (a : Nat) (f : ArrayState → ArrayState) : (s.updArr a f).mem = s.mem := rfl
@[simp] theorem updArr_flips (a : Nat) (f : ArrayState → ArrayState) : (s.updArr a f).flips = s.flips := rfl
@[simp] theorem updArr_denyAt (a : Nat) (f : ArrayState → ArrayState) : (s.updArr a f).denyAt = s.denyAt := rfl
@[simp] theorem updArr_tokens (a : Nat) (f : ArrayState → ArrayState) : (s.updArr a f).tokens = s.tokens := rfl
@[simp] theorem updArr_regions (a : Nat) (f : ArrayState → ArrayState) : (s.updArr a f).regions = s.regions := rfl
@[simp] theorem updArr_serial (a : Nat) (f : ArrayState → ArrayState) : (s.updArr a f).serial = s.serial := rfl
@[simp] theorem updArr_eps (a : Nat) (f : ArrayState → ArrayState) : (s.updArr a f).eps = s.eps := rfl
@[simp] theorem updArr_stack (a : Nat) (f : ArrayState → ArrayState) : (s.updArr a f).stack = s.stack := rfl
@[simp] theorem updArr_stackErr (a : Nat) (f : ArrayState → ArrayState) : (s.updArr a f).stackErr = s.stackErr := rfl
@[simp] theorem updArr_odecc (a : Nat) (f : ArrayState → ArrayState) : (s.updArr a f).odecc = s.odecc := rfl
@[simp] theorem updArr_dir (a : Nat) (f : ArrayState → ArrayState) : (s.updArr a f).dir = s.dir := rfl
@[simp] theorem updArr_tables (a : Nat) (f : ArrayState → ArrayState) : (s.updArr a f).tables = s.tables := rfl
@[simp] theorem updArr_segs (a : Nat) (f : ArrayState → ArrayState) : (s.updArr a f).segs = s.segs := rfl
@[simp] theorem updArr_tblCmd (a : Nat) (f : ArrayState → ArrayState) : (s.updArr a f).tblCmd = s.tblCmd := rfl
@[simp] theorem updArr_resync (a : Nat) (f : ArrayState → ArrayState) : (s.updArr a f).resync = s.resync := rfl
@[simp] theorem updArr_cache (a : Nat) (f : ArrayState → ArrayState) : (s.updArr a f).cache = s.cache := rfl
@[simp] theorem updArr_fetch (a : Nat) (f : ArrayState → ArrayState) : (s.updArr a f).fetch = s.fetch := rfl
@[simp] theorem updArr_missed (a : Nat) (f : ArrayState → ArrayState) : (s.updArr a f).missed = s.missed := rfl
@[simp] theorem updArr_gathers (a : Nat) (f : ArrayState → ArrayState) : (s.updArr a f).gathers = s.gathers := rfl
@[simp] theorem updArr_nextGather (a : Nat) (f : ArrayState → ArrayState) : (s.updArr a f).nextGather = s.nextGather := rfl
@[simp] theorem updArr_hubWait (a : Nat) (f : ArrayState → ArrayState) : (s.updArr a f).hubWait = s.hubWait := rfl
@[simp] theorem updArr_hubUsed (a : Nat) (f : ArrayState → ArrayState) : (s.updArr a f).hubUsed = s.hubUsed := rfl
@[simp] theorem updArr_net (a : Nat) (f : ArrayState → ArrayState) : (s.updArr a f).net = s.net := rfl
@[simp] theorem updArr_reqs (a : Nat) (f : ArrayState → ArrayState) : (s.updArr a f).reqs = s.reqs := rfl
@[simp] theorem updArr_nextTag (a : Nat) (f : ArrayState → ArrayState) : (s.updArr a f).nextTag = s.nextTag := rfl
@[simp] theorem updArr_mcast (a : Nat) (f : ArrayState → ArrayState) : (s.updArr a f).mcast = s.mcast := rfl
@[simp] theorem updArr_redGroups (a : Nat) (f : ArrayState → ArrayState) : (s.updArr a f).redGroups = s.redGroups := rfl
@[simp] theorem updArr_rounds (a : Nat) (f : ArrayState → ArrayState) : (s.updArr a f).rounds = s.rounds := rfl
@[simp] theorem updArr_mesh (a : Nat) (f : ArrayState → ArrayState) : (s.updArr a f).mesh = s.mesh := rfl
@[simp] theorem updArr_localDead (a : Nat) (f : ArrayState → ArrayState) : (s.updArr a f).localDead = s.localDead := rfl
@[simp] theorem updArr_escTable (a : Nat) (f : ArrayState → ArrayState) : (s.updArr a f).escTable = s.escTable := rfl
@[simp] theorem updArr_changes (a : Nat) (f : ArrayState → ArrayState) : (s.updArr a f).changes = s.changes := rfl
@[simp] theorem updArr_mnMask (a : Nat) (f : ArrayState → ArrayState) : (s.updArr a f).mnMask = s.mnMask := rfl
@[simp] theorem updArr_mnGen (a : Nat) (f : ArrayState → ArrayState) : (s.updArr a f).mnGen = s.mnGen := rfl
@[simp] theorem updArr_maskSent (a : Nat) (f : ArrayState → ArrayState) : (s.updArr a f).maskSent = s.maskSent := rfl
@[simp] theorem updArr_rateAt (a : Nat) (f : ArrayState → ArrayState) : (s.updArr a f).rateAt = s.rateAt := rfl
@[simp] theorem updArr_holds (a : Nat) (f : ArrayState → ArrayState) : (s.updArr a f).holds = s.holds := rfl
@[simp] theorem updArr_buckets (a : Nat) (f : ArrayState → ArrayState) : (s.updArr a f).buckets = s.buckets := rfl
@[simp] theorem updArr_tc0Wait (a : Nat) (f : ArrayState → ArrayState) : (s.updArr a f).tc0Wait = s.tc0Wait := rfl
@[simp] theorem updArr_ticks (a : Nat) (f : ArrayState → ArrayState) : (s.updArr a f).ticks = s.ticks := rfl
@[simp] theorem updArr_field (a : Nat) (f : ArrayState → ArrayState) : (s.updArr a f).field = s.field := rfl
@[simp] theorem updArr_links (a : Nat) (f : ArrayState → ArrayState) : (s.updArr a f).links = s.links := rfl
@[simp] theorem updArr_time (a : Nat) (f : ArrayState → ArrayState) : (s.updArr a f).time = s.time := rfl
@[simp] theorem updArr_host (a : Nat) (f : ArrayState → ArrayState) : (s.updArr a f).host = s.host := rfl
@[simp] theorem updArr_boot (a : Nat) (f : ArrayState → ArrayState) : (s.updArr a f).boot = s.boot := rfl
@[simp] theorem updArr_faults (a : Nat) (f : ArrayState → ArrayState) : (s.updArr a f).faults = s.faults := rfl
@[simp] theorem updArr_power (a : Nat) (f : ArrayState → ArrayState) : (s.updArr a f).power = s.power := rfl
@[simp] theorem updArr_sit (a : Nat) (f : ArrayState → ArrayState) : (s.updArr a f).sit = s.sit := rfl
@[simp] theorem updArr_mon (a : Nat) (f : ArrayState → ArrayState) : (s.updArr a f).mon = s.mon := rfl
@[simp] theorem updArr_pins (a : Nat) (f : ArrayState → ArrayState) : (s.updArr a f).pins = s.pins := rfl
@[simp] theorem updArr_outs (a : Nat) (f : ArrayState → ArrayState) : (s.updArr a f).outs = s.outs := rfl
@[simp] theorem updArr_free (a : Nat) (f : ArrayState → ArrayState) : (s.updArr a f).free = s.free := rfl
@[simp] theorem updArr_pending (a : Nat) (f : ArrayState → ArrayState) : (s.updArr a f).pending = s.pending := rfl

/-! `setEp` -/

@[simp] theorem setEp_regs (a e : Nat) (x : Ep) : (s.setEp a e x).regs = s.regs := rfl
@[simp] theorem setEp_mem (a e : Nat) (x : Ep) : (s.setEp a e x).mem = s.mem := rfl
@[simp] theorem setEp_flips (a e : Nat) (x : Ep) : (s.setEp a e x).flips = s.flips := rfl
@[simp] theorem setEp_denyAt (a e : Nat) (x : Ep) : (s.setEp a e x).denyAt = s.denyAt := rfl
@[simp] theorem setEp_arrays (a e : Nat) (x : Ep) : (s.setEp a e x).arrays = s.arrays := rfl
@[simp] theorem setEp_tokens (a e : Nat) (x : Ep) : (s.setEp a e x).tokens = s.tokens := rfl
@[simp] theorem setEp_regions (a e : Nat) (x : Ep) : (s.setEp a e x).regions = s.regions := rfl
@[simp] theorem setEp_serial (a e : Nat) (x : Ep) : (s.setEp a e x).serial = s.serial := rfl
@[simp] theorem setEp_stack (a e : Nat) (x : Ep) : (s.setEp a e x).stack = s.stack := rfl
@[simp] theorem setEp_stackErr (a e : Nat) (x : Ep) : (s.setEp a e x).stackErr = s.stackErr := rfl
@[simp] theorem setEp_odecc (a e : Nat) (x : Ep) : (s.setEp a e x).odecc = s.odecc := rfl
@[simp] theorem setEp_dir (a e : Nat) (x : Ep) : (s.setEp a e x).dir = s.dir := rfl
@[simp] theorem setEp_tables (a e : Nat) (x : Ep) : (s.setEp a e x).tables = s.tables := rfl
@[simp] theorem setEp_segs (a e : Nat) (x : Ep) : (s.setEp a e x).segs = s.segs := rfl
@[simp] theorem setEp_tblCmd (a e : Nat) (x : Ep) : (s.setEp a e x).tblCmd = s.tblCmd := rfl
@[simp] theorem setEp_resync (a e : Nat) (x : Ep) : (s.setEp a e x).resync = s.resync := rfl
@[simp] theorem setEp_cache (a e : Nat) (x : Ep) : (s.setEp a e x).cache = s.cache := rfl
@[simp] theorem setEp_fetch (a e : Nat) (x : Ep) : (s.setEp a e x).fetch = s.fetch := rfl
@[simp] theorem setEp_missed (a e : Nat) (x : Ep) : (s.setEp a e x).missed = s.missed := rfl
@[simp] theorem setEp_gathers (a e : Nat) (x : Ep) : (s.setEp a e x).gathers = s.gathers := rfl
@[simp] theorem setEp_nextGather (a e : Nat) (x : Ep) : (s.setEp a e x).nextGather = s.nextGather := rfl
@[simp] theorem setEp_hubWait (a e : Nat) (x : Ep) : (s.setEp a e x).hubWait = s.hubWait := rfl
@[simp] theorem setEp_hubUsed (a e : Nat) (x : Ep) : (s.setEp a e x).hubUsed = s.hubUsed := rfl
@[simp] theorem setEp_net (a e : Nat) (x : Ep) : (s.setEp a e x).net = s.net := rfl
@[simp] theorem setEp_reqs (a e : Nat) (x : Ep) : (s.setEp a e x).reqs = s.reqs := rfl
@[simp] theorem setEp_nextTag (a e : Nat) (x : Ep) : (s.setEp a e x).nextTag = s.nextTag := rfl
@[simp] theorem setEp_mcast (a e : Nat) (x : Ep) : (s.setEp a e x).mcast = s.mcast := rfl
@[simp] theorem setEp_redGroups (a e : Nat) (x : Ep) : (s.setEp a e x).redGroups = s.redGroups := rfl
@[simp] theorem setEp_rounds (a e : Nat) (x : Ep) : (s.setEp a e x).rounds = s.rounds := rfl
@[simp] theorem setEp_mesh (a e : Nat) (x : Ep) : (s.setEp a e x).mesh = s.mesh := rfl
@[simp] theorem setEp_localDead (a e : Nat) (x : Ep) : (s.setEp a e x).localDead = s.localDead := rfl
@[simp] theorem setEp_escTable (a e : Nat) (x : Ep) : (s.setEp a e x).escTable = s.escTable := rfl
@[simp] theorem setEp_changes (a e : Nat) (x : Ep) : (s.setEp a e x).changes = s.changes := rfl
@[simp] theorem setEp_mnMask (a e : Nat) (x : Ep) : (s.setEp a e x).mnMask = s.mnMask := rfl
@[simp] theorem setEp_mnGen (a e : Nat) (x : Ep) : (s.setEp a e x).mnGen = s.mnGen := rfl
@[simp] theorem setEp_maskSent (a e : Nat) (x : Ep) : (s.setEp a e x).maskSent = s.maskSent := rfl
@[simp] theorem setEp_rateAt (a e : Nat) (x : Ep) : (s.setEp a e x).rateAt = s.rateAt := rfl
@[simp] theorem setEp_holds (a e : Nat) (x : Ep) : (s.setEp a e x).holds = s.holds := rfl
@[simp] theorem setEp_buckets (a e : Nat) (x : Ep) : (s.setEp a e x).buckets = s.buckets := rfl
@[simp] theorem setEp_tc0Wait (a e : Nat) (x : Ep) : (s.setEp a e x).tc0Wait = s.tc0Wait := rfl
@[simp] theorem setEp_ticks (a e : Nat) (x : Ep) : (s.setEp a e x).ticks = s.ticks := rfl
@[simp] theorem setEp_field (a e : Nat) (x : Ep) : (s.setEp a e x).field = s.field := rfl
@[simp] theorem setEp_links (a e : Nat) (x : Ep) : (s.setEp a e x).links = s.links := rfl
@[simp] theorem setEp_time (a e : Nat) (x : Ep) : (s.setEp a e x).time = s.time := rfl
@[simp] theorem setEp_host (a e : Nat) (x : Ep) : (s.setEp a e x).host = s.host := rfl
@[simp] theorem setEp_boot (a e : Nat) (x : Ep) : (s.setEp a e x).boot = s.boot := rfl
@[simp] theorem setEp_faults (a e : Nat) (x : Ep) : (s.setEp a e x).faults = s.faults := rfl
@[simp] theorem setEp_power (a e : Nat) (x : Ep) : (s.setEp a e x).power = s.power := rfl
@[simp] theorem setEp_sit (a e : Nat) (x : Ep) : (s.setEp a e x).sit = s.sit := rfl
@[simp] theorem setEp_mon (a e : Nat) (x : Ep) : (s.setEp a e x).mon = s.mon := rfl
@[simp] theorem setEp_pins (a e : Nat) (x : Ep) : (s.setEp a e x).pins = s.pins := rfl
@[simp] theorem setEp_outs (a e : Nat) (x : Ep) : (s.setEp a e x).outs = s.outs := rfl
@[simp] theorem setEp_free (a e : Nat) (x : Ep) : (s.setEp a e x).free = s.free := rfl
@[simp] theorem setEp_pending (a e : Nat) (x : Ep) : (s.setEp a e x).pending = s.pending := rfl

/-! `updEp` -/

@[simp] theorem updEp_regs (a e : Nat) (f : Ep → Ep) : (s.updEp a e f).regs = s.regs := rfl
@[simp] theorem updEp_mem (a e : Nat) (f : Ep → Ep) : (s.updEp a e f).mem = s.mem := rfl
@[simp] theorem updEp_flips (a e : Nat) (f : Ep → Ep) : (s.updEp a e f).flips = s.flips := rfl
@[simp] theorem updEp_denyAt (a e : Nat) (f : Ep → Ep) : (s.updEp a e f).denyAt = s.denyAt := rfl
@[simp] theorem updEp_arrays (a e : Nat) (f : Ep → Ep) : (s.updEp a e f).arrays = s.arrays := rfl
@[simp] theorem updEp_tokens (a e : Nat) (f : Ep → Ep) : (s.updEp a e f).tokens = s.tokens := rfl
@[simp] theorem updEp_regions (a e : Nat) (f : Ep → Ep) : (s.updEp a e f).regions = s.regions := rfl
@[simp] theorem updEp_serial (a e : Nat) (f : Ep → Ep) : (s.updEp a e f).serial = s.serial := rfl
@[simp] theorem updEp_stack (a e : Nat) (f : Ep → Ep) : (s.updEp a e f).stack = s.stack := rfl
@[simp] theorem updEp_stackErr (a e : Nat) (f : Ep → Ep) : (s.updEp a e f).stackErr = s.stackErr := rfl
@[simp] theorem updEp_odecc (a e : Nat) (f : Ep → Ep) : (s.updEp a e f).odecc = s.odecc := rfl
@[simp] theorem updEp_dir (a e : Nat) (f : Ep → Ep) : (s.updEp a e f).dir = s.dir := rfl
@[simp] theorem updEp_tables (a e : Nat) (f : Ep → Ep) : (s.updEp a e f).tables = s.tables := rfl
@[simp] theorem updEp_segs (a e : Nat) (f : Ep → Ep) : (s.updEp a e f).segs = s.segs := rfl
@[simp] theorem updEp_tblCmd (a e : Nat) (f : Ep → Ep) : (s.updEp a e f).tblCmd = s.tblCmd := rfl
@[simp] theorem updEp_resync (a e : Nat) (f : Ep → Ep) : (s.updEp a e f).resync = s.resync := rfl
@[simp] theorem updEp_cache (a e : Nat) (f : Ep → Ep) : (s.updEp a e f).cache = s.cache := rfl
@[simp] theorem updEp_fetch (a e : Nat) (f : Ep → Ep) : (s.updEp a e f).fetch = s.fetch := rfl
@[simp] theorem updEp_missed (a e : Nat) (f : Ep → Ep) : (s.updEp a e f).missed = s.missed := rfl
@[simp] theorem updEp_gathers (a e : Nat) (f : Ep → Ep) : (s.updEp a e f).gathers = s.gathers := rfl
@[simp] theorem updEp_nextGather (a e : Nat) (f : Ep → Ep) : (s.updEp a e f).nextGather = s.nextGather := rfl
@[simp] theorem updEp_hubWait (a e : Nat) (f : Ep → Ep) : (s.updEp a e f).hubWait = s.hubWait := rfl
@[simp] theorem updEp_hubUsed (a e : Nat) (f : Ep → Ep) : (s.updEp a e f).hubUsed = s.hubUsed := rfl
@[simp] theorem updEp_net (a e : Nat) (f : Ep → Ep) : (s.updEp a e f).net = s.net := rfl
@[simp] theorem updEp_reqs (a e : Nat) (f : Ep → Ep) : (s.updEp a e f).reqs = s.reqs := rfl
@[simp] theorem updEp_nextTag (a e : Nat) (f : Ep → Ep) : (s.updEp a e f).nextTag = s.nextTag := rfl
@[simp] theorem updEp_mcast (a e : Nat) (f : Ep → Ep) : (s.updEp a e f).mcast = s.mcast := rfl
@[simp] theorem updEp_redGroups (a e : Nat) (f : Ep → Ep) : (s.updEp a e f).redGroups = s.redGroups := rfl
@[simp] theorem updEp_rounds (a e : Nat) (f : Ep → Ep) : (s.updEp a e f).rounds = s.rounds := rfl
@[simp] theorem updEp_mesh (a e : Nat) (f : Ep → Ep) : (s.updEp a e f).mesh = s.mesh := rfl
@[simp] theorem updEp_localDead (a e : Nat) (f : Ep → Ep) : (s.updEp a e f).localDead = s.localDead := rfl
@[simp] theorem updEp_escTable (a e : Nat) (f : Ep → Ep) : (s.updEp a e f).escTable = s.escTable := rfl
@[simp] theorem updEp_changes (a e : Nat) (f : Ep → Ep) : (s.updEp a e f).changes = s.changes := rfl
@[simp] theorem updEp_mnMask (a e : Nat) (f : Ep → Ep) : (s.updEp a e f).mnMask = s.mnMask := rfl
@[simp] theorem updEp_mnGen (a e : Nat) (f : Ep → Ep) : (s.updEp a e f).mnGen = s.mnGen := rfl
@[simp] theorem updEp_maskSent (a e : Nat) (f : Ep → Ep) : (s.updEp a e f).maskSent = s.maskSent := rfl
@[simp] theorem updEp_rateAt (a e : Nat) (f : Ep → Ep) : (s.updEp a e f).rateAt = s.rateAt := rfl
@[simp] theorem updEp_holds (a e : Nat) (f : Ep → Ep) : (s.updEp a e f).holds = s.holds := rfl
@[simp] theorem updEp_buckets (a e : Nat) (f : Ep → Ep) : (s.updEp a e f).buckets = s.buckets := rfl
@[simp] theorem updEp_tc0Wait (a e : Nat) (f : Ep → Ep) : (s.updEp a e f).tc0Wait = s.tc0Wait := rfl
@[simp] theorem updEp_ticks (a e : Nat) (f : Ep → Ep) : (s.updEp a e f).ticks = s.ticks := rfl
@[simp] theorem updEp_field (a e : Nat) (f : Ep → Ep) : (s.updEp a e f).field = s.field := rfl
@[simp] theorem updEp_links (a e : Nat) (f : Ep → Ep) : (s.updEp a e f).links = s.links := rfl
@[simp] theorem updEp_time (a e : Nat) (f : Ep → Ep) : (s.updEp a e f).time = s.time := rfl
@[simp] theorem updEp_host (a e : Nat) (f : Ep → Ep) : (s.updEp a e f).host = s.host := rfl
@[simp] theorem updEp_boot (a e : Nat) (f : Ep → Ep) : (s.updEp a e f).boot = s.boot := rfl
@[simp] theorem updEp_faults (a e : Nat) (f : Ep → Ep) : (s.updEp a e f).faults = s.faults := rfl
@[simp] theorem updEp_power (a e : Nat) (f : Ep → Ep) : (s.updEp a e f).power = s.power := rfl
@[simp] theorem updEp_sit (a e : Nat) (f : Ep → Ep) : (s.updEp a e f).sit = s.sit := rfl
@[simp] theorem updEp_mon (a e : Nat) (f : Ep → Ep) : (s.updEp a e f).mon = s.mon := rfl
@[simp] theorem updEp_pins (a e : Nat) (f : Ep → Ep) : (s.updEp a e f).pins = s.pins := rfl
@[simp] theorem updEp_outs (a e : Nat) (f : Ep → Ep) : (s.updEp a e f).outs = s.outs := rfl
@[simp] theorem updEp_free (a e : Nat) (f : Ep → Ep) : (s.updEp a e f).free = s.free := rfl
@[simp] theorem updEp_pending (a e : Nat) (f : Ep → Ep) : (s.updEp a e f).pending = s.pending := rfl

/-! `setRegion` -/

@[simp] theorem setRegion_regs (l : Nat) (g : Region) : (s.setRegion l g).regs = s.regs := rfl
@[simp] theorem setRegion_mem (l : Nat) (g : Region) : (s.setRegion l g).mem = s.mem := rfl
@[simp] theorem setRegion_flips (l : Nat) (g : Region) : (s.setRegion l g).flips = s.flips := rfl
@[simp] theorem setRegion_denyAt (l : Nat) (g : Region) : (s.setRegion l g).denyAt = s.denyAt := rfl
@[simp] theorem setRegion_arrays (l : Nat) (g : Region) : (s.setRegion l g).arrays = s.arrays := rfl
@[simp] theorem setRegion_tokens (l : Nat) (g : Region) : (s.setRegion l g).tokens = s.tokens := rfl
@[simp] theorem setRegion_serial (l : Nat) (g : Region) : (s.setRegion l g).serial = s.serial := rfl
@[simp] theorem setRegion_eps (l : Nat) (g : Region) : (s.setRegion l g).eps = s.eps := rfl
@[simp] theorem setRegion_stack (l : Nat) (g : Region) : (s.setRegion l g).stack = s.stack := rfl
@[simp] theorem setRegion_stackErr (l : Nat) (g : Region) : (s.setRegion l g).stackErr = s.stackErr := rfl
@[simp] theorem setRegion_odecc (l : Nat) (g : Region) : (s.setRegion l g).odecc = s.odecc := rfl
@[simp] theorem setRegion_dir (l : Nat) (g : Region) : (s.setRegion l g).dir = s.dir := rfl
@[simp] theorem setRegion_tables (l : Nat) (g : Region) : (s.setRegion l g).tables = s.tables := rfl
@[simp] theorem setRegion_segs (l : Nat) (g : Region) : (s.setRegion l g).segs = s.segs := rfl
@[simp] theorem setRegion_tblCmd (l : Nat) (g : Region) : (s.setRegion l g).tblCmd = s.tblCmd := rfl
@[simp] theorem setRegion_resync (l : Nat) (g : Region) : (s.setRegion l g).resync = s.resync := rfl
@[simp] theorem setRegion_cache (l : Nat) (g : Region) : (s.setRegion l g).cache = s.cache := rfl
@[simp] theorem setRegion_fetch (l : Nat) (g : Region) : (s.setRegion l g).fetch = s.fetch := rfl
@[simp] theorem setRegion_missed (l : Nat) (g : Region) : (s.setRegion l g).missed = s.missed := rfl
@[simp] theorem setRegion_gathers (l : Nat) (g : Region) : (s.setRegion l g).gathers = s.gathers := rfl
@[simp] theorem setRegion_nextGather (l : Nat) (g : Region) : (s.setRegion l g).nextGather = s.nextGather := rfl
@[simp] theorem setRegion_hubWait (l : Nat) (g : Region) : (s.setRegion l g).hubWait = s.hubWait := rfl
@[simp] theorem setRegion_hubUsed (l : Nat) (g : Region) : (s.setRegion l g).hubUsed = s.hubUsed := rfl
@[simp] theorem setRegion_net (l : Nat) (g : Region) : (s.setRegion l g).net = s.net := rfl
@[simp] theorem setRegion_reqs (l : Nat) (g : Region) : (s.setRegion l g).reqs = s.reqs := rfl
@[simp] theorem setRegion_nextTag (l : Nat) (g : Region) : (s.setRegion l g).nextTag = s.nextTag := rfl
@[simp] theorem setRegion_mcast (l : Nat) (g : Region) : (s.setRegion l g).mcast = s.mcast := rfl
@[simp] theorem setRegion_redGroups (l : Nat) (g : Region) : (s.setRegion l g).redGroups = s.redGroups := rfl
@[simp] theorem setRegion_rounds (l : Nat) (g : Region) : (s.setRegion l g).rounds = s.rounds := rfl
@[simp] theorem setRegion_mesh (l : Nat) (g : Region) : (s.setRegion l g).mesh = s.mesh := rfl
@[simp] theorem setRegion_localDead (l : Nat) (g : Region) : (s.setRegion l g).localDead = s.localDead := rfl
@[simp] theorem setRegion_escTable (l : Nat) (g : Region) : (s.setRegion l g).escTable = s.escTable := rfl
@[simp] theorem setRegion_changes (l : Nat) (g : Region) : (s.setRegion l g).changes = s.changes := rfl
@[simp] theorem setRegion_mnMask (l : Nat) (g : Region) : (s.setRegion l g).mnMask = s.mnMask := rfl
@[simp] theorem setRegion_mnGen (l : Nat) (g : Region) : (s.setRegion l g).mnGen = s.mnGen := rfl
@[simp] theorem setRegion_maskSent (l : Nat) (g : Region) : (s.setRegion l g).maskSent = s.maskSent := rfl
@[simp] theorem setRegion_rateAt (l : Nat) (g : Region) : (s.setRegion l g).rateAt = s.rateAt := rfl
@[simp] theorem setRegion_holds (l : Nat) (g : Region) : (s.setRegion l g).holds = s.holds := rfl
@[simp] theorem setRegion_buckets (l : Nat) (g : Region) : (s.setRegion l g).buckets = s.buckets := rfl
@[simp] theorem setRegion_tc0Wait (l : Nat) (g : Region) : (s.setRegion l g).tc0Wait = s.tc0Wait := rfl
@[simp] theorem setRegion_ticks (l : Nat) (g : Region) : (s.setRegion l g).ticks = s.ticks := rfl
@[simp] theorem setRegion_field (l : Nat) (g : Region) : (s.setRegion l g).field = s.field := rfl
@[simp] theorem setRegion_links (l : Nat) (g : Region) : (s.setRegion l g).links = s.links := rfl
@[simp] theorem setRegion_time (l : Nat) (g : Region) : (s.setRegion l g).time = s.time := rfl
@[simp] theorem setRegion_host (l : Nat) (g : Region) : (s.setRegion l g).host = s.host := rfl
@[simp] theorem setRegion_boot (l : Nat) (g : Region) : (s.setRegion l g).boot = s.boot := rfl
@[simp] theorem setRegion_faults (l : Nat) (g : Region) : (s.setRegion l g).faults = s.faults := rfl
@[simp] theorem setRegion_power (l : Nat) (g : Region) : (s.setRegion l g).power = s.power := rfl
@[simp] theorem setRegion_sit (l : Nat) (g : Region) : (s.setRegion l g).sit = s.sit := rfl
@[simp] theorem setRegion_mon (l : Nat) (g : Region) : (s.setRegion l g).mon = s.mon := rfl
@[simp] theorem setRegion_pins (l : Nat) (g : Region) : (s.setRegion l g).pins = s.pins := rfl
@[simp] theorem setRegion_outs (l : Nat) (g : Region) : (s.setRegion l g).outs = s.outs := rfl
@[simp] theorem setRegion_free (l : Nat) (g : Region) : (s.setRegion l g).free = s.free := rfl
@[simp] theorem setRegion_pending (l : Nat) (g : Region) : (s.setRegion l g).pending = s.pending := rfl

/-! `setPort` -/

@[simp] theorem setPort_regs (p : Nat) (x : HostPort) : (s.setPort p x).regs = s.regs := rfl
@[simp] theorem setPort_mem (p : Nat) (x : HostPort) : (s.setPort p x).mem = s.mem := rfl
@[simp] theorem setPort_flips (p : Nat) (x : HostPort) : (s.setPort p x).flips = s.flips := rfl
@[simp] theorem setPort_denyAt (p : Nat) (x : HostPort) : (s.setPort p x).denyAt = s.denyAt := rfl
@[simp] theorem setPort_arrays (p : Nat) (x : HostPort) : (s.setPort p x).arrays = s.arrays := rfl
@[simp] theorem setPort_tokens (p : Nat) (x : HostPort) : (s.setPort p x).tokens = s.tokens := rfl
@[simp] theorem setPort_regions (p : Nat) (x : HostPort) : (s.setPort p x).regions = s.regions := rfl
@[simp] theorem setPort_serial (p : Nat) (x : HostPort) : (s.setPort p x).serial = s.serial := rfl
@[simp] theorem setPort_eps (p : Nat) (x : HostPort) : (s.setPort p x).eps = s.eps := rfl
@[simp] theorem setPort_stack (p : Nat) (x : HostPort) : (s.setPort p x).stack = s.stack := rfl
@[simp] theorem setPort_stackErr (p : Nat) (x : HostPort) : (s.setPort p x).stackErr = s.stackErr := rfl
@[simp] theorem setPort_odecc (p : Nat) (x : HostPort) : (s.setPort p x).odecc = s.odecc := rfl
@[simp] theorem setPort_dir (p : Nat) (x : HostPort) : (s.setPort p x).dir = s.dir := rfl
@[simp] theorem setPort_tables (p : Nat) (x : HostPort) : (s.setPort p x).tables = s.tables := rfl
@[simp] theorem setPort_segs (p : Nat) (x : HostPort) : (s.setPort p x).segs = s.segs := rfl
@[simp] theorem setPort_tblCmd (p : Nat) (x : HostPort) : (s.setPort p x).tblCmd = s.tblCmd := rfl
@[simp] theorem setPort_resync (p : Nat) (x : HostPort) : (s.setPort p x).resync = s.resync := rfl
@[simp] theorem setPort_cache (p : Nat) (x : HostPort) : (s.setPort p x).cache = s.cache := rfl
@[simp] theorem setPort_fetch (p : Nat) (x : HostPort) : (s.setPort p x).fetch = s.fetch := rfl
@[simp] theorem setPort_missed (p : Nat) (x : HostPort) : (s.setPort p x).missed = s.missed := rfl
@[simp] theorem setPort_gathers (p : Nat) (x : HostPort) : (s.setPort p x).gathers = s.gathers := rfl
@[simp] theorem setPort_nextGather (p : Nat) (x : HostPort) : (s.setPort p x).nextGather = s.nextGather := rfl
@[simp] theorem setPort_hubWait (p : Nat) (x : HostPort) : (s.setPort p x).hubWait = s.hubWait := rfl
@[simp] theorem setPort_hubUsed (p : Nat) (x : HostPort) : (s.setPort p x).hubUsed = s.hubUsed := rfl
@[simp] theorem setPort_net (p : Nat) (x : HostPort) : (s.setPort p x).net = s.net := rfl
@[simp] theorem setPort_reqs (p : Nat) (x : HostPort) : (s.setPort p x).reqs = s.reqs := rfl
@[simp] theorem setPort_nextTag (p : Nat) (x : HostPort) : (s.setPort p x).nextTag = s.nextTag := rfl
@[simp] theorem setPort_mcast (p : Nat) (x : HostPort) : (s.setPort p x).mcast = s.mcast := rfl
@[simp] theorem setPort_redGroups (p : Nat) (x : HostPort) : (s.setPort p x).redGroups = s.redGroups := rfl
@[simp] theorem setPort_rounds (p : Nat) (x : HostPort) : (s.setPort p x).rounds = s.rounds := rfl
@[simp] theorem setPort_mesh (p : Nat) (x : HostPort) : (s.setPort p x).mesh = s.mesh := rfl
@[simp] theorem setPort_localDead (p : Nat) (x : HostPort) : (s.setPort p x).localDead = s.localDead := rfl
@[simp] theorem setPort_escTable (p : Nat) (x : HostPort) : (s.setPort p x).escTable = s.escTable := rfl
@[simp] theorem setPort_changes (p : Nat) (x : HostPort) : (s.setPort p x).changes = s.changes := rfl
@[simp] theorem setPort_mnMask (p : Nat) (x : HostPort) : (s.setPort p x).mnMask = s.mnMask := rfl
@[simp] theorem setPort_mnGen (p : Nat) (x : HostPort) : (s.setPort p x).mnGen = s.mnGen := rfl
@[simp] theorem setPort_maskSent (p : Nat) (x : HostPort) : (s.setPort p x).maskSent = s.maskSent := rfl
@[simp] theorem setPort_rateAt (p : Nat) (x : HostPort) : (s.setPort p x).rateAt = s.rateAt := rfl
@[simp] theorem setPort_holds (p : Nat) (x : HostPort) : (s.setPort p x).holds = s.holds := rfl
@[simp] theorem setPort_buckets (p : Nat) (x : HostPort) : (s.setPort p x).buckets = s.buckets := rfl
@[simp] theorem setPort_tc0Wait (p : Nat) (x : HostPort) : (s.setPort p x).tc0Wait = s.tc0Wait := rfl
@[simp] theorem setPort_ticks (p : Nat) (x : HostPort) : (s.setPort p x).ticks = s.ticks := rfl
@[simp] theorem setPort_field (p : Nat) (x : HostPort) : (s.setPort p x).field = s.field := rfl
@[simp] theorem setPort_links (p : Nat) (x : HostPort) : (s.setPort p x).links = s.links := rfl
@[simp] theorem setPort_time (p : Nat) (x : HostPort) : (s.setPort p x).time = s.time := rfl
@[simp] theorem setPort_boot (p : Nat) (x : HostPort) : (s.setPort p x).boot = s.boot := rfl
@[simp] theorem setPort_faults (p : Nat) (x : HostPort) : (s.setPort p x).faults = s.faults := rfl
@[simp] theorem setPort_power (p : Nat) (x : HostPort) : (s.setPort p x).power = s.power := rfl
@[simp] theorem setPort_sit (p : Nat) (x : HostPort) : (s.setPort p x).sit = s.sit := rfl
@[simp] theorem setPort_mon (p : Nat) (x : HostPort) : (s.setPort p x).mon = s.mon := rfl
@[simp] theorem setPort_pins (p : Nat) (x : HostPort) : (s.setPort p x).pins = s.pins := rfl
@[simp] theorem setPort_outs (p : Nat) (x : HostPort) : (s.setPort p x).outs = s.outs := rfl
@[simp] theorem setPort_free (p : Nat) (x : HostPort) : (s.setPort p x).free = s.free := rfl
@[simp] theorem setPort_pending (p : Nat) (x : HostPort) : (s.setPort p x).pending = s.pending := rfl

/-! `updPort` -/

@[simp] theorem updPort_regs (p : Nat) (f : HostPort → HostPort) : (s.updPort p f).regs = s.regs := rfl
@[simp] theorem updPort_mem (p : Nat) (f : HostPort → HostPort) : (s.updPort p f).mem = s.mem := rfl
@[simp] theorem updPort_flips (p : Nat) (f : HostPort → HostPort) : (s.updPort p f).flips = s.flips := rfl
@[simp] theorem updPort_denyAt (p : Nat) (f : HostPort → HostPort) : (s.updPort p f).denyAt = s.denyAt := rfl
@[simp] theorem updPort_arrays (p : Nat) (f : HostPort → HostPort) : (s.updPort p f).arrays = s.arrays := rfl
@[simp] theorem updPort_tokens (p : Nat) (f : HostPort → HostPort) : (s.updPort p f).tokens = s.tokens := rfl
@[simp] theorem updPort_regions (p : Nat) (f : HostPort → HostPort) : (s.updPort p f).regions = s.regions := rfl
@[simp] theorem updPort_serial (p : Nat) (f : HostPort → HostPort) : (s.updPort p f).serial = s.serial := rfl
@[simp] theorem updPort_eps (p : Nat) (f : HostPort → HostPort) : (s.updPort p f).eps = s.eps := rfl
@[simp] theorem updPort_stack (p : Nat) (f : HostPort → HostPort) : (s.updPort p f).stack = s.stack := rfl
@[simp] theorem updPort_stackErr (p : Nat) (f : HostPort → HostPort) : (s.updPort p f).stackErr = s.stackErr := rfl
@[simp] theorem updPort_odecc (p : Nat) (f : HostPort → HostPort) : (s.updPort p f).odecc = s.odecc := rfl
@[simp] theorem updPort_dir (p : Nat) (f : HostPort → HostPort) : (s.updPort p f).dir = s.dir := rfl
@[simp] theorem updPort_tables (p : Nat) (f : HostPort → HostPort) : (s.updPort p f).tables = s.tables := rfl
@[simp] theorem updPort_segs (p : Nat) (f : HostPort → HostPort) : (s.updPort p f).segs = s.segs := rfl
@[simp] theorem updPort_tblCmd (p : Nat) (f : HostPort → HostPort) : (s.updPort p f).tblCmd = s.tblCmd := rfl
@[simp] theorem updPort_resync (p : Nat) (f : HostPort → HostPort) : (s.updPort p f).resync = s.resync := rfl
@[simp] theorem updPort_cache (p : Nat) (f : HostPort → HostPort) : (s.updPort p f).cache = s.cache := rfl
@[simp] theorem updPort_fetch (p : Nat) (f : HostPort → HostPort) : (s.updPort p f).fetch = s.fetch := rfl
@[simp] theorem updPort_missed (p : Nat) (f : HostPort → HostPort) : (s.updPort p f).missed = s.missed := rfl
@[simp] theorem updPort_gathers (p : Nat) (f : HostPort → HostPort) : (s.updPort p f).gathers = s.gathers := rfl
@[simp] theorem updPort_nextGather (p : Nat) (f : HostPort → HostPort) : (s.updPort p f).nextGather = s.nextGather := rfl
@[simp] theorem updPort_hubWait (p : Nat) (f : HostPort → HostPort) : (s.updPort p f).hubWait = s.hubWait := rfl
@[simp] theorem updPort_hubUsed (p : Nat) (f : HostPort → HostPort) : (s.updPort p f).hubUsed = s.hubUsed := rfl
@[simp] theorem updPort_net (p : Nat) (f : HostPort → HostPort) : (s.updPort p f).net = s.net := rfl
@[simp] theorem updPort_reqs (p : Nat) (f : HostPort → HostPort) : (s.updPort p f).reqs = s.reqs := rfl
@[simp] theorem updPort_nextTag (p : Nat) (f : HostPort → HostPort) : (s.updPort p f).nextTag = s.nextTag := rfl
@[simp] theorem updPort_mcast (p : Nat) (f : HostPort → HostPort) : (s.updPort p f).mcast = s.mcast := rfl
@[simp] theorem updPort_redGroups (p : Nat) (f : HostPort → HostPort) : (s.updPort p f).redGroups = s.redGroups := rfl
@[simp] theorem updPort_rounds (p : Nat) (f : HostPort → HostPort) : (s.updPort p f).rounds = s.rounds := rfl
@[simp] theorem updPort_mesh (p : Nat) (f : HostPort → HostPort) : (s.updPort p f).mesh = s.mesh := rfl
@[simp] theorem updPort_localDead (p : Nat) (f : HostPort → HostPort) : (s.updPort p f).localDead = s.localDead := rfl
@[simp] theorem updPort_escTable (p : Nat) (f : HostPort → HostPort) : (s.updPort p f).escTable = s.escTable := rfl
@[simp] theorem updPort_changes (p : Nat) (f : HostPort → HostPort) : (s.updPort p f).changes = s.changes := rfl
@[simp] theorem updPort_mnMask (p : Nat) (f : HostPort → HostPort) : (s.updPort p f).mnMask = s.mnMask := rfl
@[simp] theorem updPort_mnGen (p : Nat) (f : HostPort → HostPort) : (s.updPort p f).mnGen = s.mnGen := rfl
@[simp] theorem updPort_maskSent (p : Nat) (f : HostPort → HostPort) : (s.updPort p f).maskSent = s.maskSent := rfl
@[simp] theorem updPort_rateAt (p : Nat) (f : HostPort → HostPort) : (s.updPort p f).rateAt = s.rateAt := rfl
@[simp] theorem updPort_holds (p : Nat) (f : HostPort → HostPort) : (s.updPort p f).holds = s.holds := rfl
@[simp] theorem updPort_buckets (p : Nat) (f : HostPort → HostPort) : (s.updPort p f).buckets = s.buckets := rfl
@[simp] theorem updPort_tc0Wait (p : Nat) (f : HostPort → HostPort) : (s.updPort p f).tc0Wait = s.tc0Wait := rfl
@[simp] theorem updPort_ticks (p : Nat) (f : HostPort → HostPort) : (s.updPort p f).ticks = s.ticks := rfl
@[simp] theorem updPort_field (p : Nat) (f : HostPort → HostPort) : (s.updPort p f).field = s.field := rfl
@[simp] theorem updPort_links (p : Nat) (f : HostPort → HostPort) : (s.updPort p f).links = s.links := rfl
@[simp] theorem updPort_time (p : Nat) (f : HostPort → HostPort) : (s.updPort p f).time = s.time := rfl
@[simp] theorem updPort_boot (p : Nat) (f : HostPort → HostPort) : (s.updPort p f).boot = s.boot := rfl
@[simp] theorem updPort_faults (p : Nat) (f : HostPort → HostPort) : (s.updPort p f).faults = s.faults := rfl
@[simp] theorem updPort_power (p : Nat) (f : HostPort → HostPort) : (s.updPort p f).power = s.power := rfl
@[simp] theorem updPort_sit (p : Nat) (f : HostPort → HostPort) : (s.updPort p f).sit = s.sit := rfl
@[simp] theorem updPort_mon (p : Nat) (f : HostPort → HostPort) : (s.updPort p f).mon = s.mon := rfl
@[simp] theorem updPort_pins (p : Nat) (f : HostPort → HostPort) : (s.updPort p f).pins = s.pins := rfl
@[simp] theorem updPort_outs (p : Nat) (f : HostPort → HostPort) : (s.updPort p f).outs = s.outs := rfl
@[simp] theorem updPort_free (p : Nat) (f : HostPort → HostPort) : (s.updPort p f).free = s.free := rfl
@[simp] theorem updPort_pending (p : Nat) (f : HostPort → HostPort) : (s.updPort p f).pending = s.pending := rfl

/-! `updDescr` -/

@[simp] theorem updDescr_regs (i : DId) (f : FDescr → FDescr) : (s.updDescr i f).regs = s.regs := rfl
@[simp] theorem updDescr_mem (i : DId) (f : FDescr → FDescr) : (s.updDescr i f).mem = s.mem := rfl
@[simp] theorem updDescr_flips (i : DId) (f : FDescr → FDescr) : (s.updDescr i f).flips = s.flips := rfl
@[simp] theorem updDescr_denyAt (i : DId) (f : FDescr → FDescr) : (s.updDescr i f).denyAt = s.denyAt := rfl
@[simp] theorem updDescr_arrays (i : DId) (f : FDescr → FDescr) : (s.updDescr i f).arrays = s.arrays := rfl
@[simp] theorem updDescr_tokens (i : DId) (f : FDescr → FDescr) : (s.updDescr i f).tokens = s.tokens := rfl
@[simp] theorem updDescr_regions (i : DId) (f : FDescr → FDescr) : (s.updDescr i f).regions = s.regions := rfl
@[simp] theorem updDescr_serial (i : DId) (f : FDescr → FDescr) : (s.updDescr i f).serial = s.serial := rfl
@[simp] theorem updDescr_eps (i : DId) (f : FDescr → FDescr) : (s.updDescr i f).eps = s.eps := rfl
@[simp] theorem updDescr_stack (i : DId) (f : FDescr → FDescr) : (s.updDescr i f).stack = s.stack := rfl
@[simp] theorem updDescr_stackErr (i : DId) (f : FDescr → FDescr) : (s.updDescr i f).stackErr = s.stackErr := rfl
@[simp] theorem updDescr_odecc (i : DId) (f : FDescr → FDescr) : (s.updDescr i f).odecc = s.odecc := rfl
@[simp] theorem updDescr_dir (i : DId) (f : FDescr → FDescr) : (s.updDescr i f).dir = s.dir := rfl
@[simp] theorem updDescr_tables (i : DId) (f : FDescr → FDescr) : (s.updDescr i f).tables = s.tables := rfl
@[simp] theorem updDescr_segs (i : DId) (f : FDescr → FDescr) : (s.updDescr i f).segs = s.segs := rfl
@[simp] theorem updDescr_tblCmd (i : DId) (f : FDescr → FDescr) : (s.updDescr i f).tblCmd = s.tblCmd := rfl
@[simp] theorem updDescr_resync (i : DId) (f : FDescr → FDescr) : (s.updDescr i f).resync = s.resync := rfl
@[simp] theorem updDescr_cache (i : DId) (f : FDescr → FDescr) : (s.updDescr i f).cache = s.cache := rfl
@[simp] theorem updDescr_fetch (i : DId) (f : FDescr → FDescr) : (s.updDescr i f).fetch = s.fetch := rfl
@[simp] theorem updDescr_missed (i : DId) (f : FDescr → FDescr) : (s.updDescr i f).missed = s.missed := rfl
@[simp] theorem updDescr_gathers (i : DId) (f : FDescr → FDescr) : (s.updDescr i f).gathers = s.gathers := rfl
@[simp] theorem updDescr_nextGather (i : DId) (f : FDescr → FDescr) : (s.updDescr i f).nextGather = s.nextGather := rfl
@[simp] theorem updDescr_hubWait (i : DId) (f : FDescr → FDescr) : (s.updDescr i f).hubWait = s.hubWait := rfl
@[simp] theorem updDescr_hubUsed (i : DId) (f : FDescr → FDescr) : (s.updDescr i f).hubUsed = s.hubUsed := rfl
@[simp] theorem updDescr_net (i : DId) (f : FDescr → FDescr) : (s.updDescr i f).net = s.net := rfl
@[simp] theorem updDescr_reqs (i : DId) (f : FDescr → FDescr) : (s.updDescr i f).reqs = s.reqs := rfl
@[simp] theorem updDescr_nextTag (i : DId) (f : FDescr → FDescr) : (s.updDescr i f).nextTag = s.nextTag := rfl
@[simp] theorem updDescr_mcast (i : DId) (f : FDescr → FDescr) : (s.updDescr i f).mcast = s.mcast := rfl
@[simp] theorem updDescr_redGroups (i : DId) (f : FDescr → FDescr) : (s.updDescr i f).redGroups = s.redGroups := rfl
@[simp] theorem updDescr_rounds (i : DId) (f : FDescr → FDescr) : (s.updDescr i f).rounds = s.rounds := rfl
@[simp] theorem updDescr_mesh (i : DId) (f : FDescr → FDescr) : (s.updDescr i f).mesh = s.mesh := rfl
@[simp] theorem updDescr_localDead (i : DId) (f : FDescr → FDescr) : (s.updDescr i f).localDead = s.localDead := rfl
@[simp] theorem updDescr_escTable (i : DId) (f : FDescr → FDescr) : (s.updDescr i f).escTable = s.escTable := rfl
@[simp] theorem updDescr_changes (i : DId) (f : FDescr → FDescr) : (s.updDescr i f).changes = s.changes := rfl
@[simp] theorem updDescr_mnMask (i : DId) (f : FDescr → FDescr) : (s.updDescr i f).mnMask = s.mnMask := rfl
@[simp] theorem updDescr_mnGen (i : DId) (f : FDescr → FDescr) : (s.updDescr i f).mnGen = s.mnGen := rfl
@[simp] theorem updDescr_maskSent (i : DId) (f : FDescr → FDescr) : (s.updDescr i f).maskSent = s.maskSent := rfl
@[simp] theorem updDescr_rateAt (i : DId) (f : FDescr → FDescr) : (s.updDescr i f).rateAt = s.rateAt := rfl
@[simp] theorem updDescr_holds (i : DId) (f : FDescr → FDescr) : (s.updDescr i f).holds = s.holds := rfl
@[simp] theorem updDescr_buckets (i : DId) (f : FDescr → FDescr) : (s.updDescr i f).buckets = s.buckets := rfl
@[simp] theorem updDescr_tc0Wait (i : DId) (f : FDescr → FDescr) : (s.updDescr i f).tc0Wait = s.tc0Wait := rfl
@[simp] theorem updDescr_ticks (i : DId) (f : FDescr → FDescr) : (s.updDescr i f).ticks = s.ticks := rfl
@[simp] theorem updDescr_field (i : DId) (f : FDescr → FDescr) : (s.updDescr i f).field = s.field := rfl
@[simp] theorem updDescr_links (i : DId) (f : FDescr → FDescr) : (s.updDescr i f).links = s.links := rfl
@[simp] theorem updDescr_time (i : DId) (f : FDescr → FDescr) : (s.updDescr i f).time = s.time := rfl
@[simp] theorem updDescr_boot (i : DId) (f : FDescr → FDescr) : (s.updDescr i f).boot = s.boot := rfl
@[simp] theorem updDescr_faults (i : DId) (f : FDescr → FDescr) : (s.updDescr i f).faults = s.faults := rfl
@[simp] theorem updDescr_power (i : DId) (f : FDescr → FDescr) : (s.updDescr i f).power = s.power := rfl
@[simp] theorem updDescr_sit (i : DId) (f : FDescr → FDescr) : (s.updDescr i f).sit = s.sit := rfl
@[simp] theorem updDescr_mon (i : DId) (f : FDescr → FDescr) : (s.updDescr i f).mon = s.mon := rfl
@[simp] theorem updDescr_pins (i : DId) (f : FDescr → FDescr) : (s.updDescr i f).pins = s.pins := rfl
@[simp] theorem updDescr_outs (i : DId) (f : FDescr → FDescr) : (s.updDescr i f).outs = s.outs := rfl
@[simp] theorem updDescr_free (i : DId) (f : FDescr → FDescr) : (s.updDescr i f).free = s.free := rfl
@[simp] theorem updDescr_pending (i : DId) (f : FDescr → FDescr) : (s.updDescr i f).pending = s.pending := rfl

/-! `setBoot` -/

@[simp] theorem setBoot_regs (f : BootState → BootState) : (s.setBoot f).regs = s.regs := rfl
@[simp] theorem setBoot_mem (f : BootState → BootState) : (s.setBoot f).mem = s.mem := rfl
@[simp] theorem setBoot_flips (f : BootState → BootState) : (s.setBoot f).flips = s.flips := rfl
@[simp] theorem setBoot_denyAt (f : BootState → BootState) : (s.setBoot f).denyAt = s.denyAt := rfl
@[simp] theorem setBoot_arrays (f : BootState → BootState) : (s.setBoot f).arrays = s.arrays := rfl
@[simp] theorem setBoot_tokens (f : BootState → BootState) : (s.setBoot f).tokens = s.tokens := rfl
@[simp] theorem setBoot_regions (f : BootState → BootState) : (s.setBoot f).regions = s.regions := rfl
@[simp] theorem setBoot_serial (f : BootState → BootState) : (s.setBoot f).serial = s.serial := rfl
@[simp] theorem setBoot_eps (f : BootState → BootState) : (s.setBoot f).eps = s.eps := rfl
@[simp] theorem setBoot_stack (f : BootState → BootState) : (s.setBoot f).stack = s.stack := rfl
@[simp] theorem setBoot_stackErr (f : BootState → BootState) : (s.setBoot f).stackErr = s.stackErr := rfl
@[simp] theorem setBoot_odecc (f : BootState → BootState) : (s.setBoot f).odecc = s.odecc := rfl
@[simp] theorem setBoot_dir (f : BootState → BootState) : (s.setBoot f).dir = s.dir := rfl
@[simp] theorem setBoot_tables (f : BootState → BootState) : (s.setBoot f).tables = s.tables := rfl
@[simp] theorem setBoot_segs (f : BootState → BootState) : (s.setBoot f).segs = s.segs := rfl
@[simp] theorem setBoot_tblCmd (f : BootState → BootState) : (s.setBoot f).tblCmd = s.tblCmd := rfl
@[simp] theorem setBoot_resync (f : BootState → BootState) : (s.setBoot f).resync = s.resync := rfl
@[simp] theorem setBoot_cache (f : BootState → BootState) : (s.setBoot f).cache = s.cache := rfl
@[simp] theorem setBoot_fetch (f : BootState → BootState) : (s.setBoot f).fetch = s.fetch := rfl
@[simp] theorem setBoot_missed (f : BootState → BootState) : (s.setBoot f).missed = s.missed := rfl
@[simp] theorem setBoot_gathers (f : BootState → BootState) : (s.setBoot f).gathers = s.gathers := rfl
@[simp] theorem setBoot_nextGather (f : BootState → BootState) : (s.setBoot f).nextGather = s.nextGather := rfl
@[simp] theorem setBoot_hubWait (f : BootState → BootState) : (s.setBoot f).hubWait = s.hubWait := rfl
@[simp] theorem setBoot_hubUsed (f : BootState → BootState) : (s.setBoot f).hubUsed = s.hubUsed := rfl
@[simp] theorem setBoot_net (f : BootState → BootState) : (s.setBoot f).net = s.net := rfl
@[simp] theorem setBoot_reqs (f : BootState → BootState) : (s.setBoot f).reqs = s.reqs := rfl
@[simp] theorem setBoot_nextTag (f : BootState → BootState) : (s.setBoot f).nextTag = s.nextTag := rfl
@[simp] theorem setBoot_mcast (f : BootState → BootState) : (s.setBoot f).mcast = s.mcast := rfl
@[simp] theorem setBoot_redGroups (f : BootState → BootState) : (s.setBoot f).redGroups = s.redGroups := rfl
@[simp] theorem setBoot_rounds (f : BootState → BootState) : (s.setBoot f).rounds = s.rounds := rfl
@[simp] theorem setBoot_mesh (f : BootState → BootState) : (s.setBoot f).mesh = s.mesh := rfl
@[simp] theorem setBoot_localDead (f : BootState → BootState) : (s.setBoot f).localDead = s.localDead := rfl
@[simp] theorem setBoot_escTable (f : BootState → BootState) : (s.setBoot f).escTable = s.escTable := rfl
@[simp] theorem setBoot_changes (f : BootState → BootState) : (s.setBoot f).changes = s.changes := rfl
@[simp] theorem setBoot_mnMask (f : BootState → BootState) : (s.setBoot f).mnMask = s.mnMask := rfl
@[simp] theorem setBoot_mnGen (f : BootState → BootState) : (s.setBoot f).mnGen = s.mnGen := rfl
@[simp] theorem setBoot_maskSent (f : BootState → BootState) : (s.setBoot f).maskSent = s.maskSent := rfl
@[simp] theorem setBoot_rateAt (f : BootState → BootState) : (s.setBoot f).rateAt = s.rateAt := rfl
@[simp] theorem setBoot_holds (f : BootState → BootState) : (s.setBoot f).holds = s.holds := rfl
@[simp] theorem setBoot_buckets (f : BootState → BootState) : (s.setBoot f).buckets = s.buckets := rfl
@[simp] theorem setBoot_tc0Wait (f : BootState → BootState) : (s.setBoot f).tc0Wait = s.tc0Wait := rfl
@[simp] theorem setBoot_ticks (f : BootState → BootState) : (s.setBoot f).ticks = s.ticks := rfl
@[simp] theorem setBoot_field (f : BootState → BootState) : (s.setBoot f).field = s.field := rfl
@[simp] theorem setBoot_links (f : BootState → BootState) : (s.setBoot f).links = s.links := rfl
@[simp] theorem setBoot_time (f : BootState → BootState) : (s.setBoot f).time = s.time := rfl
@[simp] theorem setBoot_host (f : BootState → BootState) : (s.setBoot f).host = s.host := rfl
@[simp] theorem setBoot_faults (f : BootState → BootState) : (s.setBoot f).faults = s.faults := rfl
@[simp] theorem setBoot_power (f : BootState → BootState) : (s.setBoot f).power = s.power := rfl
@[simp] theorem setBoot_sit (f : BootState → BootState) : (s.setBoot f).sit = s.sit := rfl
@[simp] theorem setBoot_mon (f : BootState → BootState) : (s.setBoot f).mon = s.mon := rfl
@[simp] theorem setBoot_pins (f : BootState → BootState) : (s.setBoot f).pins = s.pins := rfl
@[simp] theorem setBoot_outs (f : BootState → BootState) : (s.setBoot f).outs = s.outs := rfl
@[simp] theorem setBoot_free (f : BootState → BootState) : (s.setBoot f).free = s.free := rfl
@[simp] theorem setBoot_pending (f : BootState → BootState) : (s.setBoot f).pending = s.pending := rfl

/-! `setSit` -/

@[simp] theorem setSit_regs (f : SitState → SitState) : (s.setSit f).regs = s.regs := rfl
@[simp] theorem setSit_mem (f : SitState → SitState) : (s.setSit f).mem = s.mem := rfl
@[simp] theorem setSit_flips (f : SitState → SitState) : (s.setSit f).flips = s.flips := rfl
@[simp] theorem setSit_denyAt (f : SitState → SitState) : (s.setSit f).denyAt = s.denyAt := rfl
@[simp] theorem setSit_arrays (f : SitState → SitState) : (s.setSit f).arrays = s.arrays := rfl
@[simp] theorem setSit_tokens (f : SitState → SitState) : (s.setSit f).tokens = s.tokens := rfl
@[simp] theorem setSit_regions (f : SitState → SitState) : (s.setSit f).regions = s.regions := rfl
@[simp] theorem setSit_serial (f : SitState → SitState) : (s.setSit f).serial = s.serial := rfl
@[simp] theorem setSit_eps (f : SitState → SitState) : (s.setSit f).eps = s.eps := rfl
@[simp] theorem setSit_stack (f : SitState → SitState) : (s.setSit f).stack = s.stack := rfl
@[simp] theorem setSit_stackErr (f : SitState → SitState) : (s.setSit f).stackErr = s.stackErr := rfl
@[simp] theorem setSit_odecc (f : SitState → SitState) : (s.setSit f).odecc = s.odecc := rfl
@[simp] theorem setSit_dir (f : SitState → SitState) : (s.setSit f).dir = s.dir := rfl
@[simp] theorem setSit_tables (f : SitState → SitState) : (s.setSit f).tables = s.tables := rfl
@[simp] theorem setSit_segs (f : SitState → SitState) : (s.setSit f).segs = s.segs := rfl
@[simp] theorem setSit_tblCmd (f : SitState → SitState) : (s.setSit f).tblCmd = s.tblCmd := rfl
@[simp] theorem setSit_resync (f : SitState → SitState) : (s.setSit f).resync = s.resync := rfl
@[simp] theorem setSit_cache (f : SitState → SitState) : (s.setSit f).cache = s.cache := rfl
@[simp] theorem setSit_fetch (f : SitState → SitState) : (s.setSit f).fetch = s.fetch := rfl
@[simp] theorem setSit_missed (f : SitState → SitState) : (s.setSit f).missed = s.missed := rfl
@[simp] theorem setSit_gathers (f : SitState → SitState) : (s.setSit f).gathers = s.gathers := rfl
@[simp] theorem setSit_nextGather (f : SitState → SitState) : (s.setSit f).nextGather = s.nextGather := rfl
@[simp] theorem setSit_hubWait (f : SitState → SitState) : (s.setSit f).hubWait = s.hubWait := rfl
@[simp] theorem setSit_hubUsed (f : SitState → SitState) : (s.setSit f).hubUsed = s.hubUsed := rfl
@[simp] theorem setSit_net (f : SitState → SitState) : (s.setSit f).net = s.net := rfl
@[simp] theorem setSit_reqs (f : SitState → SitState) : (s.setSit f).reqs = s.reqs := rfl
@[simp] theorem setSit_nextTag (f : SitState → SitState) : (s.setSit f).nextTag = s.nextTag := rfl
@[simp] theorem setSit_mcast (f : SitState → SitState) : (s.setSit f).mcast = s.mcast := rfl
@[simp] theorem setSit_redGroups (f : SitState → SitState) : (s.setSit f).redGroups = s.redGroups := rfl
@[simp] theorem setSit_rounds (f : SitState → SitState) : (s.setSit f).rounds = s.rounds := rfl
@[simp] theorem setSit_mesh (f : SitState → SitState) : (s.setSit f).mesh = s.mesh := rfl
@[simp] theorem setSit_localDead (f : SitState → SitState) : (s.setSit f).localDead = s.localDead := rfl
@[simp] theorem setSit_escTable (f : SitState → SitState) : (s.setSit f).escTable = s.escTable := rfl
@[simp] theorem setSit_changes (f : SitState → SitState) : (s.setSit f).changes = s.changes := rfl
@[simp] theorem setSit_mnMask (f : SitState → SitState) : (s.setSit f).mnMask = s.mnMask := rfl
@[simp] theorem setSit_mnGen (f : SitState → SitState) : (s.setSit f).mnGen = s.mnGen := rfl
@[simp] theorem setSit_maskSent (f : SitState → SitState) : (s.setSit f).maskSent = s.maskSent := rfl
@[simp] theorem setSit_rateAt (f : SitState → SitState) : (s.setSit f).rateAt = s.rateAt := rfl
@[simp] theorem setSit_holds (f : SitState → SitState) : (s.setSit f).holds = s.holds := rfl
@[simp] theorem setSit_buckets (f : SitState → SitState) : (s.setSit f).buckets = s.buckets := rfl
@[simp] theorem setSit_tc0Wait (f : SitState → SitState) : (s.setSit f).tc0Wait = s.tc0Wait := rfl
@[simp] theorem setSit_ticks (f : SitState → SitState) : (s.setSit f).ticks = s.ticks := rfl
@[simp] theorem setSit_field (f : SitState → SitState) : (s.setSit f).field = s.field := rfl
@[simp] theorem setSit_links (f : SitState → SitState) : (s.setSit f).links = s.links := rfl
@[simp] theorem setSit_time (f : SitState → SitState) : (s.setSit f).time = s.time := rfl
@[simp] theorem setSit_host (f : SitState → SitState) : (s.setSit f).host = s.host := rfl
@[simp] theorem setSit_boot (f : SitState → SitState) : (s.setSit f).boot = s.boot := rfl
@[simp] theorem setSit_faults (f : SitState → SitState) : (s.setSit f).faults = s.faults := rfl
@[simp] theorem setSit_power (f : SitState → SitState) : (s.setSit f).power = s.power := rfl
@[simp] theorem setSit_mon (f : SitState → SitState) : (s.setSit f).mon = s.mon := rfl
@[simp] theorem setSit_pins (f : SitState → SitState) : (s.setSit f).pins = s.pins := rfl
@[simp] theorem setSit_outs (f : SitState → SitState) : (s.setSit f).outs = s.outs := rfl
@[simp] theorem setSit_free (f : SitState → SitState) : (s.setSit f).free = s.free := rfl
@[simp] theorem setSit_pending (f : SitState → SitState) : (s.setSit f).pending = s.pending := rfl

/-! `setMon` -/

@[simp] theorem setMon_regs (f : MonState → MonState) : (s.setMon f).regs = s.regs := rfl
@[simp] theorem setMon_mem (f : MonState → MonState) : (s.setMon f).mem = s.mem := rfl
@[simp] theorem setMon_flips (f : MonState → MonState) : (s.setMon f).flips = s.flips := rfl
@[simp] theorem setMon_denyAt (f : MonState → MonState) : (s.setMon f).denyAt = s.denyAt := rfl
@[simp] theorem setMon_arrays (f : MonState → MonState) : (s.setMon f).arrays = s.arrays := rfl
@[simp] theorem setMon_tokens (f : MonState → MonState) : (s.setMon f).tokens = s.tokens := rfl
@[simp] theorem setMon_regions (f : MonState → MonState) : (s.setMon f).regions = s.regions := rfl
@[simp] theorem setMon_serial (f : MonState → MonState) : (s.setMon f).serial = s.serial := rfl
@[simp] theorem setMon_eps (f : MonState → MonState) : (s.setMon f).eps = s.eps := rfl
@[simp] theorem setMon_stack (f : MonState → MonState) : (s.setMon f).stack = s.stack := rfl
@[simp] theorem setMon_stackErr (f : MonState → MonState) : (s.setMon f).stackErr = s.stackErr := rfl
@[simp] theorem setMon_odecc (f : MonState → MonState) : (s.setMon f).odecc = s.odecc := rfl
@[simp] theorem setMon_dir (f : MonState → MonState) : (s.setMon f).dir = s.dir := rfl
@[simp] theorem setMon_tables (f : MonState → MonState) : (s.setMon f).tables = s.tables := rfl
@[simp] theorem setMon_segs (f : MonState → MonState) : (s.setMon f).segs = s.segs := rfl
@[simp] theorem setMon_tblCmd (f : MonState → MonState) : (s.setMon f).tblCmd = s.tblCmd := rfl
@[simp] theorem setMon_resync (f : MonState → MonState) : (s.setMon f).resync = s.resync := rfl
@[simp] theorem setMon_cache (f : MonState → MonState) : (s.setMon f).cache = s.cache := rfl
@[simp] theorem setMon_fetch (f : MonState → MonState) : (s.setMon f).fetch = s.fetch := rfl
@[simp] theorem setMon_missed (f : MonState → MonState) : (s.setMon f).missed = s.missed := rfl
@[simp] theorem setMon_gathers (f : MonState → MonState) : (s.setMon f).gathers = s.gathers := rfl
@[simp] theorem setMon_nextGather (f : MonState → MonState) : (s.setMon f).nextGather = s.nextGather := rfl
@[simp] theorem setMon_hubWait (f : MonState → MonState) : (s.setMon f).hubWait = s.hubWait := rfl
@[simp] theorem setMon_hubUsed (f : MonState → MonState) : (s.setMon f).hubUsed = s.hubUsed := rfl
@[simp] theorem setMon_net (f : MonState → MonState) : (s.setMon f).net = s.net := rfl
@[simp] theorem setMon_reqs (f : MonState → MonState) : (s.setMon f).reqs = s.reqs := rfl
@[simp] theorem setMon_nextTag (f : MonState → MonState) : (s.setMon f).nextTag = s.nextTag := rfl
@[simp] theorem setMon_mcast (f : MonState → MonState) : (s.setMon f).mcast = s.mcast := rfl
@[simp] theorem setMon_redGroups (f : MonState → MonState) : (s.setMon f).redGroups = s.redGroups := rfl
@[simp] theorem setMon_rounds (f : MonState → MonState) : (s.setMon f).rounds = s.rounds := rfl
@[simp] theorem setMon_mesh (f : MonState → MonState) : (s.setMon f).mesh = s.mesh := rfl
@[simp] theorem setMon_localDead (f : MonState → MonState) : (s.setMon f).localDead = s.localDead := rfl
@[simp] theorem setMon_escTable (f : MonState → MonState) : (s.setMon f).escTable = s.escTable := rfl
@[simp] theorem setMon_changes (f : MonState → MonState) : (s.setMon f).changes = s.changes := rfl
@[simp] theorem setMon_mnMask (f : MonState → MonState) : (s.setMon f).mnMask = s.mnMask := rfl
@[simp] theorem setMon_mnGen (f : MonState → MonState) : (s.setMon f).mnGen = s.mnGen := rfl
@[simp] theorem setMon_maskSent (f : MonState → MonState) : (s.setMon f).maskSent = s.maskSent := rfl
@[simp] theorem setMon_rateAt (f : MonState → MonState) : (s.setMon f).rateAt = s.rateAt := rfl
@[simp] theorem setMon_holds (f : MonState → MonState) : (s.setMon f).holds = s.holds := rfl
@[simp] theorem setMon_buckets (f : MonState → MonState) : (s.setMon f).buckets = s.buckets := rfl
@[simp] theorem setMon_tc0Wait (f : MonState → MonState) : (s.setMon f).tc0Wait = s.tc0Wait := rfl
@[simp] theorem setMon_ticks (f : MonState → MonState) : (s.setMon f).ticks = s.ticks := rfl
@[simp] theorem setMon_field (f : MonState → MonState) : (s.setMon f).field = s.field := rfl
@[simp] theorem setMon_links (f : MonState → MonState) : (s.setMon f).links = s.links := rfl
@[simp] theorem setMon_time (f : MonState → MonState) : (s.setMon f).time = s.time := rfl
@[simp] theorem setMon_host (f : MonState → MonState) : (s.setMon f).host = s.host := rfl
@[simp] theorem setMon_boot (f : MonState → MonState) : (s.setMon f).boot = s.boot := rfl
@[simp] theorem setMon_faults (f : MonState → MonState) : (s.setMon f).faults = s.faults := rfl
@[simp] theorem setMon_power (f : MonState → MonState) : (s.setMon f).power = s.power := rfl
@[simp] theorem setMon_sit (f : MonState → MonState) : (s.setMon f).sit = s.sit := rfl
@[simp] theorem setMon_pins (f : MonState → MonState) : (s.setMon f).pins = s.pins := rfl
@[simp] theorem setMon_outs (f : MonState → MonState) : (s.setMon f).outs = s.outs := rfl
@[simp] theorem setMon_free (f : MonState → MonState) : (s.setMon f).free = s.free := rfl
@[simp] theorem setMon_pending (f : MonState → MonState) : (s.setMon f).pending = s.pending := rfl

/-! `setFirm` -/

@[simp] theorem setFirm_regs (x : FirmState) : (s.setFirm x).regs = s.regs := rfl
@[simp] theorem setFirm_mem (x : FirmState) : (s.setFirm x).mem = s.mem := rfl
@[simp] theorem setFirm_flips (x : FirmState) : (s.setFirm x).flips = s.flips := rfl
@[simp] theorem setFirm_denyAt (x : FirmState) : (s.setFirm x).denyAt = s.denyAt := rfl
@[simp] theorem setFirm_arrays (x : FirmState) : (s.setFirm x).arrays = s.arrays := rfl
@[simp] theorem setFirm_tokens (x : FirmState) : (s.setFirm x).tokens = s.tokens := rfl
@[simp] theorem setFirm_regions (x : FirmState) : (s.setFirm x).regions = s.regions := rfl
@[simp] theorem setFirm_serial (x : FirmState) : (s.setFirm x).serial = s.serial := rfl
@[simp] theorem setFirm_eps (x : FirmState) : (s.setFirm x).eps = s.eps := rfl
@[simp] theorem setFirm_stack (x : FirmState) : (s.setFirm x).stack = s.stack := rfl
@[simp] theorem setFirm_stackErr (x : FirmState) : (s.setFirm x).stackErr = s.stackErr := rfl
@[simp] theorem setFirm_odecc (x : FirmState) : (s.setFirm x).odecc = s.odecc := rfl
@[simp] theorem setFirm_dir (x : FirmState) : (s.setFirm x).dir = s.dir := rfl
@[simp] theorem setFirm_tables (x : FirmState) : (s.setFirm x).tables = s.tables := rfl
@[simp] theorem setFirm_segs (x : FirmState) : (s.setFirm x).segs = s.segs := rfl
@[simp] theorem setFirm_tblCmd (x : FirmState) : (s.setFirm x).tblCmd = s.tblCmd := rfl
@[simp] theorem setFirm_resync (x : FirmState) : (s.setFirm x).resync = s.resync := rfl
@[simp] theorem setFirm_cache (x : FirmState) : (s.setFirm x).cache = s.cache := rfl
@[simp] theorem setFirm_fetch (x : FirmState) : (s.setFirm x).fetch = s.fetch := rfl
@[simp] theorem setFirm_missed (x : FirmState) : (s.setFirm x).missed = s.missed := rfl
@[simp] theorem setFirm_gathers (x : FirmState) : (s.setFirm x).gathers = s.gathers := rfl
@[simp] theorem setFirm_nextGather (x : FirmState) : (s.setFirm x).nextGather = s.nextGather := rfl
@[simp] theorem setFirm_hubWait (x : FirmState) : (s.setFirm x).hubWait = s.hubWait := rfl
@[simp] theorem setFirm_hubUsed (x : FirmState) : (s.setFirm x).hubUsed = s.hubUsed := rfl
@[simp] theorem setFirm_net (x : FirmState) : (s.setFirm x).net = s.net := rfl
@[simp] theorem setFirm_reqs (x : FirmState) : (s.setFirm x).reqs = s.reqs := rfl
@[simp] theorem setFirm_nextTag (x : FirmState) : (s.setFirm x).nextTag = s.nextTag := rfl
@[simp] theorem setFirm_mcast (x : FirmState) : (s.setFirm x).mcast = s.mcast := rfl
@[simp] theorem setFirm_redGroups (x : FirmState) : (s.setFirm x).redGroups = s.redGroups := rfl
@[simp] theorem setFirm_rounds (x : FirmState) : (s.setFirm x).rounds = s.rounds := rfl
@[simp] theorem setFirm_mesh (x : FirmState) : (s.setFirm x).mesh = s.mesh := rfl
@[simp] theorem setFirm_localDead (x : FirmState) : (s.setFirm x).localDead = s.localDead := rfl
@[simp] theorem setFirm_escTable (x : FirmState) : (s.setFirm x).escTable = s.escTable := rfl
@[simp] theorem setFirm_changes (x : FirmState) : (s.setFirm x).changes = s.changes := rfl
@[simp] theorem setFirm_mnMask (x : FirmState) : (s.setFirm x).mnMask = s.mnMask := rfl
@[simp] theorem setFirm_mnGen (x : FirmState) : (s.setFirm x).mnGen = s.mnGen := rfl
@[simp] theorem setFirm_maskSent (x : FirmState) : (s.setFirm x).maskSent = s.maskSent := rfl
@[simp] theorem setFirm_rateAt (x : FirmState) : (s.setFirm x).rateAt = s.rateAt := rfl
@[simp] theorem setFirm_holds (x : FirmState) : (s.setFirm x).holds = s.holds := rfl
@[simp] theorem setFirm_buckets (x : FirmState) : (s.setFirm x).buckets = s.buckets := rfl
@[simp] theorem setFirm_tc0Wait (x : FirmState) : (s.setFirm x).tc0Wait = s.tc0Wait := rfl
@[simp] theorem setFirm_ticks (x : FirmState) : (s.setFirm x).ticks = s.ticks := rfl
@[simp] theorem setFirm_field (x : FirmState) : (s.setFirm x).field = s.field := rfl
@[simp] theorem setFirm_links (x : FirmState) : (s.setFirm x).links = s.links := rfl
@[simp] theorem setFirm_time (x : FirmState) : (s.setFirm x).time = s.time := rfl
@[simp] theorem setFirm_host (x : FirmState) : (s.setFirm x).host = s.host := rfl
@[simp] theorem setFirm_boot (x : FirmState) : (s.setFirm x).boot = s.boot := rfl
@[simp] theorem setFirm_power (x : FirmState) : (s.setFirm x).power = s.power := rfl
@[simp] theorem setFirm_sit (x : FirmState) : (s.setFirm x).sit = s.sit := rfl
@[simp] theorem setFirm_mon (x : FirmState) : (s.setFirm x).mon = s.mon := rfl
@[simp] theorem setFirm_pins (x : FirmState) : (s.setFirm x).pins = s.pins := rfl
@[simp] theorem setFirm_outs (x : FirmState) : (s.setFirm x).outs = s.outs := rfl
@[simp] theorem setFirm_free (x : FirmState) : (s.setFirm x).free = s.free := rfl
@[simp] theorem setFirm_pending (x : FirmState) : (s.setFirm x).pending = s.pending := rfl

/-! `updIsl` -/

@[simp] theorem updIsl_regs (i : Nat) (f : Island → Island) : (s.updIsl i f).regs = s.regs := rfl
@[simp] theorem updIsl_mem (i : Nat) (f : Island → Island) : (s.updIsl i f).mem = s.mem := rfl
@[simp] theorem updIsl_flips (i : Nat) (f : Island → Island) : (s.updIsl i f).flips = s.flips := rfl
@[simp] theorem updIsl_denyAt (i : Nat) (f : Island → Island) : (s.updIsl i f).denyAt = s.denyAt := rfl
@[simp] theorem updIsl_arrays (i : Nat) (f : Island → Island) : (s.updIsl i f).arrays = s.arrays := rfl
@[simp] theorem updIsl_tokens (i : Nat) (f : Island → Island) : (s.updIsl i f).tokens = s.tokens := rfl
@[simp] theorem updIsl_regions (i : Nat) (f : Island → Island) : (s.updIsl i f).regions = s.regions := rfl
@[simp] theorem updIsl_serial (i : Nat) (f : Island → Island) : (s.updIsl i f).serial = s.serial := rfl
@[simp] theorem updIsl_eps (i : Nat) (f : Island → Island) : (s.updIsl i f).eps = s.eps := rfl
@[simp] theorem updIsl_stack (i : Nat) (f : Island → Island) : (s.updIsl i f).stack = s.stack := rfl
@[simp] theorem updIsl_stackErr (i : Nat) (f : Island → Island) : (s.updIsl i f).stackErr = s.stackErr := rfl
@[simp] theorem updIsl_odecc (i : Nat) (f : Island → Island) : (s.updIsl i f).odecc = s.odecc := rfl
@[simp] theorem updIsl_dir (i : Nat) (f : Island → Island) : (s.updIsl i f).dir = s.dir := rfl
@[simp] theorem updIsl_tables (i : Nat) (f : Island → Island) : (s.updIsl i f).tables = s.tables := rfl
@[simp] theorem updIsl_segs (i : Nat) (f : Island → Island) : (s.updIsl i f).segs = s.segs := rfl
@[simp] theorem updIsl_tblCmd (i : Nat) (f : Island → Island) : (s.updIsl i f).tblCmd = s.tblCmd := rfl
@[simp] theorem updIsl_resync (i : Nat) (f : Island → Island) : (s.updIsl i f).resync = s.resync := rfl
@[simp] theorem updIsl_cache (i : Nat) (f : Island → Island) : (s.updIsl i f).cache = s.cache := rfl
@[simp] theorem updIsl_fetch (i : Nat) (f : Island → Island) : (s.updIsl i f).fetch = s.fetch := rfl
@[simp] theorem updIsl_missed (i : Nat) (f : Island → Island) : (s.updIsl i f).missed = s.missed := rfl
@[simp] theorem updIsl_gathers (i : Nat) (f : Island → Island) : (s.updIsl i f).gathers = s.gathers := rfl
@[simp] theorem updIsl_nextGather (i : Nat) (f : Island → Island) : (s.updIsl i f).nextGather = s.nextGather := rfl
@[simp] theorem updIsl_hubWait (i : Nat) (f : Island → Island) : (s.updIsl i f).hubWait = s.hubWait := rfl
@[simp] theorem updIsl_hubUsed (i : Nat) (f : Island → Island) : (s.updIsl i f).hubUsed = s.hubUsed := rfl
@[simp] theorem updIsl_net (i : Nat) (f : Island → Island) : (s.updIsl i f).net = s.net := rfl
@[simp] theorem updIsl_reqs (i : Nat) (f : Island → Island) : (s.updIsl i f).reqs = s.reqs := rfl
@[simp] theorem updIsl_nextTag (i : Nat) (f : Island → Island) : (s.updIsl i f).nextTag = s.nextTag := rfl
@[simp] theorem updIsl_mcast (i : Nat) (f : Island → Island) : (s.updIsl i f).mcast = s.mcast := rfl
@[simp] theorem updIsl_redGroups (i : Nat) (f : Island → Island) : (s.updIsl i f).redGroups = s.redGroups := rfl
@[simp] theorem updIsl_rounds (i : Nat) (f : Island → Island) : (s.updIsl i f).rounds = s.rounds := rfl
@[simp] theorem updIsl_mesh (i : Nat) (f : Island → Island) : (s.updIsl i f).mesh = s.mesh := rfl
@[simp] theorem updIsl_localDead (i : Nat) (f : Island → Island) : (s.updIsl i f).localDead = s.localDead := rfl
@[simp] theorem updIsl_escTable (i : Nat) (f : Island → Island) : (s.updIsl i f).escTable = s.escTable := rfl
@[simp] theorem updIsl_changes (i : Nat) (f : Island → Island) : (s.updIsl i f).changes = s.changes := rfl
@[simp] theorem updIsl_mnMask (i : Nat) (f : Island → Island) : (s.updIsl i f).mnMask = s.mnMask := rfl
@[simp] theorem updIsl_mnGen (i : Nat) (f : Island → Island) : (s.updIsl i f).mnGen = s.mnGen := rfl
@[simp] theorem updIsl_maskSent (i : Nat) (f : Island → Island) : (s.updIsl i f).maskSent = s.maskSent := rfl
@[simp] theorem updIsl_rateAt (i : Nat) (f : Island → Island) : (s.updIsl i f).rateAt = s.rateAt := rfl
@[simp] theorem updIsl_holds (i : Nat) (f : Island → Island) : (s.updIsl i f).holds = s.holds := rfl
@[simp] theorem updIsl_buckets (i : Nat) (f : Island → Island) : (s.updIsl i f).buckets = s.buckets := rfl
@[simp] theorem updIsl_tc0Wait (i : Nat) (f : Island → Island) : (s.updIsl i f).tc0Wait = s.tc0Wait := rfl
@[simp] theorem updIsl_ticks (i : Nat) (f : Island → Island) : (s.updIsl i f).ticks = s.ticks := rfl
@[simp] theorem updIsl_field (i : Nat) (f : Island → Island) : (s.updIsl i f).field = s.field := rfl
@[simp] theorem updIsl_links (i : Nat) (f : Island → Island) : (s.updIsl i f).links = s.links := rfl
@[simp] theorem updIsl_host (i : Nat) (f : Island → Island) : (s.updIsl i f).host = s.host := rfl
@[simp] theorem updIsl_boot (i : Nat) (f : Island → Island) : (s.updIsl i f).boot = s.boot := rfl
@[simp] theorem updIsl_faults (i : Nat) (f : Island → Island) : (s.updIsl i f).faults = s.faults := rfl
@[simp] theorem updIsl_power (i : Nat) (f : Island → Island) : (s.updIsl i f).power = s.power := rfl
@[simp] theorem updIsl_sit (i : Nat) (f : Island → Island) : (s.updIsl i f).sit = s.sit := rfl
@[simp] theorem updIsl_mon (i : Nat) (f : Island → Island) : (s.updIsl i f).mon = s.mon := rfl
@[simp] theorem updIsl_pins (i : Nat) (f : Island → Island) : (s.updIsl i f).pins = s.pins := rfl
@[simp] theorem updIsl_outs (i : Nat) (f : Island → Island) : (s.updIsl i f).outs = s.outs := rfl
@[simp] theorem updIsl_free (i : Nat) (f : Island → Island) : (s.updIsl i f).free = s.free := rfl
@[simp] theorem updIsl_pending (i : Nat) (f : Island → Island) : (s.updIsl i f).pending = s.pending := rfl

/-! `updLport` -/

@[simp] theorem updLport_regs (n : Nat) (f : LinkPort → LinkPort) : (s.updLport n f).regs = s.regs := rfl
@[simp] theorem updLport_mem (n : Nat) (f : LinkPort → LinkPort) : (s.updLport n f).mem = s.mem := rfl
@[simp] theorem updLport_flips (n : Nat) (f : LinkPort → LinkPort) : (s.updLport n f).flips = s.flips := rfl
@[simp] theorem updLport_denyAt (n : Nat) (f : LinkPort → LinkPort) : (s.updLport n f).denyAt = s.denyAt := rfl
@[simp] theorem updLport_arrays (n : Nat) (f : LinkPort → LinkPort) : (s.updLport n f).arrays = s.arrays := rfl
@[simp] theorem updLport_tokens (n : Nat) (f : LinkPort → LinkPort) : (s.updLport n f).tokens = s.tokens := rfl
@[simp] theorem updLport_regions (n : Nat) (f : LinkPort → LinkPort) : (s.updLport n f).regions = s.regions := rfl
@[simp] theorem updLport_serial (n : Nat) (f : LinkPort → LinkPort) : (s.updLport n f).serial = s.serial := rfl
@[simp] theorem updLport_eps (n : Nat) (f : LinkPort → LinkPort) : (s.updLport n f).eps = s.eps := rfl
@[simp] theorem updLport_stack (n : Nat) (f : LinkPort → LinkPort) : (s.updLport n f).stack = s.stack := rfl
@[simp] theorem updLport_stackErr (n : Nat) (f : LinkPort → LinkPort) : (s.updLport n f).stackErr = s.stackErr := rfl
@[simp] theorem updLport_odecc (n : Nat) (f : LinkPort → LinkPort) : (s.updLport n f).odecc = s.odecc := rfl
@[simp] theorem updLport_dir (n : Nat) (f : LinkPort → LinkPort) : (s.updLport n f).dir = s.dir := rfl
@[simp] theorem updLport_tables (n : Nat) (f : LinkPort → LinkPort) : (s.updLport n f).tables = s.tables := rfl
@[simp] theorem updLport_segs (n : Nat) (f : LinkPort → LinkPort) : (s.updLport n f).segs = s.segs := rfl
@[simp] theorem updLport_tblCmd (n : Nat) (f : LinkPort → LinkPort) : (s.updLport n f).tblCmd = s.tblCmd := rfl
@[simp] theorem updLport_resync (n : Nat) (f : LinkPort → LinkPort) : (s.updLport n f).resync = s.resync := rfl
@[simp] theorem updLport_cache (n : Nat) (f : LinkPort → LinkPort) : (s.updLport n f).cache = s.cache := rfl
@[simp] theorem updLport_fetch (n : Nat) (f : LinkPort → LinkPort) : (s.updLport n f).fetch = s.fetch := rfl
@[simp] theorem updLport_missed (n : Nat) (f : LinkPort → LinkPort) : (s.updLport n f).missed = s.missed := rfl
@[simp] theorem updLport_gathers (n : Nat) (f : LinkPort → LinkPort) : (s.updLport n f).gathers = s.gathers := rfl
@[simp] theorem updLport_nextGather (n : Nat) (f : LinkPort → LinkPort) : (s.updLport n f).nextGather = s.nextGather := rfl
@[simp] theorem updLport_hubWait (n : Nat) (f : LinkPort → LinkPort) : (s.updLport n f).hubWait = s.hubWait := rfl
@[simp] theorem updLport_hubUsed (n : Nat) (f : LinkPort → LinkPort) : (s.updLport n f).hubUsed = s.hubUsed := rfl
@[simp] theorem updLport_net (n : Nat) (f : LinkPort → LinkPort) : (s.updLport n f).net = s.net := rfl
@[simp] theorem updLport_reqs (n : Nat) (f : LinkPort → LinkPort) : (s.updLport n f).reqs = s.reqs := rfl
@[simp] theorem updLport_nextTag (n : Nat) (f : LinkPort → LinkPort) : (s.updLport n f).nextTag = s.nextTag := rfl
@[simp] theorem updLport_mcast (n : Nat) (f : LinkPort → LinkPort) : (s.updLport n f).mcast = s.mcast := rfl
@[simp] theorem updLport_redGroups (n : Nat) (f : LinkPort → LinkPort) : (s.updLport n f).redGroups = s.redGroups := rfl
@[simp] theorem updLport_rounds (n : Nat) (f : LinkPort → LinkPort) : (s.updLport n f).rounds = s.rounds := rfl
@[simp] theorem updLport_mesh (n : Nat) (f : LinkPort → LinkPort) : (s.updLport n f).mesh = s.mesh := rfl
@[simp] theorem updLport_localDead (n : Nat) (f : LinkPort → LinkPort) : (s.updLport n f).localDead = s.localDead := rfl
@[simp] theorem updLport_escTable (n : Nat) (f : LinkPort → LinkPort) : (s.updLport n f).escTable = s.escTable := rfl
@[simp] theorem updLport_changes (n : Nat) (f : LinkPort → LinkPort) : (s.updLport n f).changes = s.changes := rfl
@[simp] theorem updLport_mnMask (n : Nat) (f : LinkPort → LinkPort) : (s.updLport n f).mnMask = s.mnMask := rfl
@[simp] theorem updLport_mnGen (n : Nat) (f : LinkPort → LinkPort) : (s.updLport n f).mnGen = s.mnGen := rfl
@[simp] theorem updLport_maskSent (n : Nat) (f : LinkPort → LinkPort) : (s.updLport n f).maskSent = s.maskSent := rfl
@[simp] theorem updLport_rateAt (n : Nat) (f : LinkPort → LinkPort) : (s.updLport n f).rateAt = s.rateAt := rfl
@[simp] theorem updLport_holds (n : Nat) (f : LinkPort → LinkPort) : (s.updLport n f).holds = s.holds := rfl
@[simp] theorem updLport_buckets (n : Nat) (f : LinkPort → LinkPort) : (s.updLport n f).buckets = s.buckets := rfl
@[simp] theorem updLport_tc0Wait (n : Nat) (f : LinkPort → LinkPort) : (s.updLport n f).tc0Wait = s.tc0Wait := rfl
@[simp] theorem updLport_ticks (n : Nat) (f : LinkPort → LinkPort) : (s.updLport n f).ticks = s.ticks := rfl
@[simp] theorem updLport_field (n : Nat) (f : LinkPort → LinkPort) : (s.updLport n f).field = s.field := rfl
@[simp] theorem updLport_time (n : Nat) (f : LinkPort → LinkPort) : (s.updLport n f).time = s.time := rfl
@[simp] theorem updLport_host (n : Nat) (f : LinkPort → LinkPort) : (s.updLport n f).host = s.host := rfl
@[simp] theorem updLport_boot (n : Nat) (f : LinkPort → LinkPort) : (s.updLport n f).boot = s.boot := rfl
@[simp] theorem updLport_faults (n : Nat) (f : LinkPort → LinkPort) : (s.updLport n f).faults = s.faults := rfl
@[simp] theorem updLport_power (n : Nat) (f : LinkPort → LinkPort) : (s.updLport n f).power = s.power := rfl
@[simp] theorem updLport_sit (n : Nat) (f : LinkPort → LinkPort) : (s.updLport n f).sit = s.sit := rfl
@[simp] theorem updLport_mon (n : Nat) (f : LinkPort → LinkPort) : (s.updLport n f).mon = s.mon := rfl
@[simp] theorem updLport_pins (n : Nat) (f : LinkPort → LinkPort) : (s.updLport n f).pins = s.pins := rfl
@[simp] theorem updLport_outs (n : Nat) (f : LinkPort → LinkPort) : (s.updLport n f).outs = s.outs := rfl
@[simp] theorem updLport_free (n : Nat) (f : LinkPort → LinkPort) : (s.updLport n f).free = s.free := rfl
@[simp] theorem updLport_pending (n : Nat) (f : LinkPort → LinkPort) : (s.updLport n f).pending = s.pending := rfl

/-! `updFport` -/

@[simp] theorem updFport_regs (n : Nat) (f : FPort → FPort) : (s.updFport n f).regs = s.regs := rfl
@[simp] theorem updFport_mem (n : Nat) (f : FPort → FPort) : (s.updFport n f).mem = s.mem := rfl
@[simp] theorem updFport_flips (n : Nat) (f : FPort → FPort) : (s.updFport n f).flips = s.flips := rfl
@[simp] theorem updFport_denyAt (n : Nat) (f : FPort → FPort) : (s.updFport n f).denyAt = s.denyAt := rfl
@[simp] theorem updFport_arrays (n : Nat) (f : FPort → FPort) : (s.updFport n f).arrays = s.arrays := rfl
@[simp] theorem updFport_tokens (n : Nat) (f : FPort → FPort) : (s.updFport n f).tokens = s.tokens := rfl
@[simp] theorem updFport_regions (n : Nat) (f : FPort → FPort) : (s.updFport n f).regions = s.regions := rfl
@[simp] theorem updFport_serial (n : Nat) (f : FPort → FPort) : (s.updFport n f).serial = s.serial := rfl
@[simp] theorem updFport_eps (n : Nat) (f : FPort → FPort) : (s.updFport n f).eps = s.eps := rfl
@[simp] theorem updFport_stack (n : Nat) (f : FPort → FPort) : (s.updFport n f).stack = s.stack := rfl
@[simp] theorem updFport_stackErr (n : Nat) (f : FPort → FPort) : (s.updFport n f).stackErr = s.stackErr := rfl
@[simp] theorem updFport_odecc (n : Nat) (f : FPort → FPort) : (s.updFport n f).odecc = s.odecc := rfl
@[simp] theorem updFport_dir (n : Nat) (f : FPort → FPort) : (s.updFport n f).dir = s.dir := rfl
@[simp] theorem updFport_tables (n : Nat) (f : FPort → FPort) : (s.updFport n f).tables = s.tables := rfl
@[simp] theorem updFport_segs (n : Nat) (f : FPort → FPort) : (s.updFport n f).segs = s.segs := rfl
@[simp] theorem updFport_tblCmd (n : Nat) (f : FPort → FPort) : (s.updFport n f).tblCmd = s.tblCmd := rfl
@[simp] theorem updFport_resync (n : Nat) (f : FPort → FPort) : (s.updFport n f).resync = s.resync := rfl
@[simp] theorem updFport_cache (n : Nat) (f : FPort → FPort) : (s.updFport n f).cache = s.cache := rfl
@[simp] theorem updFport_fetch (n : Nat) (f : FPort → FPort) : (s.updFport n f).fetch = s.fetch := rfl
@[simp] theorem updFport_missed (n : Nat) (f : FPort → FPort) : (s.updFport n f).missed = s.missed := rfl
@[simp] theorem updFport_gathers (n : Nat) (f : FPort → FPort) : (s.updFport n f).gathers = s.gathers := rfl
@[simp] theorem updFport_nextGather (n : Nat) (f : FPort → FPort) : (s.updFport n f).nextGather = s.nextGather := rfl
@[simp] theorem updFport_hubWait (n : Nat) (f : FPort → FPort) : (s.updFport n f).hubWait = s.hubWait := rfl
@[simp] theorem updFport_hubUsed (n : Nat) (f : FPort → FPort) : (s.updFport n f).hubUsed = s.hubUsed := rfl
@[simp] theorem updFport_net (n : Nat) (f : FPort → FPort) : (s.updFport n f).net = s.net := rfl
@[simp] theorem updFport_reqs (n : Nat) (f : FPort → FPort) : (s.updFport n f).reqs = s.reqs := rfl
@[simp] theorem updFport_nextTag (n : Nat) (f : FPort → FPort) : (s.updFport n f).nextTag = s.nextTag := rfl
@[simp] theorem updFport_mcast (n : Nat) (f : FPort → FPort) : (s.updFport n f).mcast = s.mcast := rfl
@[simp] theorem updFport_redGroups (n : Nat) (f : FPort → FPort) : (s.updFport n f).redGroups = s.redGroups := rfl
@[simp] theorem updFport_rounds (n : Nat) (f : FPort → FPort) : (s.updFport n f).rounds = s.rounds := rfl
@[simp] theorem updFport_mesh (n : Nat) (f : FPort → FPort) : (s.updFport n f).mesh = s.mesh := rfl
@[simp] theorem updFport_localDead (n : Nat) (f : FPort → FPort) : (s.updFport n f).localDead = s.localDead := rfl
@[simp] theorem updFport_escTable (n : Nat) (f : FPort → FPort) : (s.updFport n f).escTable = s.escTable := rfl
@[simp] theorem updFport_changes (n : Nat) (f : FPort → FPort) : (s.updFport n f).changes = s.changes := rfl
@[simp] theorem updFport_mnMask (n : Nat) (f : FPort → FPort) : (s.updFport n f).mnMask = s.mnMask := rfl
@[simp] theorem updFport_mnGen (n : Nat) (f : FPort → FPort) : (s.updFport n f).mnGen = s.mnGen := rfl
@[simp] theorem updFport_maskSent (n : Nat) (f : FPort → FPort) : (s.updFport n f).maskSent = s.maskSent := rfl
@[simp] theorem updFport_rateAt (n : Nat) (f : FPort → FPort) : (s.updFport n f).rateAt = s.rateAt := rfl
@[simp] theorem updFport_holds (n : Nat) (f : FPort → FPort) : (s.updFport n f).holds = s.holds := rfl
@[simp] theorem updFport_buckets (n : Nat) (f : FPort → FPort) : (s.updFport n f).buckets = s.buckets := rfl
@[simp] theorem updFport_tc0Wait (n : Nat) (f : FPort → FPort) : (s.updFport n f).tc0Wait = s.tc0Wait := rfl
@[simp] theorem updFport_ticks (n : Nat) (f : FPort → FPort) : (s.updFport n f).ticks = s.ticks := rfl
@[simp] theorem updFport_links (n : Nat) (f : FPort → FPort) : (s.updFport n f).links = s.links := rfl
@[simp] theorem updFport_time (n : Nat) (f : FPort → FPort) : (s.updFport n f).time = s.time := rfl
@[simp] theorem updFport_host (n : Nat) (f : FPort → FPort) : (s.updFport n f).host = s.host := rfl
@[simp] theorem updFport_boot (n : Nat) (f : FPort → FPort) : (s.updFport n f).boot = s.boot := rfl
@[simp] theorem updFport_faults (n : Nat) (f : FPort → FPort) : (s.updFport n f).faults = s.faults := rfl
@[simp] theorem updFport_power (n : Nat) (f : FPort → FPort) : (s.updFport n f).power = s.power := rfl
@[simp] theorem updFport_sit (n : Nat) (f : FPort → FPort) : (s.updFport n f).sit = s.sit := rfl
@[simp] theorem updFport_mon (n : Nat) (f : FPort → FPort) : (s.updFport n f).mon = s.mon := rfl
@[simp] theorem updFport_pins (n : Nat) (f : FPort → FPort) : (s.updFport n f).pins = s.pins := rfl
@[simp] theorem updFport_outs (n : Nat) (f : FPort → FPort) : (s.updFport n f).outs = s.outs := rfl
@[simp] theorem updFport_free (n : Nat) (f : FPort → FPort) : (s.updFport n f).free = s.free := rfl
@[simp] theorem updFport_pending (n : Nat) (f : FPort → FPort) : (s.updFport n f).pending = s.pending := rfl

/-! `setField` -/

@[simp] theorem setField_regs (x : FieldState) : (s.setField x).regs = s.regs := rfl
@[simp] theorem setField_mem (x : FieldState) : (s.setField x).mem = s.mem := rfl
@[simp] theorem setField_flips (x : FieldState) : (s.setField x).flips = s.flips := rfl
@[simp] theorem setField_denyAt (x : FieldState) : (s.setField x).denyAt = s.denyAt := rfl
@[simp] theorem setField_arrays (x : FieldState) : (s.setField x).arrays = s.arrays := rfl
@[simp] theorem setField_tokens (x : FieldState) : (s.setField x).tokens = s.tokens := rfl
@[simp] theorem setField_regions (x : FieldState) : (s.setField x).regions = s.regions := rfl
@[simp] theorem setField_serial (x : FieldState) : (s.setField x).serial = s.serial := rfl
@[simp] theorem setField_eps (x : FieldState) : (s.setField x).eps = s.eps := rfl
@[simp] theorem setField_stack (x : FieldState) : (s.setField x).stack = s.stack := rfl
@[simp] theorem setField_stackErr (x : FieldState) : (s.setField x).stackErr = s.stackErr := rfl
@[simp] theorem setField_odecc (x : FieldState) : (s.setField x).odecc = s.odecc := rfl
@[simp] theorem setField_dir (x : FieldState) : (s.setField x).dir = s.dir := rfl
@[simp] theorem setField_tables (x : FieldState) : (s.setField x).tables = s.tables := rfl
@[simp] theorem setField_segs (x : FieldState) : (s.setField x).segs = s.segs := rfl
@[simp] theorem setField_tblCmd (x : FieldState) : (s.setField x).tblCmd = s.tblCmd := rfl
@[simp] theorem setField_resync (x : FieldState) : (s.setField x).resync = s.resync := rfl
@[simp] theorem setField_cache (x : FieldState) : (s.setField x).cache = s.cache := rfl
@[simp] theorem setField_fetch (x : FieldState) : (s.setField x).fetch = s.fetch := rfl
@[simp] theorem setField_missed (x : FieldState) : (s.setField x).missed = s.missed := rfl
@[simp] theorem setField_gathers (x : FieldState) : (s.setField x).gathers = s.gathers := rfl
@[simp] theorem setField_nextGather (x : FieldState) : (s.setField x).nextGather = s.nextGather := rfl
@[simp] theorem setField_hubWait (x : FieldState) : (s.setField x).hubWait = s.hubWait := rfl
@[simp] theorem setField_hubUsed (x : FieldState) : (s.setField x).hubUsed = s.hubUsed := rfl
@[simp] theorem setField_net (x : FieldState) : (s.setField x).net = s.net := rfl
@[simp] theorem setField_reqs (x : FieldState) : (s.setField x).reqs = s.reqs := rfl
@[simp] theorem setField_nextTag (x : FieldState) : (s.setField x).nextTag = s.nextTag := rfl
@[simp] theorem setField_mcast (x : FieldState) : (s.setField x).mcast = s.mcast := rfl
@[simp] theorem setField_redGroups (x : FieldState) : (s.setField x).redGroups = s.redGroups := rfl
@[simp] theorem setField_rounds (x : FieldState) : (s.setField x).rounds = s.rounds := rfl
@[simp] theorem setField_mesh (x : FieldState) : (s.setField x).mesh = s.mesh := rfl
@[simp] theorem setField_localDead (x : FieldState) : (s.setField x).localDead = s.localDead := rfl
@[simp] theorem setField_escTable (x : FieldState) : (s.setField x).escTable = s.escTable := rfl
@[simp] theorem setField_changes (x : FieldState) : (s.setField x).changes = s.changes := rfl
@[simp] theorem setField_mnMask (x : FieldState) : (s.setField x).mnMask = s.mnMask := rfl
@[simp] theorem setField_mnGen (x : FieldState) : (s.setField x).mnGen = s.mnGen := rfl
@[simp] theorem setField_maskSent (x : FieldState) : (s.setField x).maskSent = s.maskSent := rfl
@[simp] theorem setField_rateAt (x : FieldState) : (s.setField x).rateAt = s.rateAt := rfl
@[simp] theorem setField_holds (x : FieldState) : (s.setField x).holds = s.holds := rfl
@[simp] theorem setField_buckets (x : FieldState) : (s.setField x).buckets = s.buckets := rfl
@[simp] theorem setField_tc0Wait (x : FieldState) : (s.setField x).tc0Wait = s.tc0Wait := rfl
@[simp] theorem setField_ticks (x : FieldState) : (s.setField x).ticks = s.ticks := rfl
@[simp] theorem setField_links (x : FieldState) : (s.setField x).links = s.links := rfl
@[simp] theorem setField_time (x : FieldState) : (s.setField x).time = s.time := rfl
@[simp] theorem setField_host (x : FieldState) : (s.setField x).host = s.host := rfl
@[simp] theorem setField_boot (x : FieldState) : (s.setField x).boot = s.boot := rfl
@[simp] theorem setField_faults (x : FieldState) : (s.setField x).faults = s.faults := rfl
@[simp] theorem setField_power (x : FieldState) : (s.setField x).power = s.power := rfl
@[simp] theorem setField_sit (x : FieldState) : (s.setField x).sit = s.sit := rfl
@[simp] theorem setField_mon (x : FieldState) : (s.setField x).mon = s.mon := rfl
@[simp] theorem setField_pins (x : FieldState) : (s.setField x).pins = s.pins := rfl
@[simp] theorem setField_outs (x : FieldState) : (s.setField x).outs = s.outs := rfl
@[simp] theorem setField_free (x : FieldState) : (s.setField x).free = s.free := rfl
@[simp] theorem setField_pending (x : FieldState) : (s.setField x).pending = s.pending := rfl

/-! `updSeg` -/

@[simp] theorem updSeg_regs (h p : Nat) (f : Seg → Seg) : (s.updSeg h p f).regs = s.regs := rfl
@[simp] theorem updSeg_mem (h p : Nat) (f : Seg → Seg) : (s.updSeg h p f).mem = s.mem := rfl
@[simp] theorem updSeg_flips (h p : Nat) (f : Seg → Seg) : (s.updSeg h p f).flips = s.flips := rfl
@[simp] theorem updSeg_denyAt (h p : Nat) (f : Seg → Seg) : (s.updSeg h p f).denyAt = s.denyAt := rfl
@[simp] theorem updSeg_arrays (h p : Nat) (f : Seg → Seg) : (s.updSeg h p f).arrays = s.arrays := rfl
@[simp] theorem updSeg_tokens (h p : Nat) (f : Seg → Seg) : (s.updSeg h p f).tokens = s.tokens := rfl
@[simp] theorem updSeg_regions (h p : Nat) (f : Seg → Seg) : (s.updSeg h p f).regions = s.regions := rfl
@[simp] theorem updSeg_serial (h p : Nat) (f : Seg → Seg) : (s.updSeg h p f).serial = s.serial := rfl
@[simp] theorem updSeg_eps (h p : Nat) (f : Seg → Seg) : (s.updSeg h p f).eps = s.eps := rfl
@[simp] theorem updSeg_stack (h p : Nat) (f : Seg → Seg) : (s.updSeg h p f).stack = s.stack := rfl
@[simp] theorem updSeg_stackErr (h p : Nat) (f : Seg → Seg) : (s.updSeg h p f).stackErr = s.stackErr := rfl
@[simp] theorem updSeg_odecc (h p : Nat) (f : Seg → Seg) : (s.updSeg h p f).odecc = s.odecc := rfl
@[simp] theorem updSeg_dir (h p : Nat) (f : Seg → Seg) : (s.updSeg h p f).dir = s.dir := rfl
@[simp] theorem updSeg_tables (h p : Nat) (f : Seg → Seg) : (s.updSeg h p f).tables = s.tables := rfl
@[simp] theorem updSeg_tblCmd (h p : Nat) (f : Seg → Seg) : (s.updSeg h p f).tblCmd = s.tblCmd := rfl
@[simp] theorem updSeg_resync (h p : Nat) (f : Seg → Seg) : (s.updSeg h p f).resync = s.resync := rfl
@[simp] theorem updSeg_cache (h p : Nat) (f : Seg → Seg) : (s.updSeg h p f).cache = s.cache := rfl
@[simp] theorem updSeg_fetch (h p : Nat) (f : Seg → Seg) : (s.updSeg h p f).fetch = s.fetch := rfl
@[simp] theorem updSeg_missed (h p : Nat) (f : Seg → Seg) : (s.updSeg h p f).missed = s.missed := rfl
@[simp] theorem updSeg_gathers (h p : Nat) (f : Seg → Seg) : (s.updSeg h p f).gathers = s.gathers := rfl
@[simp] theorem updSeg_nextGather (h p : Nat) (f : Seg → Seg) : (s.updSeg h p f).nextGather = s.nextGather := rfl
@[simp] theorem updSeg_hubWait (h p : Nat) (f : Seg → Seg) : (s.updSeg h p f).hubWait = s.hubWait := rfl
@[simp] theorem updSeg_hubUsed (h p : Nat) (f : Seg → Seg) : (s.updSeg h p f).hubUsed = s.hubUsed := rfl
@[simp] theorem updSeg_net (h p : Nat) (f : Seg → Seg) : (s.updSeg h p f).net = s.net := rfl
@[simp] theorem updSeg_reqs (h p : Nat) (f : Seg → Seg) : (s.updSeg h p f).reqs = s.reqs := rfl
@[simp] theorem updSeg_nextTag (h p : Nat) (f : Seg → Seg) : (s.updSeg h p f).nextTag = s.nextTag := rfl
@[simp] theorem updSeg_mcast (h p : Nat) (f : Seg → Seg) : (s.updSeg h p f).mcast = s.mcast := rfl
@[simp] theorem updSeg_redGroups (h p : Nat) (f : Seg → Seg) : (s.updSeg h p f).redGroups = s.redGroups := rfl
@[simp] theorem updSeg_rounds (h p : Nat) (f : Seg → Seg) : (s.updSeg h p f).rounds = s.rounds := rfl
@[simp] theorem updSeg_mesh (h p : Nat) (f : Seg → Seg) : (s.updSeg h p f).mesh = s.mesh := rfl
@[simp] theorem updSeg_localDead (h p : Nat) (f : Seg → Seg) : (s.updSeg h p f).localDead = s.localDead := rfl
@[simp] theorem updSeg_escTable (h p : Nat) (f : Seg → Seg) : (s.updSeg h p f).escTable = s.escTable := rfl
@[simp] theorem updSeg_changes (h p : Nat) (f : Seg → Seg) : (s.updSeg h p f).changes = s.changes := rfl
@[simp] theorem updSeg_mnMask (h p : Nat) (f : Seg → Seg) : (s.updSeg h p f).mnMask = s.mnMask := rfl
@[simp] theorem updSeg_mnGen (h p : Nat) (f : Seg → Seg) : (s.updSeg h p f).mnGen = s.mnGen := rfl
@[simp] theorem updSeg_maskSent (h p : Nat) (f : Seg → Seg) : (s.updSeg h p f).maskSent = s.maskSent := rfl
@[simp] theorem updSeg_rateAt (h p : Nat) (f : Seg → Seg) : (s.updSeg h p f).rateAt = s.rateAt := rfl
@[simp] theorem updSeg_holds (h p : Nat) (f : Seg → Seg) : (s.updSeg h p f).holds = s.holds := rfl
@[simp] theorem updSeg_buckets (h p : Nat) (f : Seg → Seg) : (s.updSeg h p f).buckets = s.buckets := rfl
@[simp] theorem updSeg_tc0Wait (h p : Nat) (f : Seg → Seg) : (s.updSeg h p f).tc0Wait = s.tc0Wait := rfl
@[simp] theorem updSeg_ticks (h p : Nat) (f : Seg → Seg) : (s.updSeg h p f).ticks = s.ticks := rfl
@[simp] theorem updSeg_field (h p : Nat) (f : Seg → Seg) : (s.updSeg h p f).field = s.field := rfl
@[simp] theorem updSeg_links (h p : Nat) (f : Seg → Seg) : (s.updSeg h p f).links = s.links := rfl
@[simp] theorem updSeg_time (h p : Nat) (f : Seg → Seg) : (s.updSeg h p f).time = s.time := rfl
@[simp] theorem updSeg_host (h p : Nat) (f : Seg → Seg) : (s.updSeg h p f).host = s.host := rfl
@[simp] theorem updSeg_boot (h p : Nat) (f : Seg → Seg) : (s.updSeg h p f).boot = s.boot := rfl
@[simp] theorem updSeg_faults (h p : Nat) (f : Seg → Seg) : (s.updSeg h p f).faults = s.faults := rfl
@[simp] theorem updSeg_power (h p : Nat) (f : Seg → Seg) : (s.updSeg h p f).power = s.power := rfl
@[simp] theorem updSeg_sit (h p : Nat) (f : Seg → Seg) : (s.updSeg h p f).sit = s.sit := rfl
@[simp] theorem updSeg_mon (h p : Nat) (f : Seg → Seg) : (s.updSeg h p f).mon = s.mon := rfl
@[simp] theorem updSeg_pins (h p : Nat) (f : Seg → Seg) : (s.updSeg h p f).pins = s.pins := rfl
@[simp] theorem updSeg_outs (h p : Nat) (f : Seg → Seg) : (s.updSeg h p f).outs = s.outs := rfl
@[simp] theorem updSeg_free (h p : Nat) (f : Seg → Seg) : (s.updSeg h p f).free = s.free := rfl
@[simp] theorem updSeg_pending (h p : Nat) (f : Seg → Seg) : (s.updSeg h p f).pending = s.pending := rfl

/-! `pokeSite` -/

@[simp] theorem pokeSite_regs (t a : Nat) (b : List Byte) : (s.pokeSite t a b).regs = s.regs := rfl
@[simp] theorem pokeSite_flips (t a : Nat) (b : List Byte) : (s.pokeSite t a b).flips = s.flips := rfl
@[simp] theorem pokeSite_denyAt (t a : Nat) (b : List Byte) : (s.pokeSite t a b).denyAt = s.denyAt := rfl
@[simp] theorem pokeSite_arrays (t a : Nat) (b : List Byte) : (s.pokeSite t a b).arrays = s.arrays := rfl
@[simp] theorem pokeSite_tokens (t a : Nat) (b : List Byte) : (s.pokeSite t a b).tokens = s.tokens := rfl
@[simp] theorem pokeSite_regions (t a : Nat) (b : List Byte) : (s.pokeSite t a b).regions = s.regions := rfl
@[simp] theorem pokeSite_serial (t a : Nat) (b : List Byte) : (s.pokeSite t a b).serial = s.serial := rfl
@[simp] theorem pokeSite_eps (t a : Nat) (b : List Byte) : (s.pokeSite t a b).eps = s.eps := rfl
@[simp] theorem pokeSite_stack (t a : Nat) (b : List Byte) : (s.pokeSite t a b).stack = s.stack := rfl
@[simp] theorem pokeSite_stackErr (t a : Nat) (b : List Byte) : (s.pokeSite t a b).stackErr = s.stackErr := rfl
@[simp] theorem pokeSite_odecc (t a : Nat) (b : List Byte) : (s.pokeSite t a b).odecc = s.odecc := rfl
@[simp] theorem pokeSite_dir (t a : Nat) (b : List Byte) : (s.pokeSite t a b).dir = s.dir := rfl
@[simp] theorem pokeSite_tables (t a : Nat) (b : List Byte) : (s.pokeSite t a b).tables = s.tables := rfl
@[simp] theorem pokeSite_segs (t a : Nat) (b : List Byte) : (s.pokeSite t a b).segs = s.segs := rfl
@[simp] theorem pokeSite_tblCmd (t a : Nat) (b : List Byte) : (s.pokeSite t a b).tblCmd = s.tblCmd := rfl
@[simp] theorem pokeSite_resync (t a : Nat) (b : List Byte) : (s.pokeSite t a b).resync = s.resync := rfl
@[simp] theorem pokeSite_cache (t a : Nat) (b : List Byte) : (s.pokeSite t a b).cache = s.cache := rfl
@[simp] theorem pokeSite_fetch (t a : Nat) (b : List Byte) : (s.pokeSite t a b).fetch = s.fetch := rfl
@[simp] theorem pokeSite_missed (t a : Nat) (b : List Byte) : (s.pokeSite t a b).missed = s.missed := rfl
@[simp] theorem pokeSite_gathers (t a : Nat) (b : List Byte) : (s.pokeSite t a b).gathers = s.gathers := rfl
@[simp] theorem pokeSite_nextGather (t a : Nat) (b : List Byte) : (s.pokeSite t a b).nextGather = s.nextGather := rfl
@[simp] theorem pokeSite_hubWait (t a : Nat) (b : List Byte) : (s.pokeSite t a b).hubWait = s.hubWait := rfl
@[simp] theorem pokeSite_hubUsed (t a : Nat) (b : List Byte) : (s.pokeSite t a b).hubUsed = s.hubUsed := rfl
@[simp] theorem pokeSite_net (t a : Nat) (b : List Byte) : (s.pokeSite t a b).net = s.net := rfl
@[simp] theorem pokeSite_reqs (t a : Nat) (b : List Byte) : (s.pokeSite t a b).reqs = s.reqs := rfl
@[simp] theorem pokeSite_nextTag (t a : Nat) (b : List Byte) : (s.pokeSite t a b).nextTag = s.nextTag := rfl
@[simp] theorem pokeSite_mcast (t a : Nat) (b : List Byte) : (s.pokeSite t a b).mcast = s.mcast := rfl
@[simp] theorem pokeSite_redGroups (t a : Nat) (b : List Byte) : (s.pokeSite t a b).redGroups = s.redGroups := rfl
@[simp] theorem pokeSite_rounds (t a : Nat) (b : List Byte) : (s.pokeSite t a b).rounds = s.rounds := rfl
@[simp] theorem pokeSite_mesh (t a : Nat) (b : List Byte) : (s.pokeSite t a b).mesh = s.mesh := rfl
@[simp] theorem pokeSite_localDead (t a : Nat) (b : List Byte) : (s.pokeSite t a b).localDead = s.localDead := rfl
@[simp] theorem pokeSite_escTable (t a : Nat) (b : List Byte) : (s.pokeSite t a b).escTable = s.escTable := rfl
@[simp] theorem pokeSite_changes (t a : Nat) (b : List Byte) : (s.pokeSite t a b).changes = s.changes := rfl
@[simp] theorem pokeSite_mnMask (t a : Nat) (b : List Byte) : (s.pokeSite t a b).mnMask = s.mnMask := rfl
@[simp] theorem pokeSite_mnGen (t a : Nat) (b : List Byte) : (s.pokeSite t a b).mnGen = s.mnGen := rfl
@[simp] theorem pokeSite_maskSent (t a : Nat) (b : List Byte) : (s.pokeSite t a b).maskSent = s.maskSent := rfl
@[simp] theorem pokeSite_rateAt (t a : Nat) (b : List Byte) : (s.pokeSite t a b).rateAt = s.rateAt := rfl
@[simp] theorem pokeSite_holds (t a : Nat) (b : List Byte) : (s.pokeSite t a b).holds = s.holds := rfl
@[simp] theorem pokeSite_buckets (t a : Nat) (b : List Byte) : (s.pokeSite t a b).buckets = s.buckets := rfl
@[simp] theorem pokeSite_tc0Wait (t a : Nat) (b : List Byte) : (s.pokeSite t a b).tc0Wait = s.tc0Wait := rfl
@[simp] theorem pokeSite_ticks (t a : Nat) (b : List Byte) : (s.pokeSite t a b).ticks = s.ticks := rfl
@[simp] theorem pokeSite_field (t a : Nat) (b : List Byte) : (s.pokeSite t a b).field = s.field := rfl
@[simp] theorem pokeSite_links (t a : Nat) (b : List Byte) : (s.pokeSite t a b).links = s.links := rfl
@[simp] theorem pokeSite_time (t a : Nat) (b : List Byte) : (s.pokeSite t a b).time = s.time := rfl
@[simp] theorem pokeSite_host (t a : Nat) (b : List Byte) : (s.pokeSite t a b).host = s.host := rfl
@[simp] theorem pokeSite_boot (t a : Nat) (b : List Byte) : (s.pokeSite t a b).boot = s.boot := rfl
@[simp] theorem pokeSite_faults (t a : Nat) (b : List Byte) : (s.pokeSite t a b).faults = s.faults := rfl
@[simp] theorem pokeSite_power (t a : Nat) (b : List Byte) : (s.pokeSite t a b).power = s.power := rfl
@[simp] theorem pokeSite_sit (t a : Nat) (b : List Byte) : (s.pokeSite t a b).sit = s.sit := rfl
@[simp] theorem pokeSite_mon (t a : Nat) (b : List Byte) : (s.pokeSite t a b).mon = s.mon := rfl
@[simp] theorem pokeSite_pins (t a : Nat) (b : List Byte) : (s.pokeSite t a b).pins = s.pins := rfl
@[simp] theorem pokeSite_outs (t a : Nat) (b : List Byte) : (s.pokeSite t a b).outs = s.outs := rfl
@[simp] theorem pokeSite_free (t a : Nat) (b : List Byte) : (s.pokeSite t a b).free = s.free := rfl
@[simp] theorem pokeSite_pending (t a : Nat) (b : List Byte) : (s.pokeSite t a b).pending = s.pending := rfl

end State

end Sys2Proof.Machine
end

