-- ==== Sys2Proof/Laws/Regs.lean ====
section
/-! SUPPORT. Laws of register fields: what a field reads after a write, and what a write leaves. -/

namespace Sys2Proof.Machine

namespace State

theorem rd_congr {s t : State} (h : t.regs = s.regs) (f : Fld) (i : Nat) : t.rd f i = s.rd f i := by
  simp [State.rd, h]

@[simp] theorem rd_wr_self (s : State) (f : Fld) (i v : Nat) : (s.wr f i v).rd f i = v % 2 ^ f.w := by
  simp [State.rd, State.wr]

theorem rd_wr_ne (s : State) {f g : Fld} {i j : Nat} (v : Nat) (h : fldKey f i ≠ fldKey g j) : (s.wr g j v).rd f i = s.rd f i :=
  congrArg (· % 2 ^ f.w) (mget_mput_ne s.regs _ _ _ h)

end State

/-- Two fields with different numbers never share a key; every field of the table has a number below 1024. -/
theorem fldKey_ne_of_id {f g : Fld} {i j : Nat} (h : f.id ≠ g.id) (hf : f.id < 1024) (hg : g.id < 1024) : fldKey f i ≠ fldKey g j := by
  unfold fldKey; omega

theorem fldKey_ne_of_index {f : Fld} {i j : Nat} (h : i ≠ j) : fldKey f i ≠ fldKey f j := by
  unfold fldKey; omega

namespace State

/-- A write to a field of another register, in terms of the fields' numbers. -/
theorem rd_wr_id (s : State) {f g : Fld} {i j : Nat} (v : Nat) (h : f.id ≠ g.id) (hf : f.id < 1024) (hg : g.id < 1024) :
    (s.wr g j v).rd f i = s.rd f i := s.rd_wr_ne v (fldKey_ne_of_id h hf hg)

/-! Reading a field does not look beyond the registers. -/

variable (s : State) (f : Fld) (i : Nat)

@[simp] theorem rd_put (o : OutEv) : (s.put o).rd f i = s.rd f i := rfl
@[simp] theorem rd_send (p : Packet) : (s.send p).rd f i = s.rd f i := rfl
@[simp] theorem rd_take (p : Packet) : (s.take p).rd f i = s.rd f i := rfl
@[simp] theorem rd_request (r : Req) (p : Packet) : (s.request r p).rd f i = s.rd f i := rfl
@[simp] theorem rd_setArr (a : Nat) (x : ArrayState) : (s.setArr a x).rd f i = s.rd f i := rfl
@[simp] theorem rd_updArr (a : Nat) (g : ArrayState → ArrayState) : (s.updArr a g).rd f i = s.rd f i := rfl
@[simp] theorem rd_setEp (a e : Nat) (x : Ep) : (s.setEp a e x).rd f i = s.rd f i := rfl
@[simp] theorem rd_updEp (a e : Nat) (g : Ep → Ep) : (s.updEp a e g).rd f i = s.rd f i := rfl
@[simp] theorem rd_setRegion (l : Nat) (g : Region) : (s.setRegion l g).rd f i = s.rd f i := rfl
@[simp] theorem rd_setPort (p : Nat) (x : HostPort) : (s.setPort p x).rd f i = s.rd f i := rfl
@[simp] theorem rd_updPort (p : Nat) (g : HostPort → HostPort) : (s.updPort p g).rd f i = s.rd f i := rfl
@[simp] theorem rd_updDescr (d : DId) (g : FDescr → FDescr) : (s.updDescr d g).rd f i = s.rd f i := rfl
@[simp] theorem rd_setBoot (g : BootState → BootState) : (s.setBoot g).rd f i = s.rd f i := rfl
@[simp] theorem rd_setSit (g : SitState → SitState) : (s.setSit g).rd f i = s.rd f i := rfl
@[simp] theorem rd_setMon (g : MonState → MonState) : (s.setMon g).rd f i = s.rd f i := rfl
@[simp] theorem rd_setFirm (x : FirmState) : (s.setFirm x).rd f i = s.rd f i := rfl
@[simp] theorem rd_updIsl (j : Nat) (g : Island → Island) : (s.updIsl j g).rd f i = s.rd f i := rfl
@[simp] theorem rd_updLport (n : Nat) (g : LinkPort → LinkPort) : (s.updLport n g).rd f i = s.rd f i := rfl
@[simp] theorem rd_updFport (n : Nat) (g : FPort → FPort) : (s.updFport n g).rd f i = s.rd f i := rfl
@[simp] theorem rd_setField (x : FieldState) : (s.setField x).rd f i = s.rd f i := rfl
@[simp] theorem rd_updSeg (h p : Nat) (g : Seg → Seg) : (s.updSeg h p g).rd f i = s.rd f i := rfl
@[simp] theorem rd_pokeSite (t a : Nat) (b : List Byte) : (s.pokeSite t a b).rd f i = s.rd f i := rfl

/-! ### Frames of the registers -/

variable {s}

theorem RegsBut.refl (l : List (Fld × Nat)) : s.RegsBut s l := fun _ _ _ => rfl

theorem RegsBut.of_regs {t : State} {l : List (Fld × Nat)} (h : t.regs = s.regs) : s.RegsBut t l := fun f i _ => rd_congr h f i

theorem RegsBut.mono {t : State} {l m : List (Fld × Nat)} (h : s.RegsBut t l) (hl : ∀ p ∈ l, p ∈ m) : s.RegsBut t m :=
  fun f i hf => h f i (fun p hp => hf p (hl p hp))

theorem RegsBut.trans {t u : State} {l : List (Fld × Nat)} (h : s.RegsBut t l) (k : t.RegsBut u l) : s.RegsBut u l :=
  fun f i hf => (k f i hf).trans (h f i hf)

theorem RegsBut.congr {t u : State} {l : List (Fld × Nat)} (h : s.RegsBut t l) (e : u.regs = t.regs) : s.RegsBut u l :=
  h.trans (.of_regs e)

/-- A write to a listed field. -/
theorem RegsBut.wr {t : State} {l : List (Fld × Nat)} (h : s.RegsBut t l) {g : Fld} {j : Nat} (v : Nat) (hg : (g, j) ∈ l) :
    s.RegsBut (t.wr g j v) l :=
  fun f i hf => (rd_wr_ne t v (hf _ hg)).trans (h f i hf)

theorem RegsBut.cnt {t : State} {l : List (Fld × Nat)} (h : s.RegsBut t l) {g : Fld} {j : Nat} (n : Nat) (hg : (g, j) ∈ l) :
    s.RegsBut (t.cnt g j n) l := h.wr _ hg

end State

/-! ### Records (R441, R442) -/

namespace State

/-- A record changes the held records, the flash log and at most one count of lost records. -/
theorem issue_frame (s : State) (kind code : Nat) (u : UnitId) (d : List (Nat × Nat)) (n t : Nat) :
    { s.issue kind code u d n t with regs := s.regs, host := s.host, faults := s.faults } = s := by
  unfold State.issue
  dsimp only
  split
  · rfl
  · split <;> rfl

theorem issue_regsBut (s : State) (kind code : Nat) (u : UnitId) (d : List (Nat × Nat)) (n t : Nat) :
    s.RegsBut (s.issue kind code u d n t) lostRecords := by
  unfold State.issue
  dsimp only
  split
  · exact .of_regs rfl
  · split
    · exact RegsBut.cnt (.of_regs rfl) _ (by simp [lostRecords])
    · exact RegsBut.cnt (.of_regs rfl) _ (by simp [lostRecords])

theorem bark_frame (s : State) (code : Nat) (u : UnitId) (d : List (Nat × Nat)) (n : Nat) :
    { s.bark code u d n with regs := s.regs, host := s.host, faults := s.faults } = s := issue_frame ..

theorem bark_regsBut (s : State) (code : Nat) (u : UnitId) (d : List (Nat × Nat)) (n : Nat) :
    s.RegsBut (s.bark code u d n) lostRecords := issue_regsBut s 0 code u d n s.now

@[simp] theorem bark_mem (s : State) (code : Nat) (u : UnitId) (d : List (Nat × Nat)) (n : Nat) : (s.bark code u d n).mem = s.mem :=
  by have h := congrArg State.mem (bark_frame s code u d n); exact h
@[simp] theorem bark_flips (s : State) (code : Nat) (u : UnitId) (d : List (Nat × Nat)) (n : Nat) : (s.bark code u d n).flips = s.flips :=
  by have h := congrArg State.flips (bark_frame s code u d n); exact h
@[simp] theorem bark_denyAt (s : State) (code : Nat) (u : UnitId) (d : List (Nat × Nat)) (n : Nat) : (s.bark code u d n).denyAt = s.denyAt :=
  by have h := congrArg State.denyAt (bark_frame s code u d n); exact h
@[simp] theorem bark_arrays (s : State) (code : Nat) (u : UnitId) (d : List (Nat × Nat)) (n : Nat) : (s.bark code u d n).arrays = s.arrays :=
  by have h := congrArg State.arrays (bark_frame s code u d n); exact h
@[simp] theorem bark_tokens (s : State) (code : Nat) (u : UnitId) (d : List (Nat × Nat)) (n : Nat) : (s.bark code u d n).tokens = s.tokens :=
  by have h := congrArg State.tokens (bark_frame s code u d n); exact h
@[simp] theorem bark_regions (s : State) (code : Nat) (u : UnitId) (d : List (Nat × Nat)) (n : Nat) : (s.bark code u d n).regions = s.regions :=
  by have h := congrArg State.regions (bark_frame s code u d n); exact h
@[simp] theorem bark_serial (s : State) (code : Nat) (u : UnitId) (d : List (Nat × Nat)) (n : Nat) : (s.bark code u d n).serial = s.serial :=
  by have h := congrArg State.serial (bark_frame s code u d n); exact h
@[simp] theorem bark_eps (s : State) (code : Nat) (u : UnitId) (d : List (Nat × Nat)) (n : Nat) : (s.bark code u d n).eps = s.eps :=
  by have h := congrArg State.eps (bark_frame s code u d n); exact h
@[simp] theorem bark_stack (s : State) (code : Nat) (u : UnitId) (d : List (Nat × Nat)) (n : Nat) : (s.bark code u d n).stack = s.stack :=
  by have h := congrArg State.stack (bark_frame s code u d n); exact h
@[simp] theorem bark_stackErr (s : State) (code : Nat) (u : UnitId) (d : List (Nat × Nat)) (n : Nat) : (s.bark code u d n).stackErr = s.stackErr :=
  by have h := congrArg State.stackErr (bark_frame s code u d n); exact h
@[simp] theorem bark_odecc (s : State) (code : Nat) (u : UnitId) (d : List (Nat × Nat)) (n : Nat) : (s.bark code u d n).odecc = s.odecc :=
  by have h := congrArg State.odecc (bark_frame s code u d n); exact h
@[simp] theorem bark_dir (s : State) (code : Nat) (u : UnitId) (d : List (Nat × Nat)) (n : Nat) : (s.bark code u d n).dir = s.dir :=
  by have h := congrArg State.dir (bark_frame s code u d n); exact h
@[simp] theorem bark_tables (s : State) (code : Nat) (u : UnitId) (d : List (Nat × Nat)) (n : Nat) : (s.bark code u d n).tables = s.tables :=
  by have h := congrArg State.tables (bark_frame s code u d n); exact h
@[simp] theorem bark_segs (s : State) (code : Nat) (u : UnitId) (d : List (Nat × Nat)) (n : Nat) : (s.bark code u d n).segs = s.segs :=
  by have h := congrArg State.segs (bark_frame s code u d n); exact h
@[simp] theorem bark_tblCmd (s : State) (code : Nat) (u : UnitId) (d : List (Nat × Nat)) (n : Nat) : (s.bark code u d n).tblCmd = s.tblCmd :=
  by have h := congrArg State.tblCmd (bark_frame s code u d n); exact h
@[simp] theorem bark_resync (s : State) (code : Nat) (u : UnitId) (d : List (Nat × Nat)) (n : Nat) : (s.bark code u d n).resync = s.resync :=
  by have h := congrArg State.resync (bark_frame s code u d n); exact h
@[simp] theorem bark_cache (s : State) (code : Nat) (u : UnitId) (d : List (Nat × Nat)) (n : Nat) : (s.bark code u d n).cache = s.cache :=
  by have h := congrArg State.cache (bark_frame s code u d n); exact h
@[simp] theorem bark_fetch (s : State) (code : Nat) (u : UnitId) (d : List (Nat × Nat)) (n : Nat) : (s.bark code u d n).fetch = s.fetch :=
  by have h := congrArg State.fetch (bark_frame s code u d n); exact h
@[simp] theorem bark_missed (s : State) (code : Nat) (u : UnitId) (d : List (Nat × Nat)) (n : Nat) : (s.bark code u d n).missed = s.missed :=
  by have h := congrArg State.missed (bark_frame s code u d n); exact h
@[simp] theorem bark_gathers (s : State) (code : Nat) (u : UnitId) (d : List (Nat × Nat)) (n : Nat) : (s.bark code u d n).gathers = s.gathers :=
  by have h := congrArg State.gathers (bark_frame s code u d n); exact h
@[simp] theorem bark_nextGather (s : State) (code : Nat) (u : UnitId) (d : List (Nat × Nat)) (n : Nat) : (s.bark code u d n).nextGather = s.nextGather :=
  by have h := congrArg State.nextGather (bark_frame s code u d n); exact h
@[simp] theorem bark_hubWait (s : State) (code : Nat) (u : UnitId) (d : List (Nat × Nat)) (n : Nat) : (s.bark code u d n).hubWait = s.hubWait :=
  by have h := congrArg State.hubWait (bark_frame s code u d n); exact h
@[simp] theorem bark_hubUsed (s : State) (code : Nat) (u : UnitId) (d : List (Nat × Nat)) (n : Nat) : (s.bark code u d n).hubUsed = s.hubUsed :=
  by have h := congrArg State.hubUsed (bark_frame s code u d n); exact h
@[simp] theorem bark_net (s : State) (code : Nat) (u : UnitId) (d : List (Nat × Nat)) (n : Nat) : (s.bark code u d n).net = s.net :=
  by have h := congrArg State.net (bark_frame s code u d n); exact h
@[simp] theorem bark_reqs (s : State) (code : Nat) (u : UnitId) (d : List (Nat × Nat)) (n : Nat) : (s.bark code u d n).reqs = s.reqs :=
  by have h := congrArg State.reqs (bark_frame s code u d n); exact h
@[simp] theorem bark_nextTag (s : State) (code : Nat) (u : UnitId) (d : List (Nat × Nat)) (n : Nat) : (s.bark code u d n).nextTag = s.nextTag :=
  by have h := congrArg State.nextTag (bark_frame s code u d n); exact h
@[simp] theorem bark_mcast (s : State) (code : Nat) (u : UnitId) (d : List (Nat × Nat)) (n : Nat) : (s.bark code u d n).mcast = s.mcast :=
  by have h := congrArg State.mcast (bark_frame s code u d n); exact h
@[simp] theorem bark_redGroups (s : State) (code : Nat) (u : UnitId) (d : List (Nat × Nat)) (n : Nat) : (s.bark code u d n).redGroups = s.redGroups :=
  by have h := congrArg State.redGroups (bark_frame s code u d n); exact h
@[simp] theorem bark_rounds (s : State) (code : Nat) (u : UnitId) (d : List (Nat × Nat)) (n : Nat) : (s.bark code u d n).rounds = s.rounds :=
  by have h := congrArg State.rounds (bark_frame s code u d n); exact h
@[simp] theorem bark_mesh (s : State) (code : Nat) (u : UnitId) (d : List (Nat × Nat)) (n : Nat) : (s.bark code u d n).mesh = s.mesh :=
  by have h := congrArg State.mesh (bark_frame s code u d n); exact h
@[simp] theorem bark_localDead (s : State) (code : Nat) (u : UnitId) (d : List (Nat × Nat)) (n : Nat) : (s.bark code u d n).localDead = s.localDead :=
  by have h := congrArg State.localDead (bark_frame s code u d n); exact h
@[simp] theorem bark_escTable (s : State) (code : Nat) (u : UnitId) (d : List (Nat × Nat)) (n : Nat) : (s.bark code u d n).escTable = s.escTable :=
  by have h := congrArg State.escTable (bark_frame s code u d n); exact h
@[simp] theorem bark_changes (s : State) (code : Nat) (u : UnitId) (d : List (Nat × Nat)) (n : Nat) : (s.bark code u d n).changes = s.changes :=
  by have h := congrArg State.changes (bark_frame s code u d n); exact h
@[simp] theorem bark_mnMask (s : State) (code : Nat) (u : UnitId) (d : List (Nat × Nat)) (n : Nat) : (s.bark code u d n).mnMask = s.mnMask :=
  by have h := congrArg State.mnMask (bark_frame s code u d n); exact h
@[simp] theorem bark_mnGen (s : State) (code : Nat) (u : UnitId) (d : List (Nat × Nat)) (n : Nat) : (s.bark code u d n).mnGen = s.mnGen :=
  by have h := congrArg State.mnGen (bark_frame s code u d n); exact h
@[simp] theorem bark_maskSent (s : State) (code : Nat) (u : UnitId) (d : List (Nat × Nat)) (n : Nat) : (s.bark code u d n).maskSent = s.maskSent :=
  by have h := congrArg State.maskSent (bark_frame s code u d n); exact h
@[simp] theorem bark_rateAt (s : State) (code : Nat) (u : UnitId) (d : List (Nat × Nat)) (n : Nat) : (s.bark code u d n).rateAt = s.rateAt :=
  by have h := congrArg State.rateAt (bark_frame s code u d n); exact h
@[simp] theorem bark_holds (s : State) (code : Nat) (u : UnitId) (d : List (Nat × Nat)) (n : Nat) : (s.bark code u d n).holds = s.holds :=
  by have h := congrArg State.holds (bark_frame s code u d n); exact h
@[simp] theorem bark_buckets (s : State) (code : Nat) (u : UnitId) (d : List (Nat × Nat)) (n : Nat) : (s.bark code u d n).buckets = s.buckets :=
  by have h := congrArg State.buckets (bark_frame s code u d n); exact h
@[simp] theorem bark_tc0Wait (s : State) (code : Nat) (u : UnitId) (d : List (Nat × Nat)) (n : Nat) : (s.bark code u d n).tc0Wait = s.tc0Wait :=
  by have h := congrArg State.tc0Wait (bark_frame s code u d n); exact h
@[simp] theorem bark_ticks (s : State) (code : Nat) (u : UnitId) (d : List (Nat × Nat)) (n : Nat) : (s.bark code u d n).ticks = s.ticks :=
  by have h := congrArg State.ticks (bark_frame s code u d n); exact h
@[simp] theorem bark_field (s : State) (code : Nat) (u : UnitId) (d : List (Nat × Nat)) (n : Nat) : (s.bark code u d n).field = s.field :=
  by have h := congrArg State.field (bark_frame s code u d n); exact h
@[simp] theorem bark_links (s : State) (code : Nat) (u : UnitId) (d : List (Nat × Nat)) (n : Nat) : (s.bark code u d n).links = s.links :=
  by have h := congrArg State.links (bark_frame s code u d n); exact h
@[simp] theorem bark_time (s : State) (code : Nat) (u : UnitId) (d : List (Nat × Nat)) (n : Nat) : (s.bark code u d n).time = s.time :=
  by have h := congrArg State.time (bark_frame s code u d n); exact h
@[simp] theorem bark_boot (s : State) (code : Nat) (u : UnitId) (d : List (Nat × Nat)) (n : Nat) : (s.bark code u d n).boot = s.boot :=
  by have h := congrArg State.boot (bark_frame s code u d n); exact h
@[simp] theorem bark_power (s : State) (code : Nat) (u : UnitId) (d : List (Nat × Nat)) (n : Nat) : (s.bark code u d n).power = s.power :=
  by have h := congrArg State.power (bark_frame s code u d n); exact h
@[simp] theorem bark_sit (s : State) (code : Nat) (u : UnitId) (d : List (Nat × Nat)) (n : Nat) : (s.bark code u d n).sit = s.sit :=
  by have h := congrArg State.sit (bark_frame s code u d n); exact h
@[simp] theorem bark_mon (s : State) (code : Nat) (u : UnitId) (d : List (Nat × Nat)) (n : Nat) : (s.bark code u d n).mon = s.mon :=
  by have h := congrArg State.mon (bark_frame s code u d n); exact h
@[simp] theorem bark_pins (s : State) (code : Nat) (u : UnitId) (d : List (Nat × Nat)) (n : Nat) : (s.bark code u d n).pins = s.pins :=
  by have h := congrArg State.pins (bark_frame s code u d n); exact h
@[simp] theorem bark_outs (s : State) (code : Nat) (u : UnitId) (d : List (Nat × Nat)) (n : Nat) : (s.bark code u d n).outs = s.outs :=
  by have h := congrArg State.outs (bark_frame s code u d n); exact h
@[simp] theorem bark_free (s : State) (code : Nat) (u : UnitId) (d : List (Nat × Nat)) (n : Nat) : (s.bark code u d n).free = s.free :=
  by have h := congrArg State.free (bark_frame s code u d n); exact h
@[simp] theorem bark_pending (s : State) (code : Nat) (u : UnitId) (d : List (Nat × Nat)) (n : Nat) : (s.bark code u d n).pending = s.pending :=
  by have h := congrArg State.pending (bark_frame s code u d n); exact h

/-- The flash log takes every bark record (R533). -/
theorem bark_log (s : State) (code : Nat) (u : UnitId) (d : List (Nat × Nat)) : s.Barked (s.bark code u d) code u d := by
  unfold State.Barked State.bark State.issue
  dsimp only
  split
  · simp
  · split <;> simp [State.cnt, State.wr]

/-- Every field but the lost-record counts reads through a bark. -/
theorem rd_bark (s : State) (code : Nat) (u : UnitId) (d : List (Nat × Nat)) (n : Nat) {f : Fld} {i : Nat} (hi : f.id < 1024)
    (hf : f.id ≠ F.rngEvtStat_lostTel.id) (hg : f.id ≠ F.rngEvtStat_lostBark.id) : (s.bark code u d n).rd f i = s.rd f i := by
  refine bark_regsBut s code u d n f i ?_
  simp only [lostRecords, List.mem_cons, List.not_mem_nil, or_false, forall_eq_or_imp, forall_eq]
  exact ⟨fldKey_ne_of_id hf hi (by decide), fldKey_ne_of_id hg hi (by decide)⟩

end State

end Sys2Proof.Machine
end

