-- ==== Sys2Proof/Laws/Memory.lean ====
section
/-! SUPPORT. Laws of the shared operations over memories, errors, counters and health: what each leaves, and that every one keeps the
canonical form of scratchpads and stacks. -/

namespace Sys2Proof.Machine

/-- `t` differs from `s` at most in registers, records held for the host, and the fault unit. -/
def State.Reports (s t : State) : Prop := { t with regs := s.regs, host := s.host, faults := s.faults } = s

/-- `t` differs from `s` at most in scratchpads and in what it reports. -/
def State.Stores (s t : State) : Prop :=
  { t with mem := s.mem, flips := s.flips, regs := s.regs, host := s.host, faults := s.faults } = s

namespace State.Reports

theorem refl (s : State) : s.Reports s := rfl

theorem trans {s t u : State} (h : s.Reports t) (k : t.Reports u) : s.Reports u := by
  unfold State.Reports at *; rw [← k] at h; exact h

theorem wr {s t : State} (h : s.Reports t) (f : Fld) (i v : Nat) : s.Reports (t.wr f i v) := h

theorem cnt {s t : State} (h : s.Reports t) (f : Fld) (i n : Nat) : s.Reports (t.cnt f i n) := h

theorem of_bark (t : State) (code : Nat) (u : UnitId) (d : List (Nat × Nat)) (n : Nat) : t.Reports (t.bark code u d n) :=
  bark_frame t code u d n

theorem bark {s t : State} (h : s.Reports t) (code : Nat) (u : UnitId) (d : List (Nat × Nat)) (n : Nat) : s.Reports (t.bark code u d n) :=
  h.trans (of_bark t code u d n)

/-- A loop of steps that only report only reports. -/
theorem foldl {α : Type} (g : State → α → State) (hg : ∀ (t : State) (a : α), t.Reports (g t a)) : ∀ (l : List α) {s t : State}, s.Reports t →
    s.Reports (l.foldl g t)
  | [], _, _, h => h
  | a :: l, _, t, h => foldl g hg l (h.trans (hg t a))

theorem setPenalty {s t : State} (h : s.Reports t) (u p : Nat) : s.Reports (t.setPenalty u p) := by
  refine h.trans ?_
  unfold State.setPenalty
  dsimp only
  split
  · exact refl t
  · split
    · refine trans ?_ (of_bark ..)
      rfl
    · exact refl t

theorem penalize {s t : State} (h : s.Reports t) (u n : Nat) : s.Reports (t.penalize u n) := by
  unfold State.penalize
  split
  · exact h
  · exact h.setPenalty ..

theorem penalizeFine {s t : State} (h : s.Reports t) (u n : Nat) : s.Reports (t.penalizeFine u n) := by
  unfold State.penalizeFine
  dsimp only
  split
  · exact h
  · refine h.trans (penalize ?_ ..)
    rfl

theorem when {s t : State} (h : s.Reports t) (c : Bool) (g : State → State) (hg : s.Reports (g t)) : s.Reports (t.when c g) := by
  unfold State.when
  split
  · exact hg
  · exact h

theorem mem {s t : State} (h : s.Reports t) : t.mem = s.mem := by
  have k := congrArg State.mem h; exact k
theorem stack {s t : State} (h : s.Reports t) : t.stack = s.stack := by
  have k := congrArg State.stack h; exact k
theorem pending {s t : State} (h : s.Reports t) : t.pending = s.pending := by
  have k := congrArg State.pending h; exact k

theorem memOk {s t : State} (h : s.Reports t) (m : s.MemOk) : t.MemOk := by
  unfold State.MemOk at *; rw [h.mem, h.stack]; exact m

end State.Reports

namespace State.Stores

theorem refl (s : State) : s.Stores s := rfl

theorem trans {s t u : State} (h : s.Stores t) (k : t.Stores u) : s.Stores u := by
  unfold State.Stores at *; rw [← k] at h; exact h

theorem of_reports {s t : State} (h : s.Reports t) : s.Stores t := by
  have k := congrArg (fun x : State => { x with mem := s.mem, flips := s.flips }) h; exact k

theorem foldl {α : Type} (g : State → α → State) (hg : ∀ (t : State) (a : α), t.Stores (g t a)) : ∀ (l : List α) {s t : State}, s.Stores t →
    s.Stores (l.foldl g t)
  | [], _, _, h => h
  | a :: l, _, t, h => foldl g hg l (h.trans (hg t a))

theorem stack {s t : State} (h : s.Stores t) : t.stack = s.stack := by
  have k := congrArg State.stack h; exact k
theorem pending {s t : State} (h : s.Stores t) : t.pending = s.pending := by
  have k := congrArg State.pending h; exact k

end State.Stores

namespace State

/-! ### Places (R163, R198) -/

theorem bankOf_lt (x : Nat) : bankOf x < 64 :=
  Nat.xor_lt_two_pow (n := 6) (Nat.mod_lt _ (by decide)) (Nat.mod_lt _ (by decide))

theorem key_line (site : Nat) {b l r : Nat} (_ : b < 64) (hl : l < 16384) (hr : r < 64) :
    (site * 67108864 + b * 1048576 + l * 64 + r) / 64 % 16384 = l := by omega

theorem key_bank (site : Nat) {b l r : Nat} (hb : b < 64) (hl : l < 16384) (hr : r < 64) :
    (site * 67108864 + b * 1048576 + l * 64 + r) / 1048576 % 64 = b := by omega

theorem key_byte (site : Nat) {b l r : Nat} (_ : b < 64) (_ : l < 16384) (hr : r < 64) :
    (site * 67108864 + b * 1048576 + l * 64 + r) % 64 = r := by omega

theorem stack_line (p : Nat) {b l r : Nat} (_ : b < 64) (hl : l < 4194304) (hr : r < 256) :
    (p * 68719476736 + b * 1073741824 + l * 256 + r) / 256 % 4194304 = l := by omega

theorem stack_channel (p : Nat) {b l r : Nat} (hb : b < 64) (hl : l < 4194304) (hr : r < 256) :
    (p * 68719476736 + b * 1073741824 + l * 256 + r) / 1073741824 % 64 = b := by omega

theorem stack_byte (p : Nat) {b l r : Nat} (_ : b < 64) (_ : l < 4194304) (hr : r < 256) :
    (p * 68719476736 + b * 1073741824 + l * 256 + r) % 256 = r := by omega

/-- A local address is found again from the place of its byte. -/
theorem cellAddr_cellKey (site : Nat) {x : Nat} (h : x < 67108864) : cellAddr (cellKey site x) = x := by
  have hb := bankOf_lt x
  have hl : x / 4096 % 16384 < 16384 := Nat.mod_lt _ (by decide)
  have hr : x % 64 < 64 := Nat.mod_lt _ (by decide)
  have h1 : cellKey site x / 64 % 16384 = x / 4096 := (key_line site hb hl hr).trans (by omega)
  have h2 : cellKey site x / 1048576 % 64 = bankOf x := key_bank site hb hl hr
  have h3 : cellKey site x % 64 = x % 64 := key_byte site hb hl hr
  have h4 : bankOf x ^^^ x / 4096 % 64 = x / 64 % 64 := by
    unfold bankOf; rw [Nat.xor_assoc, Nat.xor_self, Nat.xor_zero]
  unfold cellAddr
  simp only [h1, h2, h3, h4]
  omega

/-- Two bytes of a site have two places. -/
theorem cellKey_inj (site : Nat) {x y : Nat} (hx : x < 67108864) (hy : y < 67108864) (h : cellKey site x = cellKey site y) : x = y := by
  rw [← cellAddr_cellKey site hx, h, cellAddr_cellKey site hy]

/-- The place tells the site. -/
theorem cellKey_site (site x : Nat) : cellKey site x / 67108864 = site := by
  have hb := bankOf_lt x
  unfold cellKey bankLine
  omega

theorem pseudoChannel_lt (g : Nat) : pseudoChannel g < 64 :=
  Nat.xor_lt_two_pow (n := 6) (Nat.mod_lt _ (by decide)) (Nat.mod_lt _ (by decide))

/-- A stack offset is found again from the place of its byte. -/
theorem stackOff_stackKey (p : Nat) {x : Nat} (h : x < 68719476736) : stackOff (stackKey p x) = x := by
  have hb := pseudoChannel_lt (x / 256)
  have hl : x / 16384 < 4194304 := by omega
  have hr : x % 256 < 256 := Nat.mod_lt _ (by decide)
  have h1 : stackKey p x / 256 % 4194304 = x / 16384 := stack_line p hb hl hr
  have h2 : stackKey p x / 1073741824 % 64 = pseudoChannel (x / 256) := stack_channel p hb hl hr
  have h3 : stackKey p x % 256 = x % 256 := stack_byte p hb hl hr
  have h4 : pseudoChannel (x / 256) ^^^ x / 16384 % 64 = x / 256 % 64 := by
    unfold pseudoChannel
    rw [Nat.div_div_eq_div_mul, Nat.xor_assoc, Nat.xor_self, Nat.xor_zero]
  unfold stackOff
  simp only [h1, h2, h3, h4]
  omega

/-- Two bytes of a stack have two places. -/
theorem stackKey_inj (p : Nat) {x y : Nat} (hx : x < 68719476736) (hy : y < 68719476736) (h : stackKey p x = stackKey p y) : x = y := by
  rw [← stackOff_stackKey p hx, h, stackOff_stackKey p hy]

/-- A byte of a site reads as before where a write of consecutive bytes there does not reach it. -/
theorem byte_tileWrite_out (m : List Host.Cell) (site a : Nat) (l : List Byte) {t x : Nat} (hx : x < 67108864) (hl : a + l.length ≤ 67108864)
    (h : t = site → x < a ∨ a + l.length ≤ x) : Memory.read (Memory.tileWrite m site a l) (cellKey t x) = Memory.read m (cellKey t x) := by
  refine Memory.read_writeBytes_out _ _ _ _ (fun j hj e => ?_)
  have hs : site = t := by rw [← cellKey_site site (a + j), e, cellKey_site]
  subst hs
  have := cellKey_inj site (by omega) hx e
  have := h rfl
  omega

variable (s : State)

/-! ### Counters, health, errors -/

theorem ctrAdd_reports (a c v : Nat) : s.Reports (s.ctrAdd a c v) := by
  unfold State.ctrAdd
  dsimp only
  split
  · refine Reports.trans ?_ (Reports.of_bark ..)
    rfl
  · rfl

theorem ctrClear_reports (a m : Nat) : s.Reports (s.ctrClear a m) :=
  Reports.foldl (fun (s : State) c => s.wr F.tmCtr_value (a * 64 + c) 0) (fun _ _ => rfl) _ (Reports.refl s)

theorem logErrs_reports (a port : Nat) (sec : Bool) (kind : Nat) (corr bad : List Nat) : s.Reports (s.logErrs a port sec kind corr bad) := by
  unfold State.logErrs
  refine Reports.foldl _ (fun t w => ?_) _ ?_
  · refine Reports.bark ?_ ..
    generalize (if sec = true then F.tmErrCnt_uncorrCnt else F.tmErrCnt_parCnt) = g
    split
    · exact (Reports.cnt (Reports.refl t) ..).penalize ..
    · exact ((((((Reports.cnt (Reports.refl t) ..).penalize ..).wr ..).wr ..).wr ..).wr ..).wr ..
  · exact Reports.when (Reports.penalize (Reports.cnt (Reports.refl s) ..) ..) _ _
      (Reports.bark (Reports.penalize (Reports.cnt (Reports.refl s) ..) ..) ..)

theorem hubUncorr_reports (p : Nat) : s.Reports (s.hubUncorr p) := Reports.penalize (Reports.cnt (Reports.refl s) ..) ..

theorem hubLog_reports (p b kind : Nat) : s.Reports (s.hubLog p b kind) := by
  unfold State.hubLog
  dsimp only
  split <;> split <;> rfl

/-! ### Reads of a tile and of a stack -/

theorem readTile_reports (a n port addr len : Nat) : s.Reports (s.readTile a n port addr len).2 := by
  unfold State.readTile
  dsimp only
  split
  · exact Reports.refl s
  · exact logErrs_reports ..

theorem tryRead_reports (a port : Nat) (w : Who) (addr len : Nat) : s.Reports (s.tryRead a port w addr len).2.2 := by
  unfold State.tryRead
  split
  · exact Reports.refl s
  · split
    · dsimp only
      split <;> exact readTile_reports ..
    · exact Reports.refl s

theorem checkedBlock_reports (p b : Nat) : s.Reports (s.checkedBlock p b).2 := by
  have h : s.Reports ((s.cnt F.hubErrCnt2_odeccCnt p (mget s.odecc (blockKey p b) 0)).penalizeFine (576 + p) (16 * mget s.odecc (blockKey p b) 0)) :=
    Reports.penalizeFine (Reports.cnt (Reports.refl s) ..) ..
  unfold State.checkedBlock
  dsimp only
  split
  · exact h
  · exact (h.cnt ..).penalize ..
  · exact h.trans (hubUncorr_reports ..)

theorem readBlock_reports (p b kind : Nat) : s.Reports (s.readBlock p b kind).2 := by
  unfold State.readBlock
  dsimp only
  split
  · exact checkedBlock_reports ..
  · exact (checkedBlock_reports ..).trans (hubLog_reports ..)

/-! ### Writes of a tile -/

theorem pokeSite_stores (t a : Nat) (b : List Byte) : s.Stores (s.pokeSite t a b) := rfl

theorem clearFlips_stores (t : Nat) (sec : Bool) (a n : Nat) : s.Stores (s.clearFlips t sec a n) := by
  unfold State.clearFlips
  split
  · exact Stores.refl s
  · rfl

theorem mendWords_stores (t : Nat) (ws : List Nat) : s.Stores (s.mendWords t ws) := rfl

/-- A checked write changes scratchpads, their flips, and what it reports. -/
theorem writeTile_stores (a n port addr : Nat) (b : List Byte) : s.Stores (s.writeTile a n port addr b).2 := by
  unfold State.writeTile
  dsimp only
  generalize (if (s.rd F.tmRgn_prot (a * 16 + n) == 1) = true then s.mergeErrs (s.siteOf a) addr b.length else ([], [])) = e
  split
  · exact (clearFlips_stores ..).trans (pokeSite_stores ..)
  · refine Stores.trans (Stores.foldl _ (fun t j => ?_) _ (mendWords_stores ..)) (Stores.of_reports (logErrs_reports ..))
    split
    · exact Stores.refl t
    · exact (clearFlips_stores ..).trans (pokeSite_stores ..)

theorem tryWrite_stores (a port : Nat) (w : Who) (addr : Nat) (b : List Byte) : s.Stores (s.tryWrite a port w addr b).2 := by
  unfold State.tryWrite
  split
  · exact Stores.refl s
  · split
    · exact writeTile_stores ..
    · exact Stores.refl s

variable {s}

/-! ### The canonical form (R176, R199) -/

theorem pokeSite_memOk (h : s.MemOk) (t a : Nat) (b : List Byte) : (s.pokeSite t a b).MemOk := ⟨Memory.wf_writeBytes _ _ _ _ h.1, h.2⟩

theorem clearFlips_memOk (h : s.MemOk) (t : Nat) (sec : Bool) (a n : Nat) : (s.clearFlips t sec a n).MemOk := by
  unfold State.clearFlips
  split
  · exact h
  · exact h

theorem foldl_memOk {α : Type} (g : State → α → State) (hg : ∀ (t : State) (a : α), t.MemOk → (g t a).MemOk) : ∀ (l : List α) {t : State}, t.MemOk →
    (l.foldl g t).MemOk
  | [], _, h => h
  | a :: l, t, h => foldl_memOk g hg l (hg t a h)

theorem writeTile_memOk (h : s.MemOk) (a n port addr : Nat) (b : List Byte) : (s.writeTile a n port addr b).2.MemOk := by
  unfold State.writeTile
  dsimp only
  generalize (if (s.rd F.tmRgn_prot (a * 16 + n) == 1) = true then s.mergeErrs (s.siteOf a) addr b.length else ([], [])) = e
  split
  · exact pokeSite_memOk (clearFlips_memOk h ..) ..
  · refine (logErrs_reports ..).memOk (foldl_memOk _ (fun t j ht => ?_) _ h)
    split
    · exact ht
    · exact pokeSite_memOk (clearFlips_memOk ht ..) ..

theorem tryWrite_memOk (h : s.MemOk) (a port : Nat) (w : Who) (addr : Nat) (b : List Byte) : (s.tryWrite a port w addr b).2.MemOk := by
  unfold State.tryWrite
  split
  · exact h
  · split
    · exact writeTile_memOk h ..
    · exact h

theorem zeroSite_memOk (h : s.MemOk) (t : Nat) : (s.zeroSite t).MemOk := ⟨Memory.wf_filter _ _ h.1, h.2⟩

theorem zeroRange_memOk (h : s.MemOk) (t lo hi : Nat) : (s.zeroRange t lo hi).MemOk := ⟨Memory.wf_filter _ _ h.1, h.2⟩

theorem zeroStack_memOk (h : s.MemOk) (p : Nat) : (s.zeroStack p).MemOk := ⟨h.1, Memory.wf_filter _ _ h.2⟩

theorem cacheWrite_memOk (h : s.MemOk) (p off len : Nat) : (s.cacheWrite p off len).MemOk := by
  unfold State.cacheWrite
  split <;> exact h

theorem pokeStack_memOk (h : s.MemOk) (p o : Nat) (b : List Byte) : (s.pokeStack p o b).MemOk := by
  unfold State.pokeStack
  refine cacheWrite_memOk ?_ ..
  exact ⟨h.1, Memory.wf_writeBytes _ _ _ _ h.2⟩

theorem clearCache_memOk (h : s.MemOk) (p : Nat) : (s.clearCache p).MemOk := h

/-- Copying cells to other addresses keeps the canonical form. -/
theorem wf_moves {α : Type} (l : List α) (g : α → Nat × Byte) : ∀ (m : List Host.Cell), Memory.wf m = true →
    Memory.wf (l.foldl (fun m c => Memory.write m (g c).1 (g c).2) m) = true := by
  induction l with
  | nil => exact fun _ h => h
  | cons c l ih => exact fun m h => ih _ (Memory.wf_write _ _ _ h)

theorem copyTile_memOk (h : s.MemOk) (a old new : Nat) : (s.copyTile a old new).MemOk :=
  ⟨wf_moves _ (fun c : Host.Cell => (new * 67108864 + c.1 % 67108864, c.2)) _ h.1, h.2⟩

theorem copyExtent_memOk (h : s.MemOk) (q qo p po len : Nat) : (s.copyExtent q qo p po len).MemOk := by
  unfold State.copyExtent State.each
  dsimp only
  refine cacheWrite_memOk (foldl_memOk _ (fun t b ht => ?_) _ ?_) ..
  rotate_left
  · exact ⟨h.1, wf_moves _ (fun c : Host.Cell => c) _ (Memory.wf_filter _ _ h.2)⟩
  have k := (readBlock_reports t q (qo / 64 + b) 3).memOk ht
  split
  · exact pokeStack_memOk k ..
  · exact (Reports.penalize (Reports.cnt (Reports.refl _) ..) ..).memOk k

/-- The memories of the state after reset. -/
theorem reset_memOk : State.reset.MemOk := ⟨rfl, rfl⟩

end State

end Sys2Proof.Machine
end

