-- ==== Sys2Proof/WellFormed.lean ====
section
/-! DEFINITION. Well-formed commands: operands that the spec's formats can carry (R241, R243, R331, R367, R368, R433, R506, R544). The
machine gives every command a meaning, a well-formed one or not. -/

namespace Sys2Proof

/-- A destination or source that `DST_KIND` and unit can name. -/
def Endpoint.wf : Endpoint → Bool
  | .tile a => decide (a < 512)
  | .hub p => decide (p < 64)
  | .field d => decide (d < 2)
  | .host h => decide (h < 2)
  | .link n => decide (n < 8)
  | .mgmt m => decide (m < 2)
  | .group g => decide (g < 512)
  | .broadcast => true

/-- A route over the 24 by 24 routers, of a 16-bit mask generation (R250, R271). -/
def Route.wf (r : Route) : Bool :=
  decide (r.site < 576) && r.via.all (fun v => decide (v.1 < 24) && decide (v.2 < 24)) && decide (r.gen < 65536)

/-- A packet as the header of R241 spells it. -/
def Packet.wf (p : Packet) : Bool :=
  p.route.wf &&
  decide (p.cls < 4) && p.dst.wf && p.src.wf && decide (p.payload.length ≤ 4096) && decide (p.off < 2 ^ 26) && decide (p.ctr < 64) &&
  decide (p.status < 256) && decide (p.rtag < 2 ^ 32)

/-- A frame's length, its tag control information and its source address (R331, R340). -/
def Frame.wf (f : Frame) : Bool := decide (f.length ≤ 9216) && decide (f.vlan < 65536) && decide (f.srcMac < 2 ^ 48)

/-- A span header (R367). -/
def SpanPkt.wf (p : SpanPkt) : Bool :=
  decide (p.lvc < 16) && decide (p.kind < 8) && decide (p.hops < 256) && decide (p.dstPanel < 4096) && decide (p.srcPanel < 4096) &&
  decide (p.dstUnit < 512) && decide (p.dstOffset < 2 ^ 26) && decide (p.ctr < 64) && decide (p.data.length ≤ 2048) && decide (p.xid < 2 ^ 32) &&
  decide (p.chunk < 65536) && decide (p.status < 256) && decide (p.sent < 65536)

/-- An identity word (R368). -/
def Identity.wf (w : Identity) : Bool := decide (w.panelId < 4096) && decide (w.port < 8) && decide (w.spanId < 65536) && decide (w.serial < 2 ^ 64)

/-- A sit word (R544). -/
def SitWord.wf (w : SitWord) : Bool :=
  decide (w.op < 256) && decide (w.origin < 65536) && decide (w.sitId < 2 ^ 32) && decide (w.tOrigin < 2 ^ 64)

/-- A page and the descriptors read after it (R428, R433). -/
def DoorbellPage.wf (g : DoorbellPage) : Bool :=
  g.page.length == 4096 && g.fetched.all (fun x => decide (x.1 < 256) && x.2.all (fun d => d.length == 64))

/-- An entry of a capacity table (R310). -/
def CapEntry.wf (c : CapEntry) : Bool := decide (c.srcArray < 512) && decide (c.srcEp < 64) && decide (c.dstArray < 512) && decide (c.dstEp < 64)

/-- A manifest (R506). -/
def Manifest.wf (m : Manifest) : Bool := decide (m.version < 65536) && decide (m.imageLen < 2 ^ 32) && decide (m.fwVersion < 2 ^ 32)

/-- A configuration record of at most 1 MiB (R465). -/
def ConfigRecord.wf (r : ConfigRecord) : Bool := decide (r.signedBytes.length + r.signature.length ≤ 1048576) && decide (r.recSeq < 2 ^ 32)

/-- Four readings of a tile's hot spots (R494). -/
def ChainTile.wf (t : ChainTile) : Bool := t.raw.length == 4

/-- A report of nine tiles, or silence (R494). -/
def ChainReport.wf (r : ChainReport) : Bool := r.silent || (r.tiles.length == 9 && r.tiles.all ChainTile.wf)

/-- Operands within what a command can carry. -/
def Instr.wf : Instr → Bool
  | .inputPowerUp => true
  | .inputLoss => true
  | .inputRestart => true
  | .resetNLow => true
  | .resetNRelease => true
  | .stageComplete _ _ code _ => decide (code < 256)
  | .packRailRaise => true
  | .bringupPhaseEnd _ _ _ => true
  | .knownAnswerDone _ _ => true
  | .arrayReset _ _ => true
  | .packReset _ _ => true
  | .partitionReset _ _ => true
  | .panelReset _ _ => true
  | .resetDrainDone => true
  | .halfStop _ => true
  | .halfStart _ => true
  | .hostPortReset _ => true
  | .functionLevelReset _ => true
  | .doorbellPoll _ => true
  | .doorbellPageReturn _ page => page.wf
  | .nop _ _ _ => true
  | .scratchWrite _ _ _ data => decide (data.length ≤ 67108864)
  | .scratchRead _ _ _ => true
  | .hostSignal _ _ _ => true
  | .hostChannelItem _ _ _ item => decide (item.length ≤ 4096)
  | .regionStart _ _ _ => true
  | .regionStartLegacy _ _ _ table => table.all CapEntry.wf
  | .regionStop _ _ _ => true
  | .tableWrite _ _ _ data => decide (data.length ≤ 67108864)
  | .tableRead _ _ _ => true
  | .fieldTx _ _ _ frame => decide (frame.length ≤ 9216)
  | .fwManifest _ _ _ m => m.wf
  | .fwChunk _ _ _ data => decide (data.length ≤ 4096)
  | .fwImageWritten _ => true
  | .fwRoundEnd missing => missing.all (fun x => decide (x.1 < 640))
  | .completionEntryWrite _ _ => true
  | .msixTimeout _ _ => true
  | .hostReadTimeout _ _ _ => true
  | .eventRecordWrite => true
  | .telemetryTick => true
  | .doeAttestation _ _ => true
  | .doeCertificate _ => true
  | .registerWrite _ _ width _ => (width == 4 || width == 8)
  | .arrFlagsWrite _ _ _ _ => true
  | .tmRgnWrite _ _ _ _ => true
  | .regionInitDone _ _ => true
  | .chEpWrite _ _ _ _ => true
  | .chEpOpen _ _ _ => true
  | .chEpClose _ _ _ => true
  | .admSrcWrite _ _ _ => true
  | .prtMapWrite _ _ _ => true
  | .rngSqCfgWrite _ _ _ => true
  | .rngCqCfgWrite _ _ _ => true
  | .pwrPackWrite _ _ _ => true
  | .clkMarginCfgWrite _ _ => true
  | .lnkPortWrite _ _ _ => true
  | .lnkBindWrite _ _ _ => true
  | .fldFifoWrite _ _ _ _ => true
  | .clkSetCmd _ => true
  | .tableInstall _ => true
  | .tableRemove _ => true
  | .tablePromote _ _ => true
  | .tableResync _ _ => true
  | .tableDemote _ _ => true
  | .stackDeclareFailed _ _ => true
  | .stackReturn _ _ => true
  | .tableChangeEffect => true
  | .resyncComplete => true
  | .stackReady _ => true
  | .mcastGroupWrite _ _ => true
  | .reductionGroupWrite _ _ => true
  | .mcastGroupClear _ _ => true
  | .reductionGroupClear _ _ => true
  | .keyCommit _ _ _ _ => true
  | .keyErase _ _ _ => true
  | .lnkRetrainRequest _ _ => true
  | .hostFence _ _ => true
  | .fenceReturn _ _ _ => true
  | .proactiveSwap _ _ _ => true
  | .packRetry _ _ _ _ => true
  | .fwActivate _ => true
  | .fwAbandon _ => true
  | .undefinedOpcode _ => true
  | .fetchLimitExceeded _ => true
  | .loadWeight _ => true
  | .shadowLoadDone _ => true
  | .loadAcc _ => true
  | .loadCopy _ => true
  | .storeAcc _ => true
  | .storeCopy _ => true
  | .storeFlags _ => true
  | .matmul _ => true
  | .vecopConvert _ => true
  | .vecopAdd _ => true
  | .vecopSub _ => true
  | .vecopMul _ => true
  | .vecopFma _ => true
  | .vecopDiv _ => true
  | .vecopSqrt _ => true
  | .vecopMin _ => true
  | .vecopMax _ => true
  | .vecopAbs _ => true
  | .vecopNeg _ => true
  | .vecopCopysign _ => true
  | .vecopCompareEq _ => true
  | .vecopCompareLt _ => true
  | .vecopCompareLe _ => true
  | .vecopCompareUnordered _ => true
  | .vecopSelect _ => true
  | .vecopRecip _ => true
  | .vecopRsqrt _ => true
  | .vecopExp2 _ => true
  | .vecopLog2 _ => true
  | .vecopExp _ => true
  | .vecopLog _ => true
  | .vecopTanh _ => true
  | .vecopSigmoid _ => true
  | .vecopSilu _ => true
  | .vecopGelu _ => true
  | .vecopAnd _ => true
  | .vecopOr _ => true
  | .vecopXor _ => true
  | .vecopShiftLeft _ => true
  | .vecopShiftRightArith _ => true
  | .vecopShiftRightLogical _ => true
  | .vecopSaturatingAdd _ => true
  | .vecopSumReduce _ => true
  | .vecopMaxReduce _ => true
  | .vecopQuantise _ => true
  | .vecopReservedFunc _ => true
  | .gate _ => true
  | .gather _ => true
  | .scatterWrite _ => true
  | .scatterAddFp32 _ => true
  | .scatterAddInt32 _ => true
  | .reduceSumFp32 _ => true
  | .reduceSumInt32 _ => true
  | .reduceMaxFp32 _ => true
  | .send _ => true
  | .recv _ => true
  | .recvDeliver _ _ => true
  | .dispatchSend _ => true
  | .dispatchReturn _ => true
  | .waitCount _ => true
  | .waitCountMet _ => true
  | .waitTimeout _ => true
  | .signal _ => true
  | .fence _ => true
  | .commit _ => true
  | .endStep _ => true
  | .recordComplete _ _ => true
  | .tokenClaim pkt => pkt.wf
  | .leaderTrigger _ => true
  | .stepStart pkt => pkt.wf
  | .stepReport pkt => pkt.wf
  | .stepDeadline _ => true
  | .rerunStart _ => true
  | .cancel pkt => pkt.wf
  | .backupTimer _ => true
  | .backupRequest pkt => pkt.wf
  | .backupRefused pkt => pkt.wf
  | .commitNotice pkt => pkt.wf
  | .backupFailed pkt => pkt.wf
  | .attributedFailure _ => true
  | .writePacket pkt => pkt.wf
  | .readReq pkt => pkt.wf
  | .readData pkt => pkt.wf
  | .atomic pkt => pkt.wf
  | .ack pkt => pkt.wf
  | .nack pkt => pkt.wf
  | .signalPacket pkt => pkt.wf
  | .channelItem pkt => pkt.wf
  | .combiningContribution pkt => pkt.wf
  | .spaceNotice pkt => pkt.wf
  | .openNotice pkt => pkt.wf
  | .closeNotice pkt => pkt.wf
  | .epochQuery pkt => pkt.wf
  | .blockNotice pkt => pkt.wf
  | .spillRefill _ _ => true
  | .channelResend _ _ => true
  | .channelSuspect _ _ => true
  | .channelSendTimeout _ _ => true
  | .gatherReserve pkt => pkt.wf
  | .gatherList pkt => pkt.wf
  | .bagPart pkt => pkt.wf
  | .reducePart pkt => pkt.wf
  | .redCredit pkt => pkt.wf
  | .redDone pkt => pkt.wf
  | .beaconBroadcast => true
  | .beacon _ pkt => pkt.wf
  | .beaconMissedLimit _ => true
  | .fenceNotice pkt => pkt.wf
  | .deadMask pkt => pkt.wf
  | .sitPacket _ pkt => pkt.wf
  | .fabHold => true
  | .fabDrainQuery => true
  | .fabDrainReport _ => true
  | .fabTableUpdate => true
  | .fabRelease => true
  | .gapNotice pkt => pkt.wf
  | .servicePacket pkt => pkt.wf
  | .flitArrival _ _ _ _ _ _ => true
  | .linkIdleTimeout _ _ => true
  | .deadLinkReport _ _ => true
  | .escapeTableComputed => true
  | .requestTimeout rtag => decide (rtag < 2 ^ 32)
  | .ejectGuardExpire _ pkt => pkt.wf
  | .admissionTick => true
  | .fieldFrameRx _ f => f.wf
  | .fieldLinkChange _ _ _ _ => true
  | .ingestDelivery _ _ => true
  | .ingestIdle _ _ => true
  | .concSnapshotClose _ _ => true
  | .concSouthPart _ => true
  | .concPublishTimeout _ => true
  | .concRateLearnt _ _ => true
  | .setpointAccept pkt => pkt.wf
  | .portFrameSelect _ _ => true
  | .setpointDeadlinePass _ => true
  | .frameTxDone _ _ => true
  | .setpointDeliver pkt => pkt.wf
  | .linkLightDetect _ => true
  | .linkTrainDone _ _ => true
  | .linkAlignDone _ => true
  | .identityWord _ w => w.wf
  | .linkTrainRetry _ => true
  | .linkLockLoss _ => true
  | .uncorrLimitExceeded _ => true
  | .retrainDone _ _ => true
  | .linkLightLost _ => true
  | .uncorrectableCodeword _ lost => (match lost with | some p => p.wf | none => true)
  | .spanHeadWord _ w => w.pkt.wf && decide (w.corrected < 2 ^ 32)
  | .exportChunk _ p => p.wf
  | .exportAnswer _ p => p.wf
  | .spanControlMessage _ p => p.wf
  | .exportStart _ pkt => pkt.wf
  | .lnkControlAccept _ pkt => pkt.wf
  | .creditWord _ freed => decide (freed.length = 16)
  | .creditWordTimer _ => true
  | .creditResyncTimer _ _ => true
  | .delayProbe _ _ _ => true
  | .delayProbeTimer _ => true
  | .quiesceWord _ panelId => decide (panelId < 4096)
  | .quiesceAcknowledge _ panelId => decide (panelId < 4096)
  | .quiesceTimeout _ => true
  | .failoverTimeout _ => true
  | .spanTmoExpire _ _ _ => true
  | .sitWord _ w => w.wf
  | .islandFreqChangeDone _ step => decide (step ≤ 256)
  | .droopStretch _ _ => true
  | .sustainedDroop _ => true
  | .clockHold _ => true
  | .marginWindow _ _ _ => true
  | .spineMarker _ => true
  | .ref10mInvalid => true
  | .ref10mRestore => true
  | .spineTickLoss _ => true
  | .ppsInEdge _ => true
  | .ppsInMissing => true
  | .ppsOutPulse => true
  | .heartbeatTimeout _ => true
  | .arrayFence _ reason => decide (reason < 256)
  | .substitution _ _ => true
  | .flashMapWrite _ => true
  | .serviceChainReport _ r => r.wf
  | .stateConflict _ _ => true
  | .neighbourTestDone _ _ => true
  | .packShort _ => true
  | .cellFail _ _ => true
  | .healthDecay => true
  | .scratchpadScrub _ line => decide (line < 1048576)
  | .correctedWriteback _ line => decide (line < 1048576)
  | .hubScrub _ _ => true
  | .hubCorrectedWriteback _ _ => true
  | .stackTempRead _ _ => true
  | .powerLoop _ _ _ _ => true
  | .capRaise _ _ => true
  | .brakeEngage => true
  | .brakeRelease => true
  | .packPowerSample _ _ => true
  | .voltageLoop _ _ => true
  | .tileTempSample _ raw _ => raw.length == 4
  | .guardCapRaise _ => true
  | .sensorDisagree _ _ => true
  | .sensorAgreeClear _ _ => true
  | .thermalPredict _ _ => true
  | .thermalRefit _ => true
  | .sitPinLow => true
  | .sitPinHigh => true
  | .monSitRaise _ _ _ => true
  | .monSitResume _ _ => true
  | .islandSafeStop _ => true
  | .sitResume => true
  | .readoutGo _ => true
  | .readoutAbort _ => true
  | .readoutStreamEnd => true
  | .tapIdcode => true
  | .tapSitAll _ => true
  | .tapResume _ => true
  | .tapReset _ => true
  | .tapRoAddr _ => true
  | .tapRoData => true
  | .swkHelp => true
  | .swkId => true
  | .swkStage => true
  | .swkTime => true
  | .swkLog _ => true
  | .swkRd _ width => (width == 4 || width == 8)
  | .swkWr _ _ width => (width == 4 || width == 8)
  | .swkSit _ _ => true
  | .swkResume _ => true
  | .swkRo kind n space _ len => decide (kind < 16) && decide (n < 4096) && decide (space < 256) && decide (len ≤ 4096)
  | .swkResetArray a => decide (a < 512)
  | .swkResetPack p => decide (p < 64)
  | .swkResetPanel => true
  | .swkClrfail p => decide (p < 64)
  | .swkRecload len rec => decide (len ≤ 1048576) && rec.wf
  | .swkBaud _ => true
  | .swkBaudSwitch => true
  | .swkBaudRevert => true
  | .swkChal => true
  | .swkAuth r sg _ => r.length == 66 && sg.length == 66
  | .swkLogout => true
  | .swkPrivilegeTimeout => true
  | .swkAuthUnblock => true
  | .spineTickReturn _ => true
  | .hostLinkUp _ speed width _ => decide (speed < 8) && decide (width < 32)
  | .busMasterEnableChange _ _ _ => true
  | .undefinedDescriptorOpcode _ _ _ => true
  | .swkUnknownCommand => true
  | .timeSourceLost => true

end Sys2Proof
end

