-- ==== Sys2Proof/Tests/Slice0.lean ====
section
/-! SUPPORT. The model's own tests: the refusals of WellFormed, the spec's worked examples, and for every statement of
Obligations.lean a state and operands that meet its hypotheses. -/

open Sys2Proof Sys2Proof.Machine

-- one proof at a time: the kernel evaluates each, and proofs that wait for it hold a thread each
set_option Elab.async false

namespace Sys2Proof.Tests

/-! ### Building small states -/

/-- A state with these register fields set. -/
def put (l : List (Fld × Nat × Nat)) (s : State) : State := l.foldl (fun s x => s.wr x.1 x.2.1 x.2.2) s

/-- A panel that is ready, with both host links up. -/
def ready : State :=
  put [(F.idnState_panelState, 0, 1), (F.idnStage_stage, 2, 4), (F.idnStage_stage, 3, 4)]
    { State.reset with host := { ports := [(0, { linkUp := true, busMaster := true }), (1, { linkUp := true, busMaster := true })] } }

/-- Stack bytes: pack, offset, value. -/
def stk (l : List (Nat × Nat × Byte)) : List Host.Cell := l.foldl (fun m x => Memory.write m (stackKey x.1 x.2.1) x.2.2) []

def manifest (kind n : Nat) : Manifest := { kind := kind, fwVersion := 7, nChunks := n }


/-- A record with these fields: byte, bit, width, value. -/
def recOf (l : List (Nat × Nat × Nat × Nat)) : Record :=
  BitVec.ofNat 512 (l.foldl (fun v f => v + f.2.2.2 % 2 ^ f.2.2.1 * 2 ^ (8 * f.1 + f.2.1)) 0)

def run3 : StepRun := { leader := 9, serial := 4, id := 2, attempt := 1, next := 0x10000, issuing := true }

/-- Array 3, at site 1, about to fetch a record, in a panel that is ready. -/
def atRec (r : Record) (s : State := ready) : State :=
  let s1 := s.wr F.fabSite_site 3 1
  { s1 with mem := Memory.tileWrite s1.mem 1 0x10000 (leBytes 64 r.toNat), arrays := mset s1.arrays 3 { s1.arr 3 with run := some run3 } }

def allLive (s : State) : State := put ((List.range 4).map (fun p => (F.hubState_stackState, p, 1))) s
def withD (s : State) (l : List FDescr) : State :=
  put [(F.rngSqCfg_en, 0, 1), (F.rngSqCfg_priv, 0, 1), (F.rngSqCfg_log2Size, 0, 4),
      (F.rngSqStat_inflight, 0, l.length), (F.rngCqCfg_en, 0, 1), (F.rngCqCfg_log2Size, 0, 4)]
    { s with host := { s.host with descrs := l } }
def fd (op : Nat) (d : Descr) : FDescr := { d := { d with opcode := op, userTag := 99 } }
def poke (s : State) (site a : Nat) (b : List Byte) : State := { s with mem := Memory.tileWrite s.mem site a b }
def rates (s : State) : State :=
  put (((List.range 12) ++ [512]).flatMap (fun a => [(F.admSrc_rate, a, 0x200), (F.admSrc_burst, a, 0x80)])) s
/-- region block of leader site at 0, table at 0x200 -/
def blk (mask count report : Nat) (loop : Nat := 0) : List Byte :=
  leBytes 64 mask ++ leBytes 4 0x200 ++ leBytes 2 (count + 2^16*0) ++ leBytes 2 (loop) ++ leBytes 4 report ++
    List.replicate 52 0
def ent (entry deadline : Nat) (hi : Nat := 0) : List Byte := leBytes 32 (entry + deadline * 2^32 + hi)
def trg (ctr n : Nat) : Nat := ctr * 2^128 + 2^143 + n * 2^160
def idSites (s : State) : State := put ((List.range 12).map (fun a => (F.fabSite_site, a, a))) s
def base0 : State := rates (allLive ready)
def reg0 : Region :=
  {
      serial := 5, members := 2^4+2^6+2^9,
      table := [{ entry := 0x1000, deadline := 500 },
          {
              entry := 0x2000, trigEn := true, trigCtr := 3, trigCount := 2, backupPct := 50, deadline := 7,
              standby := 17, standbyEn := true }], stepId := 8, attempt := 1, deadline := 900, phase := .running,
      report := 0x4000 }
def memb (s : State) (l : List Nat) (ld : Nat) : State := { s with arrays := l.map (fun a => (a, { member := some (ld, 5) })) }
def wreg (g : Region) : State := memb { base0 with regions := [(2, g)], serial := 5 } [4,6,9] 2
def pk (b : PktBody) (src dst : Endpoint) (tag : Nat := 0) : Packet :=
  { body := b, src := src, dst := dst, cls := 0, noack := true, rtag := tag }
def netp (p : Packet) (s : State) : State := { s with net := [p] }

/-- The plan of a record, where the machine answers one. -/
def planOf (s : State) (a : Nat) (r : Record) (k : RecKind) : Plan := match s.plan a r k with
  | .ok p => p
  | .error _ => {}

/-- The conversion word of a field that holds a defined one. -/
def ccwAt (v : Nat) : Ccw := (ccwOf v).getD { fmt := 0, md := .rne, ovf := {} }

/-! ### Deciding the hypotheses that are said by cases -/

def opndDec (s : State) (a v fmt stride nr ne : Nat) : Decidable (s.OpndOk a v fmt stride nr ne) := by
  unfold State.OpndOk; split <;> infer_instance

def argDec (s : State) (a v fmt stride nr ne : Nat) (b : Bool) (i : Option Nat) : Decidable
  (s.ArgOk a v fmt stride nr ne b i) :=
  by
  unfold State.ArgOk; split
  · infer_instance
  · split <;> exact opndDec ..

def dstDec (s : State) (a : Nat) (r : Record) (fmt stride nr ne : Nat) : Decidable (s.DstOk a r fmt stride nr ne) := by
  unfold State.DstOk; split <;> infer_instance

def vecReadsDec (s : State) (a : Nat) (r : Record) (fn : Nat) : Decidable (s.VecReads a r fn) := by
  
  unfold State.VecReads
  haveI := opndDec s a (Rf r 12 0 32) (vecAf r) (Rf r 28 0 16 * 64) (vecNr r) (vecNe r)
  haveI := argDec s a (Rf r 16 0 32) (vecBf r) (Rf r 32 0 16 * 64) (vecNr r) (vecNe r) (Rf r 11 0 1 == 1) (vecImm r)
  haveI := argDec s a (Rf r 20 0 32) (vecCf r) (Rf r 34 0 16 * 64) (vecNr r) (vecNe r) (Rf r 11 1 1 == 1) none
  infer_instance

theorem opnd_of {s : State} {a v fmt stride nr ne : Nat} (h : @decide _ (opndDec s a v fmt stride nr ne) = true) :
    s.OpndOk a v fmt stride nr ne := @of_decide_eq_true _ (opndDec s a v fmt stride nr ne) h

theorem dst_of {s : State} {a : Nat} {r : Record} {fmt stride nr ne : Nat} (h : @decide _ (dstDec s a r fmt stride nr ne) = true) :
    s.DstOk a r fmt stride nr ne := @of_decide_eq_true _ (dstDec s a r fmt stride nr ne) h

theorem vecReads_of {s : State} {a : Nat} {r : Record} {fn : Nat} (h : @decide _ (vecReadsDec s a r fn) = true) :
    s.VecReads a r fn := @of_decide_eq_true _ (vecReadsDec s a r fn) h

theorem portOpen_of {s : State} {site inPort : Nat}
    (h : (s.siteOk site && !s.halted (576 + site) &&
      (beyondOf site inPort).all (fun x => s.siteOk x.1 && !s.halted (576 + x.1) && s.linkOk x.2)) = true) : s.PortOpen site inPort := by
  simp only [Bool.and_eq_true, Bool.not_eq_true'] at h
  refine ⟨h.1.1, h.1.2, fun x e => ?_⟩
  have g := h.2
  rw [e] at g
  simp only [Option.all_some, Bool.and_eq_true, Bool.not_eq_true'] at g
  exact ⟨g.1.1, g.1.2, g.2⟩

/-- A router refuses a head flit. -/
def refused : Turn → Bool
  | .refuse _ => true
  | _ => false

theorem keeps_of {s : State} {site inPort : Nat} {f : Flit}
    (h : (f.dstSite != site && f.dstSite != 1023 && (!flitHead f || !refused (s.turn site inPort f))) = true) : s.Keeps site inPort f := by
  simp only [Bool.and_eq_true, bne_iff_ne, Bool.or_eq_true, Bool.not_eq_true'] at h
  refine ⟨h.1.1, h.1.2, h.2.imp id fun g st e => ?_⟩
  rw [e] at g
  cases g

theorem fenceFree_of {s : State} {p : Packet} (h : (match p.src with | .tile a => !s.arrFenced a | _ => true) = true) :
    ∀ a, p.src = .tile a → s.arrFenced a = false := by
  intro a e
  rw [e] at h
  simpa using h

/-- A packet's body is a read request. -/
def isRead : PktBody → Bool
  | .readReq _ => true
  | _ => false

theorem notRead_of {b : PktBody} (h : isRead b = false) : ∀ len, b ≠ .readReq len := by
  intro len e; subst e; cases h

/-! ### Well-formedness refuses what a command cannot carry -/

theorem test_wf_units :
    ([Endpoint.tile 512, .hub 64, .field 2, .host 2, .link 8, .mgmt 2, .group 512].all (fun e => !e.wf)) = true := by decide

theorem test_wf_routes :
    ([({ site := 576 } : Route), { via := some (24, 0) }, { via := some (0, 24) }, { gen := 65536 }].all (fun r => !r.wf)) = true := by
  decide

theorem test_wf_packets :
    ([{ route := { site := 576 } }, { cls := 4 }, { dst := .tile 512 }, { src := .hub 64 }, { payload := List.replicate 4097 0 },
      { off := 2 ^ 26 }, { ctr := 64 }, { status := 256 }, ({ rtag := 2 ^ 32 } : Packet)].all (fun p => !p.wf)) = true := by
  decide +kernel

theorem test_wf_packet_ok : ({ off := 2 ^ 26 - 1, ctr := 63, payload := List.replicate 4096 1 } : Packet).wf = true := by decide +kernel

theorem test_wf_frames :
    ([{ length := 9217 }, { vlan := 65536 }, ({ srcMac := 2 ^ 48 } : Frame)].all (fun f => !f.wf)) = true := by decide

theorem test_wf_span_packets :
    ([{ lvc := 16 }, { kind := 8 }, { hops := 256 }, { dstPanel := 4096 }, { srcPanel := 4096 }, { dstUnit := 512 }, { dstOffset := 2 ^ 26 },
      { ctr := 64 }, { data := List.replicate 2049 0 }, { xid := 2 ^ 32 }, { chunk := 65536 }, { status := 256 },
      ({ sent := 65536 } : SpanPkt)].all (fun p => !p.wf)) = true := by decide +kernel

theorem test_wf_identity_words :
    ([{ panelId := 4096 }, { port := 8 }, { spanId := 65536 }, ({ serial := 2 ^ 64 } : Identity)].all (fun w => !w.wf)) = true := by decide

theorem test_wf_sit_words :
    ([{ op := 256 }, { origin := 65536 }, { sitId := 2 ^ 32 }, ({ tOrigin := 2 ^ 64 } : SitWord)].all (fun w => !w.wf)) = true := by decide

theorem test_wf_pages :
    ([{ page := [] }, { page := List.replicate 4096 0, fetched := [(256, [])] },
      ({ page := List.replicate 4096 0, fetched := [(0, [[]])] } : DoorbellPage)].all (fun g => !g.wf)) = true := by decide +kernel

theorem test_wf_capacity_entries :
    ([{ srcArray := 512 }, { srcEp := 64 }, { dstArray := 512 }, ({ dstEp := 64 } : CapEntry)].all (fun c => !c.wf)) = true := by decide

theorem test_wf_manifests :
    ([{ version := 65536 }, { imageLen := 2 ^ 32 }, ({ fwVersion := 2 ^ 32 } : Manifest)].all (fun m => !m.wf)) = true := by decide

theorem test_wf_records : ConfigRecord.wf { defaultRecord with recSeq := 2 ^ 32 } = false := by decide +kernel

theorem test_wf_chain_reports :
    ([{ tiles := [] }, ({ tiles := List.replicate 9 { raw := [] } } : ChainReport)].all (fun r => !r.wf)) = true := by decide

theorem test_wf_commands :
    ([Instr.stageComplete 0 true 256 {}, .doorbellPageReturn 0 { page := [] }, .hostChannelItem 0 0 0 (List.replicate 4097 0),
      .regionStartLegacy 0 0 0 [{ srcArray := 512 }], .fieldTx 0 0 0 (List.replicate 9217 0), .fwManifest 0 0 0 { version := 65536 },
      .fwChunk 0 0 0 (List.replicate 4097 0), .fwRoundEnd [(640, 0)], .registerWrite 0 0 5 0, .tokenClaim { cls := 4 },
      .requestTimeout (2 ^ 32), .fieldFrameRx 0 { length := 9217 }, .identityWord 0 { port := 8 }, .spanHeadWord 0 { corrected := 2 ^ 32 },
      .spanHeadWord 0 { pkt := { lvc := 16 } }, .uncorrectableCodeword 0 (some { lvc := 16 }), .creditWord 0 [], .quiesceWord 0 4096,
      .quiesceAcknowledge 0 4096, .sitWord 0 { op := 256 }, .islandFreqChangeDone 0 257, .arrayFence 0 256,
      .serviceChainReport 0 { tiles := [] }, .scratchpadScrub 0 1048576, .correctedWriteback 0 1048576, .tileTempSample 0 [] 0, .swkRd 0 5,
      .swkWr 0 0 2, .swkRo 16 0 0 0 0, .swkResetArray 512, .swkResetPack 64, .swkClrfail 64, .swkRecload 1048577 defaultRecord,
      .swkAuth [] [] none, .hostLinkUp 0 8 0 false].all (fun i => !i.wf)) = true := by decide +kernel

/-! ### Worked examples of the spec -/

/-- Locating an array (00_scope.md): tile (13, 19). -/
theorem test_tile_13_19 : 13 * 24 + 19 = 331 ∧ sitePack 331 = 38 ∧ sitePos 331 = 4 ∧ packSite 38 4 = 331 ∧ arrPack 308 = 38 ∧
    packSite 38 8 = 356 ∧ State.reset.packFitted 38 = true ∧ (State.reset.wr F.idnPart_variant 0 0x12).packFitted 38 = false := by
  decide +kernel

/-- Register addresses (12_host_rings.md, after R426). -/
theorem test_register_addresses : regOff .tmRgn (200 * 16 + 1) = 0x012C8088 ∧ regOff .lnkRoute 4 = 0x00094010 := by decide +kernel

/-- 300.0 and 500.0 to E4M3 (02_arrays.md, after R76): FP32 codes 0x43960000 and 0x43FA0000. -/
theorem test_e4m3 : (convertTo ⟨4, .rne, {}⟩ .rne 0 (elemVal 1 0x43960000 127)).1 = 0x79 ∧
    (convertTo ⟨4, .rne, {}⟩ .rne 0 (elemVal 1 0x43FA0000 127)).1 = 0x7E := by decide +kernel

/-- One MXFP4 group (02_arrays.md): -6.0, and 2.5 becomes -3.5. -/
theorem test_mxfp4_group :
    let sum := [(0x3, 0xC), (0x7, 0x1), (0xD, 0x6)].foldl
      (fun a (p : Nat × Nat) => addProducts 7 (elemVal 7 p.1 127) [some p.2] a) [(.fin false 0 0, false)]
    sum.map (fun g => (groupResult g 0x81 0x7C).1) = [0xC0C00000] ∧ (addEnc fp32 .rne 0x40200000 0xC0C00000).1 = 0xC0600000 := by
  decide +kernel

/-- A transfer of 10,000 bytes to offset 0xF00 (03_step_programs.md). -/
theorem test_packets_of_transfer :
    (packetsOf 0xF00 (List.replicate 10000 0)).map (fun p => p.2.length) = [256, 4096, 4096, 1552] := by decide +kernel

/-- Banks (04_tile_memory.md, after R165). -/
theorem test_banks : bankOf 0x02001A40 = 40 ∧ bankLine 0x02001A40 = 0x2001 ∧
    [0x0100A300, 0x0100A340, 0x0100A380, 0x0100A3C0].map bankOf = [6, 7, 4, 5] := by decide

/-- Preparing a receiving tile (04_tile_memory.md): the value of Step 2. -/
theorem test_region_value :
    let v := 0x00C8002000800009
    [F.tmRgn_valid, F.tmRgn_prot, F.tmRgn_wperm, F.tmRgn_rperm, F.tmRgn_base, F.tmRgn_size, F.tmRgn_owner].map (fun f => bitsAt v f.lo f.w) =
      [1, 0, 2, 0, 128, 32, 200] := by decide

/-- One row of the heat-pump table (05_packs_tables.md). -/
theorem test_heat_pump_row :
    let d : TableDesc :=
      { fmt := 0xA, elems := 128, rowStride := 2, mirror := true, mirrorDist := 32, homeMask := 0x00303000,
        rowsPerPack := 1575000, totalRows := 6300000, segBase := 0x100000000, cbOff := 201600000, segUnits := 3150200 }
    rowHome d 3200123 = 20 ∧ State.reset.rowAt d 20 3200123 = 0x10061E580 ∧ pseudoChannel (0x10061E580 / 256 % 2 ^ 28) = 0x22 ∧
      cacheSet (0x10061E580 / 256) = 0x25E4 := by decide +kernel

/-- A compressed packet (06_fabric.md, after R244): 90 of 128 chunks are zero. -/
theorem test_zero_runs : 16 + 38 * 32 = 1232 ∧ flitsOf 1232 = 5 ∧ flitsOf 4096 = 17 := by decide

/-- TC0 around a dark pack (06_fabric.md): from (13, 16) to (13, 22) with pack 38 dark. -/
theorem test_route_round_pack_38 :
    let v : View := ⟨fun t => sitePack t != 38, fun _ => true⟩
    viaClear v (13 * 24 + 16) (13 * 24 + 22) (13, 16) = false ∧ viaClear v (13 * 24 + 16) (13 * 24 + 22) (14, 16) = false ∧
    viaClear v (13 * 24 + 16) (13 * 24 + 22) (15, 16) = true ∧ (viaHops (13 * 24 + 16) (13 * 24 + 22) (15, 16)).length = 10 ∧
    viaClear v (10 * 24 + 19) (16 * 24 + 19) (15, 17) = true ∧ (viaHops (10 * 24 + 19) (16 * 24 + 19) (15, 17)).length = 10 := by decide +kernel

/-- One PMU frame (09_field_ports.md): its tag, and the slot of item 1000. -/
theorem test_pmu_frame :
    ((State.reset.wr F.clkUtc_utcOffset 0 37).tagC37 1750000000 0x000493E0 1000000 1750000037300000000).1 = 1750000037300000000 ∧
    0x1000 * 2048 + 1000 % 256 * 2048 = 0x00874000 := by decide +kernel

/-- The ejecting router restores what was compressed (R244). -/
theorem test_zero_run_restored :
    let pl : List Byte := List.replicate 40 0 ++ List.replicate 20 7 ++ List.replicate 9 0
    zrcUnpack 69 (zrcPack pl) = pl ∧ (zrcPack pl).length = 48 := by decide

end Sys2Proof.Tests

/-! ### Hypotheses that can be met together -/

namespace Sys2Proof.Tests.StepTakesTheFrontCommand

/-- States that meet the hypotheses of each clause of `Obligations.StepTakesTheFrontCommand`. -/
theorem witness_StepTakesTheFrontCommand :
    (∃ s : State, ∃ c, ∃ rest, s.pending = c :: rest) ∧
    (∃ s : State, s.pending = []) :=
  ⟨⟨{ State.reset with pending := [.tapIdcode] }, .tapIdcode, [], rfl⟩,
   ⟨State.reset, rfl⟩⟩

end Sys2Proof.Tests.StepTakesTheFrontCommand

namespace Sys2Proof.Tests.StepKeepsMemoriesCanonical

/-- States that meet the hypotheses of each clause of `Obligations.StepKeepsMemoriesCanonical`. -/
theorem witness_StepKeepsMemoriesCanonical :
    ∃ s : State, ∃ t : State, s.MemOk ∧ step s = .next t :=
  ⟨{ State.reset with pending := [.tapIdcode] }, _, State.reset_memOk, rfl⟩

end Sys2Proof.Tests.StepKeepsMemoriesCanonical

namespace Sys2Proof.Tests.RollbackFloorNeverFalls

def flr : State :=
  { State.reset with boot := { State.reset.boot with record := some defaultRecord, floor := 1, floorOk := true } }

/-- States that meet the hypotheses of each clause of `Obligations.RollbackFloorNeverFalls`. -/
theorem witness_RollbackFloorNeverFalls :
    ∃ s : State, ∃ t : State, ∃ r, s.boot.floorOk = true ∧ (∀ r, s.boot.record = some r → r.recSeq ≤ s.boot.floor) ∧
      step s = .next t ∧ t.boot.record = some r :=
  ⟨flr, flr, defaultRecord, rfl, fun r h => by cases h; decide, rfl, rfl⟩

end Sys2Proof.Tests.RollbackFloorNeverFalls

namespace Sys2Proof.Tests.InputStartsAndStopsConversion

/-- States that meet the hypotheses of each clause of `Obligations.InputStartsAndStopsConversion`. -/
theorem witness_InputStartsAndStopsConversion :
    (∃ s : State, s.boot.converting = false) ∧
    (∃ s : State, s.boot.converting = true) :=
  ⟨⟨{ ready with boot := { ready.boot with converting := false } }, by decide +kernel⟩,
   ⟨(put [(F.tmErrThresh_corrStep, 3, 7), (F.monSitStat_pin, 0, 1)] { ready with sit := { pinLow := true } }),
       by decide +kernel⟩⟩

end Sys2Proof.Tests.InputStartsAndStopsConversion

namespace Sys2Proof.Tests.ResetsClearTheirScope

def m0 := manifest 3 2

def withSubst : State := { ready with faults := { ready.faults with substs := [{ array := 5, reason := 1 }] } }

def fwReady : State :=
  put [(F.fltFwStat_fwState, 0, 4)] { ready with faults := { ready.faults with firm := { manifest := some m0 } } }

def resetting : State :=
  { ready with boot := { ready.boot with resets := [{ level := 0, num := 9, arrays := [9] }] } }

def vac : State := put [(F.fabSite_state, 7, 1), (F.fltPackDark_dark, 0, 2)] ready

/-- States that meet the hypotheses of each clause of `Obligations.ResetsClearTheirScope`. -/
theorem witness_ResetsClearTheirScope :
    (∃ s : State, s.boot.resetNLow = false ∧ s.CanResetAtOnce) ∧
    (∃ s : State, ∃ port : Fin 2, s.Open port .unit ∧ s.CanResetAtOnce) ∧
    (∃ s : State, ∃ port : Fin 2, ∃ key : BitVec 8, s.Open port .unit ∧ key ≠ 0xA5) ∧
    (∃ s : State, ∃ port : Fin 2, ∃ m : Manifest,
        s.Open port .unit ∧ s.CanResetAtOnce ∧ s.rd F.fltFwCmd_activate 0 = 0 ∧ s.firm.manifest = some m ∧ s.rd
          F.fltFwStat_fwState 0 = 4 ∧ 2 ≤ m.kind) ∧
    (∃ s : State, ∃ port : Fin 2, ∃ a : Fin 512, ∃ st,
        s.Open port .unit ∧ s.rd F.prtArrRst_go 0 = 0 ∧ s.resetScope 0 a = .inl st) ∧
    (∃ s : State, ∃ port : Fin 2, ∃ a : Fin 512,
        s.Open port .unit ∧ s.rd F.prtArrRst_go 0 = 0 ∧ s.resetScope 0 a = .inr ([a.val], []) ∧ s.resetHeld [a.val]
          [] = true) ∧
    (∃ s : State, ∃ port : Fin 2, ∃ a : Fin 512,
        s.Open port .unit ∧ s.rd F.prtArrRst_go 0 = 0 ∧ s.resetScope 0 a = .inr ([a.val], []) ∧ s.resetHeld [a.val]
          [] = false ∧ s.boot.resets = []) ∧
    (∃ s : State, ∃ port : Fin 2, ∃ p : Fin 64, ∃ st,
        s.Open port .unit ∧ s.rd F.prtPackRst_go 0 = 0 ∧ s.resetScope 1 p = .inl st) ∧
    (∃ s : State, ∃ port : Fin 2, ∃ p : Fin 64, ∃ as,
        s.Open port .unit ∧ s.rd F.prtPackRst_go 0 = 0 ∧ s.resetScope 1 p = .inr (as, [p.val]) ∧ s.resetHeld as
          [p.val] = false ∧ s.boot.resets = []) ∧
    (∃ s : State, ∃ port : Fin 2, ∃ n : Fin 16,
        s.Open port .unit ∧ s.rd F.prtCmd_reset 0 = 0 ∧ s.resetScope 2 n = .inr ([], [])) ∧
    (∃ s : State, ∃ r, s.inSit = false ∧ s.boot.resets.find? s.drained = some r) :=
  ⟨⟨State.reset, by decide +kernel⟩,
   ⟨ready, 0, by decide +kernel⟩,
   ⟨ready, 0, 0, by decide +kernel⟩,
   ⟨fwReady, 0, m0, by decide +kernel⟩,
   ⟨vac, 0, 7, 1, by decide +kernel⟩,
   ⟨withSubst, 0, 5, by decide +kernel⟩,
   ⟨ready, 0, 5, by decide +kernel⟩,
   ⟨vac, 0, 1, 2, by decide +kernel⟩,
   ⟨ready, 0, 0, (List.range 8), by decide +kernel⟩,
   ⟨ready, 0, 1, by decide +kernel⟩,
   ⟨resetting, { level := 0, num := 9, arrays := [9] }, by decide +kernel⟩⟩

end Sys2Proof.Tests.ResetsClearTheirScope

namespace Sys2Proof.Tests.BringUpAdvances

def rails (l : List Nat) : State :=
  { State.reset with boot := { State.reset.boot with railsDone := false, packRails := l } }

def stage (u n : Nat) (s : State) : State := put [(F.idnStage_stage, u, n)] s

def b1 : State := stage 0 1 State.reset

def b2 : State := { b1 with boot := { b1.boot with recA := none } }

def ph (n : Nat) : State :=
  (List.range 28).foldl (fun s u => stage u 5 s) (put [(F.idnState_phase, 0, n)] State.reset)

def smA : SeamTest := { failed := (List.range 9).map (fun i => (0, (Fin.ofNat 2056 i))) }

def sea (n : Nat) (t : SeamTest) : State :=
  let s := stage 4 n (stage 27 n (ph 4))
  { s with boot := { s.boot with seams := [(0, t), (23, t)] } }

def withA (r : ConfigRecord) : State := { b1 with boot := { b1.boot with recA := some r, recB := none } }

theorem withA_ready (r : ConfigRecord) : (withA r).stageReady 0 = b1.stageReady 0 := rfl

theorem withA_next (r : ConfigRecord) : (withA r).nextStage 0 = b1.nextStage 0 := rfl

theorem withA_chosen (r : ConfigRecord) (h : recordSound r = true) : (withA r).chooseRecord = some r := by
  have a : (withA r).boot.recA = some r := rfl
  have b : (withA r).boot.recB = none := rfl
  have f : (withA r).recFloor = 0 := by rw [show (withA r).recFloor = b1.recFloor from rfl]; decide +kernel
  have v : (withA r).recordValid r = true := by simp [State.recordValid, f, h]
  simp [State.chooseRecord, a, b, Option.filter, v]

/-- States that meet the hypotheses of each clause of `Obligations.BringUpAdvances`. -/
theorem witness_BringUpAdvances :
    (∃ s : State, ∃ p : Nat,
        s.boot.railsDone = false ∧ s.boot.busesUp = true ∧ s.inBringup = true ∧
          (s.packList.find? (fun q => !s.boot.packRails.contains q) = some p)) ∧
    (∃ s : State, ∃ u : Fin 28, ∃ seam : SeamTest,
        s.stageReady u = true ∧ ¬ (2 ≤ u.val ∧ u.val < 4 ∧ s.nextStage u = 2) ∧ ¬ s.SeamBad u seam) ∧
    (∃ s : State, ∃ u : Fin 28, ∃ seam : SeamTest,
        s.stageReady u = true ∧ ¬ (u.val = 0 ∧ s.nextStage u = 2) ∧ ¬ s.SeamBad u seam) ∧
    (∃ s : State, ∃ u : Fin 28, ∃ seam : SeamTest, s.stageReady u = true ∧ 4 ≤ u.val ∧ s.SeamBad u seam) ∧
    (∀ r : ConfigRecord, recordSound r = true → ∃ s : State, ∃ u : Fin 28,
        s.stageReady u = true ∧ u.val = 0 ∧ s.nextStage u = 2 ∧ s.chooseRecord = some r) ∧
    (∃ s : State, ∃ u : Fin 28, s.stageReady u = true ∧ u.val = 0 ∧ s.nextStage u = 2 ∧ s.chooseRecord = none) ∧
    (∃ s : State, s.inBringup = true ∧ s.phaseOver = true ∧ s.phase < 7) ∧
    (∃ s : State, s.inBringup = true ∧ s.phaseOver = true ∧ s.phase = 7) :=
  ⟨⟨(rails []), 0, by decide +kernel⟩,
   ⟨State.reset, 0, {}, by decide +kernel⟩,
   ⟨State.reset, 0, {}, by decide +kernel⟩,
   ⟨(sea 0 smA), 4, {}, by decide +kernel⟩,
   fun r h => ⟨withA r, 0, (withA_ready r).trans (by decide +kernel), rfl, (withA_next r).trans (by decide +kernel),
       withA_chosen r h⟩,
   ⟨b2, 0, by decide +kernel⟩,
   ⟨{ ph 4 with boot := { (ph 4).boot with railsDone := true } }, by decide +kernel⟩,
   ⟨(put [(F.idnState_phase, 0, 7), (F.fltPackDark_dark, 0, 2 ^ 64 - 1)]
             { State.reset with boot := { State.reset.boot with record := some defaultRecord } }),
       by decide +kernel⟩⟩

end Sys2Proof.Tests.BringUpAdvances

namespace Sys2Proof.Tests.FirmwareImagesAndReports

def m1 (kind n : Nat) : Manifest := { kind := kind, fwVersion := 7, nChunks := n, imageLen := 4096 * (n - 1) + 5 }

def fw (st kind : Nat) (c : Nat) : State :=
  put [(F.fltFwStat_fwState, 0, st)] { ready with
      faults := { ready.faults with
          firm := {
              manifest := some (m1 kind 1), chunks := (List.range c).map (fun i => (i, [5])),
              missing := if st = 3 then [(0, 1), (576+3, 1)] else [] } } }

def withDescr (s : State) (d : Descr) : State :=
  put [(F.rngSqCfg_en, 0, 1), (F.rngSqCfg_priv, 0, 1), (F.rngSqStat_inflight, 0, 1), (F.rngCqCfg_en, 0, 1)]
    { s with host := { s.host with descrs := [{ d := d }] } }

def fdm :=
  withDescr
    (put [(F.fltFwStat_fwState, 0, 3)] { ready with boot := { ready.boot with record := some defaultRecord } })
    { opcode := 0x40, userTag := 77 }

def withRec : State :=
  put [(F.idnSerial_serial, 0, 0x123456)] { ready with
      boot := { ready.boot with record := some { defaultRecord with certificate := some ([1, 2], [3]) } } }

def mOk (sg : List Byte) : Manifest :=
  {
      kind := 0, version := 1, fwVersion := 7, imageLen := 5, nChunks := 1, hashes := [0], variants := 1,
      signature := sg }

theorem mOk_detail (sg : List Byte) : fdm.manifestDetail (mOk sg) = if Config.ecdsaVerify [] sg [] = true then 0
    else 1 := by
  have h : fdm.manifestKey 0 = some [] := by decide +kernel
  have k : fdm.is12 = false := by decide +kernel
  have l : mget fdm.firm.highest 0 0 = 0 := by decide +kernel
  cases hv : Config.ecdsaVerify [] sg [] <;> simp [State.manifestDetail, mOk, h, k, l, hv, imageLimit, ceilDiv]

def mBad : Manifest := { m1 0 1 with hashes := [Config.sha512 (List.replicate 5 6) + 1] }

def fdb : State :=
  withDescr (put [(F.fltFwStat_fwState, 0, 1)] { ready with
          faults := { ready.faults with firm := { manifest := some mBad } } })
    { opcode := 0x41, userTag := 77, len := 5 }

theorem mBad_ne : Config.sha512 (List.replicate 5 6) ≠ mBad.hashes.getD 0 0 := by
  have h : ∀ x : BitVec 512, x ≠ x + 1 := fun x e => by bv_omega
  exact h _

def mGood : Manifest := { m1 0 1 with hashes := [Config.sha512 (List.replicate 5 6)] }

def fdg : State :=
  withDescr (put [(F.fltFwStat_fwState, 0, 1)] { ready with
          faults := { ready.faults with firm := { manifest := some mGood } } })
    { opcode := 0x41, userTag := 77, len := 5 }

/-- States that meet the hypotheses of each clause of `Obligations.FirmwareImagesAndReports`. -/
theorem witness_FirmwareImagesAndReports :
    (∃ s : State, ∃ m : Manifest,
        s.firm.manifest = some m ∧ s.rd F.fltFwStat_fwState 0 = 2 ∧ s.firm.chunks.length = m.nChunks ∧ s.mnHalted =
          false) ∧
    (∃ s : State, ∃ m : Manifest, ∃ u, ∃ n,
        s.firm.manifest = some m ∧ s.rd F.fltFwStat_fwState 0 = 3 ∧ s.inSit = false ∧ n ≠ 0 ∧
          (mfind s.firm.missing u).isSome = true ∧ (s.fwTargets m.kind).contains u = true ∧ s.rd F.fltFwStat_round 0
          < 4) ∧
    (∃ s : State, ∃ m : Manifest, ∃ port : Fin 2,
        s.firm.manifest = some m ∧ s.Open port .unit ∧ s.rd F.fltFwCmd_activate 0 = 0 ∧ m.kind ≤ 1 ∧ s.rd
          F.fltFwStat_fwState 0 ≠ 4) ∧
    (∃ s : State, ∃ m : Manifest, ∃ port : Fin 2,
        s.firm.manifest = some m ∧ s.Open port .unit ∧ s.rd F.fltFwCmd_activate 0 = 0 ∧ m.kind ≤ 1 ∧ s.rd
          F.fltFwStat_fwState 0 = 4 ∧ s.regions ≠ []) ∧
    (∃ s : State, ∃ m : Manifest, ∃ port : Fin 2,
        s.firm.manifest = some m ∧ s.Open port .unit ∧ s.rd F.fltFwCmd_activate 0 = 0 ∧ m.kind ≤ 1 ∧ s.rd
          F.fltFwStat_fwState 0 = 4 ∧ s.regions = []) ∧
    (∃ s : State, ∃ m : Manifest, ∃ port : Fin 2,
        s.firm.manifest = some m ∧ s.Open port .unit ∧ s.rd F.fltFwStat_fwState 0 ≠ 5) ∧
    (∀ sg : List Byte, Config.ecdsaVerify [] sg [] = true → ∃ s : State, ∃ port : Fin 2, ∃ sq : Fin 256, ∃ k : Nat,
        ∃ f : FDescr, ∃ m,
        f.Loud ∧ s.ready (port, sq, k) 0x40 true = some f ∧ s.descrStatus f .priv 0 0 = 0 ∧ s.manifestDetail m = 0) ∧
    (∀ sg : List Byte, Config.ecdsaVerify [] sg [] = false → ∃ s : State, ∃ port : Fin 2, ∃ sq : Fin 256, ∃ k : Nat,
        ∃ f : FDescr, ∃ m,
        f.Loud ∧ s.ready (port, sq, k) 0x40 true = some f ∧ s.descrStatus f .priv 0 0 = 0 ∧ s.manifestDetail m ≠ 0) ∧
    (∃ s : State, ∃ port : Fin 2, ∃ sq : Fin 256, ∃ k : Nat, ∃ f : FDescr, ∃ m, ∃ data,
        f.Loud ∧ s.ready (port, sq, k) 0x41 true = some f ∧ s.descrStatus f .priv 1 4096 = 0 ∧ data.length = f.d.len
          ∧ s.firm.manifest = some m ∧ f.d.offset < m.nChunks ∧ data.length = chunkLen m f.d.offset ∧ mfind
          s.firm.chunks f.d.offset = none ∧ Config.sha512 data = m.hashes.getD f.d.offset 0) ∧
    (∃ s : State, ∃ port : Fin 2, ∃ sq : Fin 256, ∃ k : Nat, ∃ f : FDescr, ∃ m, ∃ data,
        f.Loud ∧ s.ready (port, sq, k) 0x41 true = some f ∧ s.descrStatus f .priv 1 4096 = 0 ∧ data.length = f.d.len
          ∧ s.firm.manifest = some m ∧ f.d.offset < m.nChunks ∧ data.length = chunkLen m f.d.offset ∧ mfind
          s.firm.chunks f.d.offset = none ∧ Config.sha512 data ≠ m.hashes.getD f.d.offset 0) ∧
    (∃ s : State, ∃ port : Fin 2, ∃ r, ∃ key, ∃ sig,
        s.doeUp port = true ∧ s.boot.record = some r ∧ r.certificate = some (key, sig)) :=
  ⟨⟨(fw 2 0 1), (m1 0 1), by decide +kernel⟩,
   ⟨(fw 3 0 1), (m1 0 1), 0, 1, by decide +kernel⟩,
   ⟨(fw 2 0 1), (m1 0 1), 0, by decide +kernel⟩,
   ⟨{ fw 4 0 1 with regions := [(3, {})] }, (m1 0 1), 0, by decide +kernel⟩,
   ⟨(fw 4 1 1), (m1 1 1), 0, by decide +kernel⟩,
   ⟨(fw 2 0 1), (m1 0 1), 0, by decide +kernel⟩,
   fun sg h => ⟨fdm, 0, 0, 0, { d := { opcode := 0x40, userTag := 77 } }, mOk sg, by decide +kernel,
       by decide +kernel, by decide +kernel, by rw [mOk_detail, h]; rfl⟩,
   fun sg h => ⟨fdm, 0, 0, 0, { d := { opcode := 0x40, userTag := 77 } }, mOk sg, by decide +kernel,
       by decide +kernel, by decide +kernel, by rw [mOk_detail, h]; decide⟩,
   ⟨fdg, 0, 0, 0, { d := { opcode := 0x41, userTag := 77, len := 5 } }, mGood, List.replicate 5 6,
       by decide +kernel, by decide +kernel, by decide +kernel, by decide +kernel, by rfl, by decide +kernel,
       by decide +kernel, by decide +kernel, rfl⟩,
   ⟨fdb, 0, 0, 0, { d := { opcode := 0x41, userTag := 77, len := 5 } }, mBad, List.replicate 5 6, by decide +kernel,
       by decide +kernel, by decide +kernel, by decide +kernel, by rfl, by decide +kernel, by decide +kernel,
       by decide +kernel, mBad_ne⟩,
   ⟨withRec, 0, ((withRec.boot.record.toList)[0]'(by decide +kernel)), [1, 2], [3], by decide +kernel⟩⟩

end Sys2Proof.Tests.FirmwareImagesAndReports

namespace Sys2Proof.Tests.AdmissionBudgetsAndBuckets

def adm (r b : Nat) :=
  put [(F.admLimit_rateLim, 0, 0x1000), (F.admLimit_burstLim, 0, 0x100), (F.admTotal_rateSum, 0, 0x800),
      (F.admTotal_burstSum, 0, 0x80), (F.admSrc_rate, 3, r), (F.admSrc_burst, 3, b)] ready

/-- States that meet the hypotheses of each clause of `Obligations.AdmissionBudgetsAndBuckets`. -/
theorem witness_AdmissionBudgetsAndBuckets :
    (∃ s : State, ∃ port : Fin 2, ∃ n : Fin 524, ∃ v : BitVec 32,
        let rate := bitsAt v.toNat 0 16;
          let burst := bitsAt v.toNat 16 8;
          let rs := s.rd F.admTotal_rateSum 0 - s.rd F.admSrc_rate n + rate;
          let bs := s.rd F.admTotal_burstSum 0 - s.rd F.admSrc_burst n + burst;
          s.Open port .unit ∧ (rs ≤ s.rd F.admLimit_rateLim 0 ∧ bs ≤ s.rd F.admLimit_burstLim 0 ∧
                (s.srcUnfitted n = true → rate = 0 ∧ burst = 0))) ∧
    (∃ s : State, ∃ port : Fin 2, ∃ n : Fin 524, ∃ v : BitVec 32,
        let rate := bitsAt v.toNat 0 16;
          let burst := bitsAt v.toNat 16 8;
          let rs := s.rd F.admTotal_rateSum 0 - s.rd F.admSrc_rate n + rate;
          let bs := s.rd F.admTotal_burstSum 0 - s.rd F.admSrc_burst n + burst;
          s.Open port .unit ∧ (s.rd F.admLimit_rateLim 0 < rs ∨ s.rd F.admLimit_burstLim 0 < bs ∨
                (s.srcUnfitted n = true ∧ (rate ≠ 0 ∨ burst ≠ 0)))) ∧
    (∃ s : State, s.tc0Wait = []) :=
  ⟨⟨(adm 0x10 2), 0, 3, 0, by decide +kernel⟩,
   ⟨(adm 0x10 2), 0, 3, 0xFFFFFF, by decide +kernel⟩,
   ⟨(adm 0x10 2), by decide +kernel⟩⟩

end Sys2Proof.Tests.AdmissionBudgetsAndBuckets

namespace Sys2Proof.Tests.TileRegistersAndRegions

def tm (l : List (Fld × Nat × Nat)) : State := put l ready

def site (a x : Nat) (s : State) : State := s.wr F.fabSite_site a x

def t1 :=
  site 3 1 (tm [(F.tmRgn_valid, 16*3, 1), (F.tmRgn_base, 16*3, 0), (F.tmRgn_size, 16*3, 1), (F.tmRgn_prot, 16*3, 1),
          (F.arrFlags_satCount, 3, 9), (F.arrFlags_inexact, 3, 1), (F.tmRgn_initBusy, 16*3, 1)])

def t2 :=
  { t1 with
      flips := [(wordKey 1 8, 2), (wordKey 1 11, 2 ^ 71)],
      mem := Memory.tileWrite (Memory.tileWrite [] 1 7 [3]) 1 65536 [3] }

def tmem := { t1 with arrays := [(3, { member := some (1, 1)})], regions := [(1, { members := 8, serial := 1})] }

/-- States that meet the hypotheses of each clause of `Obligations.TileRegistersAndRegions`. -/
theorem witness_TileRegistersAndRegions :
    (∃ s : State, ∃ port : Fin 2, ∃ a : Fin 512, s.Open port .unit ∧ s.arrVacant a = false ∧ s.isMember a = true) ∧
    (∃ s : State, ∃ port : Fin 2, ∃ a : Fin 512, ∃ n : Fin 16, ∃ v : BitVec 64,
        s.Open port .unit ∧ s.arrVacant a = false ∧ s.inRegion a = false ∧
          (s.storeReg .tmRgn (a * 16 + n) v.toNat fullMask).rgnBad a n = false) ∧
    (∃ s : State, ∃ a : Fin 512, ∃ n : Fin 16,
        s.rd F.tmRgn_initBusy (a * 16 + n) = 1 ∧ s.halted (s.arrIsland a) = false) ∧
    (∃ s : State, ∃ site : Fin 576, ∃ line : Nat, ∃ a : Nat,
        line < 1048576 ∧ s.halted site = false ∧ s.secdedAt site line = some a ∧ (s.lineErrs site line).1 ≠ [] ∧
          (s.lineErrs site line).2 = []) :=
  ⟨⟨tmem, 0, 3, by decide +kernel⟩,
   ⟨t1, 0, 3, 0, 0, by decide +kernel⟩,
   ⟨t1, 3, 0, by decide +kernel⟩,
   ⟨t2, 1, 1, 3, by decide +kernel⟩⟩

end Sys2Proof.Tests.TileRegistersAndRegions

namespace Sys2Proof.Tests.DoorbellsFramesAndHostFaults

def db : State := put [(F.rngDbCfg_en,0,1),(F.rngDbBase_addr,0,0x1000),(F.rngSqCfg_en,0,1),(F.rngCqCfg_en,0,1)] ready

def dbp : State :=
  { db with
      host := { db.host with
          ports := mset db.host.ports 0 { linkUp := true, busMaster := true, polling := true } } }

def fr60 : List Byte := List.replicate 60 3

def fTx := fd 0x30 { unit := 2, len := 60 }

def sTx := (withD ready [fTx])

def sTx1 := sTx.wr F.fldPort_en 2 1

def pg (l : List (Nat × Nat)) : List Byte := leBytes 4096 (l.foldl (fun v x => v + x.2 * 2 ^ (64 * x.1)) 0)

/-- States that meet the hypotheses of each clause of `Obligations.DoorbellsFramesAndHostFaults`. -/
theorem witness_DoorbellsFramesAndHostFaults :
    (∃ s : State, ∃ port : Fin 2,
        s.portUp port = true ∧ s.inSit = false ∧ s.rd F.rngDbCfg_en port = 1 ∧ s.rd F.idnState_panelState 0 = 1 ∧
          (s.hport port).polling = false) ∧
    (∃ s : State, ∃ port : Fin 2, ∃ page : DoorbellPage,
        s.portUp port = true ∧ s.inSit = false ∧ (s.hport port).polling = true ∧ page.page.length = 4096) ∧
    (∃ s : State, ∃ port : Fin 2, ∃ sq : Fin 256, ∃ k : Nat, ∃ f : FDescr, ∃ frame : List Byte,
        s.ready (port, sq, k) 0x30 true = some f ∧ s.descrStatus f .priv 0 0 = 0 ∧ f.d.unit < 8 ∧ frame.length =
          f.d.len ∧ 60 ≤ f.d.len ∧ (f.d.len ≤ (if s.rd F.fldPort_vlanId f.d.unit = 0 then 1514 else 1510)) ∧ s.rd
          F.fldPort_en f.d.unit = 1) ∧
    (∃ s : State, ∃ port : Fin 2, ∃ sq : Fin 256, ∃ k : Nat, ∃ f : FDescr, ∃ frame : List Byte,
        s.ready (port, sq, k) 0x30 true = some f ∧ s.descrStatus f .priv 0 0 = 0 ∧ f.d.unit < 8 ∧ frame.length =
          f.d.len ∧ 60 ≤ f.d.len ∧ (f.d.len ≤ (if s.rd F.fldPort_vlanId f.d.unit = 0 then 1514 else 1510)) ∧ s.rd
          F.fldPort_en f.d.unit = 0 ∧ f.Loud) ∧
    (∃ s : State, ∃ port : Fin 2, ∃ sq : Fin 256, ∃ k : Nat, ∃ f : FDescr, ∃ g,
        s.descr (port, sq, k) = some g ∧ readsHost g.d.opcode = true ∧ s.ready (port, sq, k) g.d.opcode true = some
          f ∧ f.Loud) ∧
    (∃ s : State, ∃ port : Fin 2, ∃ sq : Fin 256, ∃ k : Nat,
        s.descr (port, sq, k) = none ∧ (s.hport port).polling = true) :=
  ⟨⟨db, 0, by decide +kernel⟩,
   ⟨dbp, 0, { page := pg [(0, 5)] }, by decide +kernel⟩,
   ⟨sTx1, 0, 0, 0, fTx, fr60, by decide +kernel⟩,
   ⟨sTx, 0, 0, 0, fTx, fr60, by decide +kernel⟩,
   ⟨sTx, 0, 0, 0, fTx, fTx, by decide +kernel⟩,
   ⟨dbp, 0, 0, 0, by decide +kernel⟩⟩

end Sys2Proof.Tests.DoorbellsFramesAndHostFaults

namespace Sys2Proof.Tests.DescriptorsThatOnlyComplete

def fTx := fd 0x30 { unit := 2, len := 60 }

def nopq : FDescr := { (fd 0 {}) with d := { (fd 0 {}).d with quiet := true } }

/-- States that meet the hypotheses of each clause of `Obligations.DescriptorsThatOnlyComplete`. -/
theorem witness_DescriptorsThatOnlyComplete :
    (∃ s : State, ∃ port : Fin 2, ∃ sq : Fin 256, ∃ k : Nat, ∃ f : FDescr,
        s.ready (port, sq, k) 0x00 false = some f ∧ s.descrStatus f .none 0 0 = 0 ∧ f.Loud) ∧
    (∃ s : State, ∃ port : Fin 2, ∃ sq : Fin 256, ∃ k : Nat, ∃ f : FDescr,
        s.ready (port, sq, k) 0x00 false = some f ∧ s.descrStatus f .none 0 0 = 0 ∧ f.d.quiet = true ∧ f.after = []) ∧
    (∃ s : State, ∃ port : Fin 2, ∃ sq : Fin 256, ∃ k : Nat, ∃ f : FDescr, ∃ g,
        s.descr (port, sq, k) = some g ∧ g.d.opcode ∉ definedOpcodes ∧ s.ready (port, sq, k) g.d.opcode false = some
          f ∧ s.descrStatus f .none 0 0 = 0 ∧ f.Loud) ∧
    (∃ s : State, ∃ port : Fin 2, ∃ sq : Fin 256, ∃ k : Nat, ∃ st : Nat, ∃ f : FDescr,
        f.Loud ∧ st ≠ 0 ∧ s.ready (port, sq, k) 0x02 false = some f ∧ s.descrStatus f .array 1 16777216 = st) ∧
    (∃ s : State, ∃ port : Fin 2, ∃ sq : Fin 256, ∃ k : Nat, ∃ st : Nat, ∃ f : FDescr,
        f.Loud ∧ st ≠ 0 ∧ s.ready (port, sq, k) 0x10 false = some f ∧ s.descrStatus f .array 0 0 = st) ∧
    (∃ s : State, ∃ port : Fin 2, ∃ sq : Fin 256, ∃ k : Nat, ∃ st : Nat, ∃ f : FDescr,
        f.Loud ∧ st ≠ 0 ∧ s.ready (port, sq, k) 0x21 false = some f ∧ s.descrStatus f .pack 1 16777216 = st) ∧
    (∃ s : State, ∃ port : Fin 2, ∃ sq : Fin 256, ∃ k : Nat, ∃ st : Nat, ∃ f : FDescr,
        f.Loud ∧ st ≠ 0 ∧ s.ready (port, sq, k) 0x30 true = some f ∧ s.descrStatus f .priv 0 0 = st) :=
  ⟨⟨(withD ready [fd 0 {}]), 0, 0, 0, (fd 0 {}), by decide +kernel⟩,
   ⟨(withD ready [nopq]), 0, 0, 0, nopq, by decide +kernel⟩,
   ⟨(withD ready [fd 0x77 {}]), 0, 0, 0, (fd 0x77 {}), (fd 0x77 {}), by decide +kernel⟩,
   ⟨(withD ready [fd 2 { len := 0, unit := 3 }]), 0, 0, 0, 2, (fd 2 { len := 0, unit := 3 }), by decide +kernel⟩,
   ⟨(withD ready [fd 0x10 { unit := 513 }]), 0, 0, 0, 2, (fd 0x10 { unit := 513 }), by decide +kernel⟩,
   ⟨(withD ready [fd 0x21 { unit := 3, len := 0 }]), 0, 0, 0, 2, (fd 0x21 { unit := 3, len := 0 }),
       by decide +kernel⟩,
   ⟨(withD ready [fTx]).wr F.rngSqCfg_priv 0 0, 0, 0, 0, 4, fTx, by decide +kernel⟩⟩

end Sys2Proof.Tests.DescriptorsThatOnlyComplete

namespace Sys2Proof.Tests.HostDescriptorsSendRequests

def dat (n : Nat) : List Byte := (List.range n).map (fun i => BitVec.ofNat 8 i)

def w1 := fd 0x01 { unit := 3, len := 5000, offset := 4090, ctr := 7, ctrEn := true }

def r1 := fd 0x02 { unit := 3, len := 5000, offset := 4090 }

def sg := fd 0x03 { unit := 3, ctr := 5, value := 9 }

def sgm := fd 0x03 { unit := 9, ctr := 5, value := 9, ctrEn := true }

def grp (s : State) : State := { s with mcast := [(9, 2^3 + 2^100)] }

/-- States that meet the hypotheses of each clause of `Obligations.HostDescriptorsSendRequests`. -/
theorem witness_HostDescriptorsSendRequests :
    (∃ s : State, ∃ port : Fin 2, ∃ sq : Fin 256, ∃ k : Nat, ∃ f : FDescr, ∃ data : List Byte,
        s.arrVacant f.d.unit = false ∧ s.arrHeld f.d.unit = false ∧ s.ready (port, sq, k) 0x01 true = some f ∧
          s.descrStatus f .array 1 16777216 = 0 ∧ data.length = f.d.len) ∧
    (∃ s : State, ∃ port : Fin 2, ∃ sq : Fin 256, ∃ k : Nat, ∃ f : FDescr,
        s.arrVacant f.d.unit = false ∧ s.arrHeld f.d.unit = false ∧ s.ready (port, sq, k) 0x02 false = some f ∧
          s.descrStatus f .array 1 16777216 = 0) ∧
    (∃ s : State, ∃ port : Fin 2, ∃ sq : Fin 256, ∃ k : Nat, ∃ f : FDescr, ∃ ms,
        s.ready (port, sq, k) 0x03 false = some f ∧ f.d.ctrEn = true ∧ s.descrStatus f .group 0 0 = 0 ∧ f.d.value ≠
          0 ∧ s.holds.contains (scopeMcast f.d.unit) = false ∧ ms = maskList (mget s.mcast f.d.unit 0) 512 ∧ ms ≠ []
          ∧ (∀ m ∈ ms, s.arrVacant m = false)) ∧
    (∃ s : State, ∃ port : Fin 2, ∃ sq : Fin 256, ∃ k : Nat, ∃ f : FDescr,
        s.arrVacant f.d.unit = false ∧ s.arrHeld f.d.unit = false ∧ s.ready (port, sq, k) 0x03 false = some f ∧
          f.d.ctrEn = false ∧ s.descrStatus f .array 0 0 = 0 ∧ f.d.value ≠ 0) :=
  ⟨⟨(withD ready [w1]), 0, 0, 0, w1, (dat 5000), by decide +kernel⟩,
   ⟨(withD ready [r1]), 0, 0, 0, r1, by decide +kernel⟩,
   ⟨(grp (withD ready [sgm])), 0, 0, 0, sgm, [3, 100], by decide +kernel⟩,
   ⟨(withD ready [sg]), 0, 0, 0, sg, by decide +kernel⟩⟩

end Sys2Proof.Tests.HostDescriptorsSendRequests

namespace Sys2Proof.Tests.EntriesAndRecordsReachTheHost

def ent : CEntry := { userTag := 5, sq := 0, slot := 0, status := 0 }

def sE (pr : Nat) : State :=
  let s := put [(F.rngCqStat_prod, 0, pr), (F.rngCqCfg_intUs, 0, 5), (F.rngCqCfg_intCnt, 0, 2),
      (F.rngCqCfg_vec, 0, 9), (F.rngEvtCfg_intUs, 0, 5), (F.rngEvtCfg_intCnt, 0, 2), (F.rngEvtCfg_vec, 0, 8),
      (F.rngEvtCfg_en, 0, 1), (F.rngEvtCfg_log2Size, 0, 10), (F.rngEvtCfg_telEn, 0, 1)]
    (withD ready [{ fd 0 {} with st := .done }])
  { s with
      host := { s.host with
          evUnsignalled := 1, evHeld := [{}, { code := 7 }],
          ports := mset s.host.ports 0 {
              linkUp := true, busMaster := true, held := [(0, [(0, ent)])], unsignalled := [(0, 1)],
              cqHead := [(0, pr - 3)] } } }

def sE2 : State :=
  let s := sE 3
  { s with host := { s.host with ports := mset s.host.ports 0 { (s.hport 0) with msix := [(4*8+3,0),(4*9+3,0)] } } }

/-- States that meet the hypotheses of each clause of `Obligations.EntriesAndRecordsReachTheHost`. -/
theorem witness_EntriesAndRecordsReachTheHost :
    (∃ s : State, ∃ port : Fin 2, ∃ cq : Fin 128, ∃ k, ∃ e, ∃ rest,
        s.portUp port = true ∧ mget (s.hport port).held cq [] = (k, e) :: rest ∧ s.inSit = false ∧ s.cqRoom port cq
          = true) ∧
    (∃ s : State, ∃ port : Fin 2, ∃ cq : Fin 128,
        s.portUp port = true ∧ mget (s.hport port).unsignalled cq 0 ≠ 0 ∧ s.rd F.rngCqCfg_intUs (cqI port cq) ≠ 0 ∧
          s.rd F.rngCqCfg_intCnt (cqI port cq) ≠ 0 ∧ s.msixMasked port (s.rd F.rngCqCfg_vec (cqI port cq)) = false) ∧
    (∃ s : State, ∃ port : Fin 2, ∃ cq : Fin 128,
        s.portUp port = true ∧ mget (s.hport port).unsignalled cq 0 ≠ 0 ∧ s.rd F.rngCqCfg_intUs (cqI port cq) ≠ 0 ∧
          s.rd F.rngCqCfg_intCnt (cqI port cq) ≠ 0 ∧ s.msixMasked port (s.rd F.rngCqCfg_vec (cqI port cq)) = true) ∧
    (∃ s : State, ∃ port : Fin 2,
        s.portUp port = true ∧ s.rd F.rngEvtCfg_port 0 = port ∧ s.host.evUnsignalled ≠ 0 ∧ s.rd F.rngEvtCfg_intUs 0
          ≠ 0 ∧ s.rd F.rngEvtCfg_intCnt 0 ≠ 0 ∧ s.msixMasked port (s.rd F.rngEvtCfg_vec 0) = false) ∧
    (∃ s : State,
        s.rd F.rngEvtCfg_en 0 = 1 ∧ s.portUp (s.rd F.rngEvtCfg_port 0) = true ∧ s.host.evHeld ≠ [] ∧
          (s.rd F.rngEvtStat_prod 0 + 2 ^ 32 - s.host.evHead % 2 ^ 32) % 2 ^ 32 < 2 ^ s.rd F.rngEvtCfg_log2Size 0) ∧
    (∃ s : State, s.rd F.rngEvtCfg_telEn 0 = 1 ∧ s.rd F.idnState_panelState 0 = 1 ∧ s.inSit = false) :=
  ⟨⟨(sE 3), 0, 0, 0, ent, [], by decide +kernel⟩,
   ⟨sE2, 0, 0, by decide +kernel⟩,
   ⟨(sE 3), 0, 0, by decide +kernel⟩,
   ⟨sE2, 0, by decide +kernel⟩,
   ⟨(sE 3), by decide +kernel⟩,
   ⟨(sE 3), by decide +kernel⟩⟩

end Sys2Proof.Tests.EntriesAndRecordsReachTheHost

namespace Sys2Proof.Tests.HostPortsResetAndComeUp

/-- States that meet the hypotheses of each clause of `Obligations.HostPortsResetAndComeUp`. -/
theorem witness_HostPortsResetAndComeUp :
    (∃ s : State, ∃ port : Fin 2, (s.hport port).linkUp = true) ∧
    (∃ s : State, ∃ port : Fin 2, ∃ speed, ∃ width,
        (s.hport port).linkUp = false ∧ s.boot.busesUp = true ∧ s.rd F.idnState_panelState 0 ≠ 2 ∧ s.rd
          F.idnStage_failed (2 + port) = 0 ∧ 1 ≤ speed ∧ speed ≤ 6 ∧ width ∈ [1, 2, 4, 8, 16] ∧ s.inSit = false) :=
  ⟨⟨ready, 0, by decide +kernel⟩,
   ⟨State.reset, 0, 1, 1, by decide +kernel⟩⟩

end Sys2Proof.Tests.HostPortsResetAndComeUp

namespace Sys2Proof.Tests.IllegalRecordsFailTheStep

def rUndef := recOf [(0,0,8,0x77),(4,0,32,55)]

def rVres := recOf [(0,0,8,0x11),(8,0,8,0x27),(4,0,32,55)]

/-- States that meet the hypotheses of each clause of `Obligations.IllegalRecordsFailTheStep`. -/
theorem witness_IllegalRecordsFailTheStep :
    (∃ s : State, ∃ a : Fin 512, ∃ run : StepRun, ∃ r : Record,
        s.AtRecord a run r ∧ run.failed = none ∧ run.cancelled = false ∧ recKind r = none) ∧
    (∃ s : State, ∃ a : Fin 512, ∃ run : StepRun, ∃ r : Record, ∃ k,
        s.AtRecord a run r ∧ run.failed = none ∧ run.cancelled = false ∧ recKind r = some k ∧ fieldsOk r k = false) ∧
    (∃ s : State, ∃ a : Fin 512, ∃ run : StepRun, ∃ r : Record,
        s.AtRecord a run r ∧ run.failed = none ∧ run.cancelled = false ∧ recKind r = some .vecop ∧
          (funcDefined (Rf r 8 0 8) = false ∨ funcOffered (Rf r 8 0 8) (compOf (Rf r 9 0 4)) = false)) :=
  ⟨⟨(atRec rUndef), 3, run3, rUndef, by decide +kernel⟩,
   ⟨(atRec rVres), 3, run3, rVres, .vecop, by decide +kernel⟩,
   ⟨(atRec rVres), 3, run3, rVres, by decide +kernel⟩⟩

end Sys2Proof.Tests.IllegalRecordsFailTheStep

namespace Sys2Proof.Tests.RecordsIssueWaitAndComplete

def rWait := recOf [(0,0,8,0x30),(4,0,32,55),(8,0,6,5),(9,0,1,1),(12,0,32,100),(16,0,32,7)]

def rFence := recOf [(0,0,8,0x32),(4,0,32,55),(8,0,6,0x3F),(2,0,6,9),(2,6,1,1)]

def rEnd := recOf [(0,0,8,0x3F)]

def st65 : State :=
  let s := atRec rEnd
  { s with arrays := mset s.arrays 3 { s.arr 3 with run := some { run3 with fetched := 65536 } } }

def fl (r : Record) (aw : Await) : Flight :=
  { n := 7, addr := 0x10000, tag := 55, record := r, unit := .control, await := aw }

def inF (f : Flight) (sh : Option WTile := none) : State :=
  let s := (atRec rWait).wr F.tmCtr_value (3*64+5) 200
  { s with
      arrays := mset s.arrays 3 { s.arr 3 with
          run := some { run3.advance with commitLast := false }, flights := [f], shadow := sh } }

def wt : WTile := { fmt := 4, loading := true, rows := [[some 3]] }

def s73 : State := (atRec rWait)

def s74 : State := (atRec rFence)

def s76 : State := (inF (fl rWait (.counter 5 100 0 true)))

def s77 : State := (inF (fl rWait (.counter 5 201 9 false)))

def s78 : State := (inF (fl rFence .nothing))

def s79 : State := (inF {(fl rFence .nothing) with doneCtr := some 5})

def s80 : State := (inF (fl rEnd .fence))

def s81 : State := (inF (fl rFence .shadowLoad) (some wt))

def s82 : State := (inF (fl rFence .shadowLoad) (some { wt with metaBad := true}))

/-- States that meet the hypotheses of each clause of `Obligations.RecordsIssueWaitAndComplete`. -/
theorem witness_RecordsIssueWaitAndComplete :
    (∃ s : State, ∃ a : Fin 512, ∃ run : StepRun,
        run.failed = none ∧ run.cancelled = false ∧ (s.arr a).run = some run ∧ run.issuing = true ∧ 65536 ≤
          run.fetched ∧ (s.arr a).flights = [] ∧ s.halted (s.arrIsland a) = false) ∧
    (∃ s : State, ∃ a : Fin 512, ∃ run : StepRun, ∃ r : Record, ∃ p : Plan, s.Fetches a run r .waitCount p) ∧
    (∃ s : State, ∃ a : Fin 512, ∃ run : StepRun, ∃ r : Record, ∃ p : Plan, s.Fetches a run r .fence p) ∧
    (∃ s : State, ∃ a : Fin 512, ∃ run : StepRun, ∃ r : Record, ∃ p : Plan, s.Fetches a run r .endStep p) ∧
    (∃ s : State, ∃ a : Fin 512, ∃ run : StepRun, ∃ f : Flight, ∃ c : Nat, ∃ target : Nat, ∃ o : Nat,
        ∃ consume : Bool,
        (s.arr a).run = some run ∧ (s.arr a).flights = [f] ∧ f.await = .counter c target o consume ∧ c < 64 ∧
          s.halted (s.arrIsland a) = false ∧ target ≤ s.rd F.tmCtr_value (a * 64 + c) ∧ s.rd F.tmCtr_value
          (a * 64 + c) < 2 ^ 32 ∧ run.issuing = true ∧ f.status = 0 ∧ f.doneCtr = none ∧ f.gaps = [] ∧ recKind
          f.record = some .waitCount) ∧
    (∃ s : State, ∃ a : Fin 512, ∃ run : StepRun, ∃ f : Flight, ∃ c : Nat, ∃ target : Nat, ∃ o : Nat,
        ∃ consume : Bool,
        (s.arr a).run = some run ∧ (s.arr a).flights = [f] ∧ f.await = .counter c target o consume ∧ c < 64 ∧
          s.halted (s.arrIsland a) = false ∧ o ≠ 0 ∧ s.rd F.tmCtr_value (a * 64 + c) < target ∧ run.failed = none ∧
          run.cancelled = false) ∧
    (∃ s : State, ∃ a : Fin 512, ∃ run : StepRun, ∃ f : Flight,
        (s.arr a).run = some run ∧ (s.arr a).flights = [f] ∧ s.halted (s.arrIsland a) = false ∧ f.await = .nothing ∧
          f.out = [] ∧ f.status = 0 ∧ f.gaps = [] ∧ run.issuing = true ∧ recKind f.record ≠ some .endStep ∧
          f.doneCtr = none) ∧
    (∃ s : State, ∃ a : Fin 512, ∃ run : StepRun, ∃ f : Flight, ∃ c,
        (s.arr a).run = some run ∧ (s.arr a).flights = [f] ∧ s.halted (s.arrIsland a) = false ∧ f.await = .nothing ∧
          f.out = [] ∧ f.status = 0 ∧ f.gaps = [] ∧ run.issuing = true ∧ recKind f.record ≠ some .endStep ∧
          f.doneCtr = some c ∧ c < 64 ∧ s.rd F.tmCtr_value (a * 64 + c) + 1 < 2 ^ 32 - 1) ∧
    (∃ s : State, ∃ a : Fin 512, ∃ run : StepRun, ∃ f : Flight,
        (s.arr a).run = some run ∧ (s.arr a).flights = [f] ∧ s.halted (s.arrIsland a) = false ∧ f.await = .fence ∧
          f.status = 0 ∧ f.doneCtr = none ∧ f.gaps = [] ∧ recKind f.record = some .endStep ∧ run.failed = none ∧
          run.cancelled = false ∧ run.superseded = false) ∧
    (∃ s : State, ∃ a : Fin 512, ∃ run : StepRun, ∃ f : Flight, ∃ w,
        (s.arr a).run = some run ∧ (s.arr a).flights = [f] ∧ s.halted (s.arrIsland a) = false ∧ f.await =
          .shadowLoad ∧ (s.arr a).shadow = some w ∧ w.metaBad = false) ∧
    (∃ s : State, ∃ a : Fin 512, ∃ run : StepRun, ∃ f : Flight, ∃ w,
        (s.arr a).run = some run ∧ (s.arr a).flights = [f] ∧ s.halted (s.arrIsland a) = false ∧ f.await =
          .shadowLoad ∧ (s.arr a).shadow = some w ∧ w.metaBad = true ∧ f.status = 0) :=
  ⟨⟨st65, 3, { run3 with fetched := 65536 }, by decide +kernel⟩,
   ⟨s73, 3, run3, rWait, (planOf s73 3 rWait .waitCount), by decide +kernel⟩,
   ⟨s74, 3, run3, rFence, (planOf s74 3 rFence .fence), by decide +kernel⟩,
   ⟨(atRec rEnd), 3, run3, rEnd, (planOf (atRec rEnd) 3 rEnd .endStep), by decide +kernel⟩,
   ⟨s76, 3, run3.advance, ((((s76.arr 3).flights))[0]'(by decide +kernel)), 5, 100, 0, true, by decide +kernel⟩,
   ⟨s77, 3, run3.advance, ((((s77.arr 3).flights))[0]'(by decide +kernel)), 5, 201, 9, false, by decide +kernel⟩,
   ⟨s78, 3, run3.advance, ((((s78.arr 3).flights))[0]'(by decide +kernel)), by decide +kernel⟩,
   ⟨s79, 3, run3.advance, ((((s79.arr 3).flights))[0]'(by decide +kernel)), 5, by decide +kernel⟩,
   ⟨s80, 3, run3.advance, ((((s80.arr 3).flights))[0]'(by decide +kernel)), by decide +kernel⟩,
   ⟨s81, 3, run3.advance, ((((s81.arr 3).flights))[0]'(by decide +kernel)), wt, by decide +kernel⟩,
   ⟨s82, 3, run3.advance, ((((s82.arr 3).flights))[0]'(by decide +kernel)), { wt with metaBad := true },
       by decide +kernel⟩⟩

end Sys2Proof.Tests.RecordsIssueWaitAndComplete

namespace Sys2Proof.Tests.ElementwiseVecops

def fill (s : State) : State :=
  { s with
      arrays := mset s.arrays 3 { s.arr 3 with
          accA := {
              tag := .fp32,
              rows := [(0, List.replicate 256 1), (1, List.replicate 256 2), (2, List.replicate 256 3)] },
          accB := { tag := .int32, rows := [(5, List.replicate 256 4)] } } }

def st (r : Record) : State := fill (atRec r)

def r83 : Record :=
  recOf [(0, 0, 8, 0x11), (4, 0, 32, 0xc60a3cab), (8, 0, 8, 0x1), (9, 0, 4, 0x0), (9, 4, 4, 0x0), (10, 0, 4, 0x0),
      (11, 0, 1, 0x1), (11, 1, 1, 0x1), (11, 2, 1, 0x0), (12, 0, 32, 0x0), (16, 0, 32, 0x2000), (20, 0, 32, 0x4000),
      (24, 0, 32, 0x8000), (28, 0, 16, 0x1), (30, 0, 16, 0x1), (32, 0, 16, 0x4), (34, 0, 16, 0x0), (36, 0, 16, 0x1),
      (38, 0, 16, 0x2), (40, 0, 16, 0xa3), (44, 0, 32, 0x585a01c), (48, 0, 64, 0x6a3753915c76f18a)]

def s83 : State := (st r83)

def pl83 : Plan := (planOf s83 3 r83 .vecop)

def c83 : Ccw := (ccwAt (Rf r83 40 0 16))

/-- States that meet the hypotheses of each clause of `Obligations.ElementwiseVecops`. -/
theorem witness_ElementwiseVecops :
    ∃ p, ∃ s : State, ∃ a : Fin 512, ∃ run : StepRun, ∃ r : Record, ∃ pl : Plan, ∃ c : Ccw, p ∈ elementwiseCommands
      ∧ s.Fetches a run r .vecop pl ∧ Rf r 8 0 8 = p.2 ∧ ccwOf (Rf r 40 0 16) = some c ∧ s.VecReads a r p.2 ∧
      s.DstOk a r c.fmt (Rf r 30 0 16 * 64) (vecNr r) (vecNe r) :=
  ⟨((elementwiseCommands)[0]'(by decide +kernel)), s83, 3, run3, r83, pl83, c83, by decide +kernel,
       by decide +kernel, by decide +kernel, by decide +kernel, vecReads_of (by decide +kernel),
       dst_of (by decide +kernel)⟩

end Sys2Proof.Tests.ElementwiseVecops

namespace Sys2Proof.Tests.ConvertSelectQuantise

def fill (s : State) : State :=
  { s with
      arrays := mset s.arrays 3 { s.arr 3 with
          accA := {
              tag := .fp32,
              rows := [(0, List.replicate 256 1), (1, List.replicate 256 2), (2, List.replicate 256 3)] },
          accB := { tag := .int32, rows := [(5, List.replicate 256 4)] } } }

def st (r : Record) : State := fill (atRec r)

def r84 : Record :=
  recOf [(0, 0, 8, 0x11), (4, 0, 32, 0xfca16474), (8, 0, 8, 0x0), (9, 0, 4, 0x1), (9, 4, 4, 0x0), (10, 0, 4, 0x0),
      (11, 0, 1, 0x1), (11, 1, 1, 0x0), (11, 2, 1, 0x0), (12, 0, 32, 0x0), (16, 0, 32, 0x2000), (20, 0, 32, 0x4000),
      (24, 0, 32, 0x40), (28, 0, 16, 0x2), (30, 0, 16, 0x4), (32, 0, 16, 0x4), (34, 0, 16, 0x1), (36, 0, 16, 0x1),
      (38, 0, 16, 0x8), (40, 0, 16, 0x182), (44, 0, 32, 0xf4976028), (48, 0, 64, 0x86c453d9fd89d6a5)]

def s84 : State := (st r84)

def pl84 : Plan := (planOf s84 3 r84 .vecop)

def c84 : Ccw := (ccwAt (Rf r84 40 0 16))

def r85 : Record :=
  recOf [(0, 0, 8, 0x11), (4, 0, 32, 0x45f87de1), (8, 0, 8, 0x10), (9, 0, 4, 0x3), (9, 4, 4, 0x2), (10, 0, 4, 0x0),
      (11, 0, 1, 0x0), (11, 1, 1, 0x0), (11, 2, 1, 0x1), (12, 0, 32, 0x0), (16, 0, 32, 0x2000), (20, 0, 32, 0x4000),
      (24, 0, 32, 0x40), (28, 0, 16, 0x1), (30, 0, 16, 0x0), (32, 0, 16, 0x4), (34, 0, 16, 0x1), (36, 0, 16, 0x3),
      (38, 0, 16, 0x1), (40, 0, 16, 0x131), (44, 0, 32, 0x7f292de5), (48, 0, 64, 0x1c0563104d5d3365)]

def s85 : State := (st r85)

def pl85 : Plan := (planOf s85 3 r85 .vecop)

def c85 : Ccw := (ccwAt (Rf r85 40 0 16))

def r86 : Record :=
  recOf [(0, 0, 8, 0x11), (4, 0, 32, 0x8c641c53), (8, 0, 8, 0x38), (9, 0, 4, 0x1), (9, 4, 4, 0x0), (10, 0, 4, 0x0),
      (11, 0, 1, 0x0), (11, 1, 1, 0x0), (11, 2, 1, 0x0), (12, 0, 32, 0x0), (16, 0, 32, 0x2000), (20, 0, 32, 0x4000),
      (24, 0, 32, 0x0), (28, 0, 16, 0x0), (30, 0, 16, 0x0), (32, 0, 16, 0x0), (34, 0, 16, 0x1), (36, 0, 16, 0x2),
      (38, 0, 16, 0x10), (40, 0, 16, 0xc7), (44, 0, 32, 0x224ebdb1), (48, 0, 64, 0x87db64eaeacfcc2)]

def s86 : State := (st r86)

def pl86 : Plan := (planOf s86 3 r86 .vecop)

def c86 : Ccw := (ccwAt (Rf r86 40 0 16))

/-- States that meet the hypotheses of each clause of `Obligations.ConvertSelectQuantise`. -/
theorem witness_ConvertSelectQuantise :
    (∃ s : State, ∃ a : Fin 512, ∃ run : StepRun, ∃ r : Record, ∃ pl : Plan, ∃ c : Ccw,
        s.Fetches a run r .vecop pl ∧ Rf r 8 0 8 = 0x00 ∧ ccwOf (Rf r 40 0 16) = some c ∧ s.VecReads a r 0x00 ∧
          s.DstOk a r c.fmt (Rf r 30 0 16 * 64) (vecNr r) (vecNe r) ∧
          (isMx (vecAf r) = true → s.RowsOk a (Rf r 20 0 26) (Rf r 34 0 16 * 64) (vecNr r) (ceilDiv (vecNe r) 32))) ∧
    (∃ s : State, ∃ a : Fin 512, ∃ run : StepRun, ∃ r : Record, ∃ pl : Plan, ∃ c : Ccw,
        s.Fetches a run r .vecop pl ∧ Rf r 8 0 8 = 0x10 ∧ ccwOf (Rf r 40 0 16) = some c ∧ s.VecReads a r 0x10 ∧
          (s.RowsOk a (Rf r 20 0 26) (if Rf r 11 1 1 = 1 then 0 else Rf r 34 0 16 * 64) (vecNr r) 32) ∧ s.DstOk a r
          c.fmt (Rf r 30 0 16 * 64) (vecNr r) (vecNe r)) ∧
    (∃ s : State, ∃ a : Fin 512, ∃ run : StepRun, ∃ r : Record, ∃ pl : Plan, ∃ c : Ccw, ∃ d : Nat,
        s.Fetches a run r .vecop pl ∧ Rf r 8 0 8 = 0x38 ∧ ccwOf (Rf r 40 0 16) = some c ∧ s.VecReads a r 0x38 ∧
          srcOf (Rf r 24 0 32) = .mem d ∧ s.RowsOk a d (Rf r 30 0 16 * 64) (vecNr r)
          (ceilDiv (vecNe r * fmtWidth c.fmt) 8) ∧ s.RowsOk a (Rf r 20 0 26) (Rf r 34 0 16 * 64) (vecNr r)
          (ceilDiv (vecNe r) 32)) :=
  ⟨⟨s84, 3, run3, r84, pl84, c84, by decide +kernel, by decide +kernel, by decide +kernel,
       vecReads_of (by decide +kernel), dst_of (by decide +kernel), by decide +kernel⟩,
   ⟨s85, 3, run3, r85, pl85, c85, by decide +kernel, by decide +kernel, by decide +kernel,
       vecReads_of (by decide +kernel), by decide +kernel, dst_of (by decide +kernel)⟩,
   ⟨s86, 3, run3, r86, pl86, c86, (Rf r86 24 0 32), by decide +kernel, by decide +kernel, by decide +kernel,
       vecReads_of (by decide +kernel), by decide +kernel, by decide +kernel, by decide +kernel⟩⟩

end Sys2Proof.Tests.ConvertSelectQuantise

namespace Sys2Proof.Tests.ComparesAndReductions

def fill (s : State) : State :=
  { s with
      arrays := mset s.arrays 3 { s.arr 3 with
          accA := {
              tag := .fp32,
              rows := [(0, List.replicate 256 1), (1, List.replicate 256 2), (2, List.replicate 256 3)] },
          accB := { tag := .int32, rows := [(5, List.replicate 256 4)] } } }

def st (r : Record) : State := fill (atRec r)

def r87 : Record :=
  recOf [(0, 0, 8, 0x11), (4, 0, 32, 0x2807e496), (8, 0, 8, 0xc), (9, 0, 4, 0x2), (9, 4, 4, 0x1), (10, 0, 4, 0x0),
      (11, 0, 1, 0x0), (11, 1, 1, 0x0), (11, 2, 1, 0x0), (12, 0, 32, 0x0), (16, 0, 32, 0x2000), (20, 0, 32, 0x4000),
      (24, 0, 32, 0x40), (28, 0, 16, 0x4), (30, 0, 16, 0x4), (32, 0, 16, 0x1), (34, 0, 16, 0x1), (36, 0, 16, 0x3),
      (38, 0, 16, 0x8), (40, 0, 16, 0x121), (44, 0, 32, 0x9d77506f), (48, 0, 64, 0xf9def1c969598250)]

def s87 : State := (st r87)

def pl87 : Plan := (planOf s87 3 r87 .vecop)

def c87 : Ccw := (ccwAt (Rf r87 40 0 16))

def r88 : Record :=
  recOf [(0, 0, 8, 0x11), (4, 0, 32, 0xf77a454c), (8, 0, 8, 0x30), (9, 0, 4, 0xe), (9, 4, 4, 0xe), (10, 0, 4, 0x0),
      (11, 0, 1, 0x0), (11, 1, 1, 0x0), (11, 2, 1, 0x1), (12, 0, 32, 0x0), (16, 0, 32, 0x2000), (20, 0, 32, 0x4000),
      (24, 0, 32, 0x40), (28, 0, 16, 0x1), (30, 0, 16, 0x4), (32, 0, 16, 0x1), (34, 0, 16, 0x0), (36, 0, 16, 0x2),
      (38, 0, 16, 0x2), (40, 0, 16, 0x1a0), (44, 0, 32, 0x66a5810c), (48, 0, 64, 0xaffb956e359c66c4)]

def s88 : State := (st r88)

def pl88 : Plan := (planOf s88 3 r88 .vecop)

def c88 : Ccw := (ccwAt (Rf r88 40 0 16))

/-- States that meet the hypotheses of each clause of `Obligations.ComparesAndReductions`. -/
theorem witness_ComparesAndReductions :
    (∃ p, ∃ s : State, ∃ a : Fin 512, ∃ run : StepRun, ∃ r : Record, ∃ pl : Plan, ∃ c : Ccw, ∃ d : Nat,
        p ∈ compareCommands ∧ s.Fetches a run r .vecop pl ∧ Rf r 8 0 8 = p.2 ∧ ccwOf (Rf r 40 0 16) = some c ∧
          s.VecReads a r p.2 ∧ srcOf (Rf r 24 0 32) = .mem d ∧ s.RowsOk a d (Rf r 30 0 16 * 64) (vecNr r) 32) ∧
    (∃ p, ∃ s : State, ∃ a : Fin 512, ∃ run : StepRun, ∃ r : Record, ∃ pl : Plan, ∃ c : Ccw,
        p ∈ reductionCommands ∧ s.Fetches a run r .vecop pl ∧ Rf r 8 0 8 = p.2 ∧ ccwOf (Rf r 40 0 16) = some c ∧
          s.VecReads a r p.2 ∧ s.DstOk a r c.fmt 0 1 1) :=
  ⟨⟨((compareCommands)[0]'(by decide +kernel)), s87, 3, run3, r87, pl87, c87, (Rf r87 24 0 32), by decide +kernel,
       by decide +kernel, by decide +kernel, by decide +kernel, vecReads_of (by decide +kernel), by decide +kernel,
       by decide +kernel⟩,
   ⟨((reductionCommands)[0]'(by decide +kernel)), s88, 3, run3, r88, pl88, c88, by decide +kernel,
       by decide +kernel, by decide +kernel, by decide +kernel, vecReads_of (by decide +kernel),
       dst_of (by decide +kernel)⟩⟩

end Sys2Proof.Tests.ComparesAndReductions

namespace Sys2Proof.Tests.MatmulAccumulates

def fill (s : State) : State :=
  { s with
      arrays := mset s.arrays 3 { s.arr 3 with
          accA := {
              tag := .fp32,
              rows := [(0, List.replicate 256 1), (1, List.replicate 256 2), (2, List.replicate 256 3)] },
          accB := { tag := .int32, rows := [(5, List.replicate 256 4)] } } }

def st (r : Record) : State := fill (atRec r)

def withTile (w : WTile) (sw : Bool) (s : State) : State :=
  { s with
      arrays := mset s.arrays 3 { s.arr 3 with
          active := (if sw then none else some { w with loading := false }),
          shadow := (if sw then some { w with loading := false } else none), shadowFresh := sw } }

def mmTile : WTile :=
  { fmt := 4, cls := wClass 4 false, rows := List.replicate (wDenseK (wClass 4 false) 0) [] }

def r89 : Record :=
  recOf [(0, 0, 8, 0x10), (8, 0, 26, 0x0), (12, 0, 26, 0x0), (16, 0, 32, 0x40), (20, 0, 32, 0x0), (24, 0, 4, 0x4),
      (25, 0, 1, 0x1), (25, 1, 1, 0x1), (26, 0, 9, 0x1), (28, 0, 1, 0x0), (29, 0, 8, 0x5), (30, 0, 16, 0x1)]

def s89 : State := (withTile { mmTile with metaBad := true } true (st r89))

def pl89 : Plan := (planOf s89 3 r89 .matmul)

def c89 : Ccw := (ccwAt (Rf r89 30 0 16))

def w89 : WTile := { mmTile with metaBad := true }

def r90 : Record :=
  recOf [(0, 0, 8, 0x10), (8, 0, 26, 0x0), (12, 0, 26, 0x0), (16, 0, 32, 0x40), (20, 0, 32, 0x0), (24, 0, 4, 0x4),
      (25, 0, 1, 0x1), (25, 1, 1, 0x1), (26, 0, 9, 0x1), (28, 0, 1, 0x0), (29, 0, 8, 0x5), (30, 0, 16, 0x1)]

def s90 : State := (withTile mmTile true (st r90))

def pl90 : Plan := (planOf s90 3 r90 .matmul)

def c90 : Ccw := (ccwAt (Rf r90 30 0 16))

/-- States that meet the hypotheses of each clause of `Obligations.MatmulAccumulates`. -/
theorem witness_MatmulAccumulates :
    (∃ s : State, ∃ a : Fin 512, ∃ run : StepRun, ∃ r : Record, ∃ pl : Plan, ∃ c : Ccw, ∃ w : WTile,
        s.Fetches a run r .matmul pl ∧ ccwOf (Rf r 30 0 16) = some c ∧
          ((if Rf r 25 0 1 = 1 then (s.arr a).shadow else (s.arr a).active) = some w) ∧ w.loading = false ∧
          w.metaBad = true) ∧
    (∃ s : State, ∃ a : Fin 512, ∃ run : StepRun, ∃ r : Record, ∃ pl : Plan, ∃ c : Ccw, ∃ w : WTile,
        s.Fetches a run r .matmul pl ∧ ccwOf (Rf r 30 0 16) = some c ∧
          ((if Rf r 25 0 1 = 1 then (s.arr a).shadow else (s.arr a).active) = some w) ∧ w.loading = false ∧
          w.metaBad = false ∧ s.RowsOk a (Rf r 8 0 26) (Rf r 16 0 32) (Rf r 26 0 9)
          (w.rows.length * fmtWidth (Rf r 24 0 4) / 8) ∧
          (isMx (Rf r 24 0 4) = true → s.RowsOk a (Rf r 12 0 26) (Rf r 20 0 32) (Rf r 26 0 9) (w.rows.length / 32))) :=
  ⟨⟨s89, 3, run3, r89, pl89, c89, w89, by decide +kernel, by decide +kernel, by decide +kernel, by decide +kernel,
       by decide +kernel⟩,
   ⟨s90, 3, run3, r90, pl90, c90, mmTile, by decide +kernel, by decide +kernel, by decide +kernel,
       by decide +kernel, by decide +kernel, by decide +kernel, by decide +kernel⟩⟩

end Sys2Proof.Tests.MatmulAccumulates

namespace Sys2Proof.Tests.LoadsFillTileAndAccumulator

def fill (s : State) : State :=
  { s with
      arrays := mset s.arrays 3 { s.arr 3 with
          accA := {
              tag := .fp32,
              rows := [(0, List.replicate 256 1), (1, List.replicate 256 2), (2, List.replicate 256 3)] },
          accB := { tag := .int32, rows := [(5, List.replicate 256 4)] } } }

def st (r : Record) : State := fill (atRec r)

def r91 : Record :=
  recOf [(0, 0, 8, 0x1), (8, 0, 4, 0x0), (9, 0, 4, 0x4), (9, 4, 2, 0x0), (9, 6, 1, 0x0), (12, 0, 26, 0x0),
      (16, 0, 32, 0x0), (20, 0, 26, 0x4000), (24, 0, 26, 0x2000)]

def s91 : State := (st r91)

def pl91 : Plan := (planOf s91 3 r91 .loadWeight)

def r92 : Record :=
  recOf [(0,0,8,0x1),(8,0,4,0x1),(9,0,4,0x0),(10,0,1,0x0),(11,0,8,0x0),(12,0,26,0x0),(16,0,32,0x40),(20,0,9,0x3)]

def s92 : State := (st r92)

def pl92 : Plan := (planOf s92 3 r92 .loadAcc)

/-- States that meet the hypotheses of each clause of `Obligations.LoadsFillTileAndAccumulator`. -/
theorem witness_LoadsFillTileAndAccumulator :
    (∃ s : State, ∃ a : Fin 512, ∃ run : StepRun, ∃ r : Record, ∃ pl : Plan, ∃ fmt : Nat, ∃ sp : Nat, ∃ k : Nat,
        ∃ nst : Nat, ∃ mlen : Nat,
        s.Fetches a run r .loadWeight pl ∧ (s.arr a).shadowFresh = false ∧ fmt = Rf r 9 0 4 ∧ sp = Rf r 9 4 2 ∧ k =
          wDenseK (wClass fmt (Rf r 9 6 1 == 1)) sp ∧
          (nst = (if sp = 0 then k else if sp = 1 then k / 2 else k / 4)) ∧
          (mlen = (if sp = 0 then 0 else k / 4 * (if sp = 1 then 128 else 64))) ∧ s.RowsOk a (Rf r 12 0 26)
          (Rf r 16 0 32) nst (32 * fmtWidth fmt) ∧ (sp ≠ 0 → s.ownOk a (Rf r 20 0 26) (Rf r 20 0 26 + mlen) = true)
          ∧ (isMx fmt = true → s.ownOk a (Rf r 24 0 26) (Rf r 24 0 26 + k / 32 * 256) = true)) ∧
    (∃ s : State, ∃ a : Fin 512, ∃ run : StepRun, ∃ r : Record, ∃ pl : Plan,
        s.Fetches a run r .loadAcc pl ∧ Rf r 11 0 8 + Rf r 20 0 9 ≤ accRows (fmtTag (Rf r 9 0 4)) ∧ s.RowsOk a
          (Rf r 12 0 26) (Rf r 16 0 32) (Rf r 20 0 9) (32 * fmtWidth (Rf r 9 0 4))) :=
  ⟨⟨s91, 3, run3, r91, pl91, (Rf r91 9 0 4), (Rf r91 9 4 2), 256, 256,
       (if (Rf r91 9 4 2) = 0 then 0 else 256 / 4 * (if (Rf r91 9 4 2) = 1 then 128 else 64)), by decide +kernel,
       by decide +kernel, by decide +kernel, by decide +kernel, by decide +kernel, by decide +kernel,
       by decide +kernel, by decide +kernel, by decide +kernel, by decide +kernel⟩,
   ⟨s92, 3, run3, r92, pl92, by decide +kernel, by decide +kernel, by decide +kernel⟩⟩

end Sys2Proof.Tests.LoadsFillTileAndAccumulator

namespace Sys2Proof.Tests.CopiesAndStores

def fill (s : State) : State :=
  { s with
      arrays := mset s.arrays 3 { s.arr 3 with
          accA := {
              tag := .fp32,
              rows := [(0, List.replicate 256 1), (1, List.replicate 256 2), (2, List.replicate 256 3)] },
          accB := { tag := .int32, rows := [(5, List.replicate 256 4)] } } }

def st (r : Record) : State := fill (atRec r)

def r93 : Record := recOf [(0,0,8,0x1),(8,0,4,0x2),(12,0,26,0x8000),(16,0,32,0x1008),(24,0,42,0xc000100)]

def s93 : State := (put [(F.arrFlags_inexact,3,1),(F.arrFlags_satCount,3,7)] (st r93))

def pl93 : Plan := (planOf s93 3 r93 .loadCopy)

def r94 : Record := recOf [(0,0,8,0x1),(8,0,4,0x2),(12,0,26,0x8000),(16,0,32,0x8),(24,0,42,0x20000100)]

def s94 : State := (put [(F.arrFlags_inexact,3,1),(F.arrFlags_satCount,3,7)] (st r94))

def pl94 : Plan := (planOf s94 3 r94 .loadCopy)

def r95 : Record := recOf [(0,0,8,0x2),(8,0,4,0x1),(12,0,26,0x0),(16,0,32,0x258),(24,0,42,0x280c008ff8)]

def s95 : State := (put [(F.arrFlags_inexact,3,1),(F.arrFlags_satCount,3,7)] (st r95))

def pl95 : Plan := (planOf s95 3 r95 .storeCopy)

def r96 : Record := recOf [(0,0,8,0x2),(8,0,4,0x1),(12,0,26,0x0),(16,0,32,0x258),(24,0,42,0x22820008ff8)]

def s96 : State := (put [(F.arrFlags_inexact,3,1),(F.arrFlags_satCount,3,7)] (st r96))

def pl96 : Plan := (planOf s96 3 r96 .storeCopy)

def r97 : Record :=
  recOf [(0, 0, 8, 0x2), (8, 0, 4, 0x0), (10, 0, 1, 0x1), (11, 0, 8, 0x1), (12, 0, 9, 0x1), (16, 0, 32, 0x40),
      (20, 0, 16, 0x2), (24, 0, 42, 0xc008fc0), (32, 0, 32, 0x1)]

def s97 : State := (st r97)

def pl97 : Plan := (planOf s97 3 r97 .storeAcc)

def c97 : Ccw := (ccwAt (Rf r97 20 0 16))

def rows97 : List (List Byte) :=
  (List.range (Rf r97 12 0 9)).map (fun i => packElems (fmtWidth c97.fmt) ((List.range 256).map (fun e => (convertTo
                    c97 c97.md (if c97.md = .sr then laneDraw (Rf r97 32 0 32) e i else 0) (elemVal
                        (accTagFmt (s97.half 3 (Rf r97 10 0 1)).tag)
                        (((s97.half 3 (Rf r97 10 0 1)).row (Rf r97 11 0 8 + i)).getD e 0) 127)).1)))

def r98 : Record :=
  recOf [(0, 0, 8, 0x2), (8, 0, 4, 0x0), (10, 0, 1, 0x1), (11, 0, 8, 0x1), (12, 0, 9, 0x1), (16, 0, 32, 0x40),
      (20, 0, 16, 0x2), (24, 0, 42, 0x20008fc0), (32, 0, 32, 0x1)]

def s98 : State := (st r98)

def pl98 : Plan := (planOf s98 3 r98 .storeAcc)

def c98 : Ccw := (ccwAt (Rf r98 20 0 16))

def rows98 : List (List Byte) :=
  (List.range (Rf r98 12 0 9)).map (fun i => packElems (fmtWidth c98.fmt) ((List.range 256).map (fun e => (convertTo
                    c98 c98.md (if c98.md = .sr then laneDraw (Rf r98 32 0 32) e i else 0) (elemVal
                        (accTagFmt (s98.half 3 (Rf r98 10 0 1)).tag)
                        (((s98.half 3 (Rf r98 10 0 1)).row (Rf r98 11 0 8 + i)).getD e 0) 127)).1)))

def r99 : Record := recOf [(0,0,8,0x2),(8,0,4,0x2),(9,0,1,0x0),(12,0,26,0x8004)]

def s99 : State := (put [(F.arrFlags_inexact,3,1),(F.arrFlags_satCount,3,7)] (st r99))

def pl99 : Plan := (planOf s99 3 r99 .storeFlags)

/-- States that meet the hypotheses of each clause of `Obligations.CopiesAndStores`. -/
theorem witness_CopiesAndStores :
    (∃ s : State, ∃ a : Fin 512, ∃ run : StepRun, ∃ r : Record, ∃ pl : Plan, ∃ d : GAddr,
        d = gaddrOf (Rf r 24 0 64) ∧ s.Fetches a run r .loadCopy pl ∧ d.array = a ∧ s.ownOk a (Rf r 12 0 26)
          (Rf r 12 0 26 + Rf r 16 0 32) = true ∧ s.ownOk a d.off (d.off + Rf r 16 0 32) = true) ∧
    (∃ s : State, ∃ a : Fin 512, ∃ run : StepRun, ∃ r : Record, ∃ pl : Plan, ∃ d : GAddr,
        d = gaddrOf (Rf r 24 0 64) ∧ s.Fetches a run r .loadCopy pl ∧ d.array ≠ a ∧ s.arrVacant d.array = false ∧
          s.ownOk a (Rf r 12 0 26) (Rf r 12 0 26 + Rf r 16 0 32) = true) ∧
    (∃ s : State, ∃ a : Fin 512, ∃ run : StepRun, ∃ r : Record, ∃ pl : Plan, ∃ d : GAddr,
        d = gaddrOf (Rf r 24 0 64) ∧ s.Fetches a run r .storeCopy pl ∧ s.ownOk a (Rf r 12 0 26)
          (Rf r 12 0 26 + Rf r 16 0 32) = true ∧ d.array = a ∧ d.ctrEn = false ∧ s.ownOk a d.off
          (d.off + Rf r 16 0 32) = true ∧ s.PacketsOk a d.off (s.own a (Rf r 12 0 26) (Rf r 16 0 32))) ∧
    (∃ s : State, ∃ a : Fin 512, ∃ run : StepRun, ∃ r : Record, ∃ pl : Plan, ∃ d : GAddr,
        d = gaddrOf (Rf r 24 0 64) ∧ s.Fetches a run r .storeCopy pl ∧ s.ownOk a (Rf r 12 0 26)
          (Rf r 12 0 26 + Rf r 16 0 32) = true ∧ d.array ≠ a ∧ s.arrVacant d.array = false) ∧
    (∃ s : State, ∃ a : Fin 512, ∃ run : StepRun, ∃ r : Record, ∃ pl : Plan, ∃ d : GAddr, ∃ c : Ccw,
        ∃ rows : List (List Byte),
        d = gaddrOf (Rf r 24 0 64) ∧ s.Fetches a run r .storeAcc pl ∧ ccwOf (Rf r 20 0 16) = some c ∧ Rf r 11 0 8 +
          Rf r 12 0 9 ≤ accRows (s.half a (Rf r 10 0 1)).tag ∧ (rows = (List.range (Rf r 12 0 9)).map (fun i =>
                  packElems (fmtWidth c.fmt) ((List.range 256).map (fun e => (convertTo c c.md
                              (if c.md = .sr then laneDraw (Rf r 32 0 32) e i else 0) (elemVal
                                  (accTagFmt (s.half a (Rf r 10 0 1)).tag)
                                  (((s.half a (Rf r 10 0 1)).row (Rf r 11 0 8 + i)).getD e 0) 127)).1)))) ∧ d.array
          = a ∧ d.ctrEn = false ∧ s.RowsOk a d.off (Rf r 16 0 32) (Rf r 12 0 9) (32 * fmtWidth c.fmt) ∧
          (∀ q ∈ rows.zipIdx, s.PacketsOk a (d.off + q.2 * Rf r 16 0 32) q.1)) ∧
    (∃ s : State, ∃ a : Fin 512, ∃ run : StepRun, ∃ r : Record, ∃ pl : Plan, ∃ d : GAddr, ∃ c : Ccw,
        ∃ rows : List (List Byte),
        d = gaddrOf (Rf r 24 0 64) ∧ s.Fetches a run r .storeAcc pl ∧ ccwOf (Rf r 20 0 16) = some c ∧ Rf r 11 0 8 +
          Rf r 12 0 9 ≤ accRows (s.half a (Rf r 10 0 1)).tag ∧ (rows = (List.range (Rf r 12 0 9)).map (fun i =>
                  packElems (fmtWidth c.fmt) ((List.range 256).map (fun e => (convertTo c c.md
                              (if c.md = .sr then laneDraw (Rf r 32 0 32) e i else 0) (elemVal
                                  (accTagFmt (s.half a (Rf r 10 0 1)).tag)
                                  (((s.half a (Rf r 10 0 1)).row (Rf r 11 0 8 + i)).getD e 0) 127)).1)))) ∧ d.array
          ≠ a ∧ s.arrVacant d.array = false) ∧
    (∃ s : State, ∃ a : Fin 512, ∃ run : StepRun, ∃ r : Record, ∃ pl : Plan, ∃ d : GAddr,
        d = gaddrOf (Rf r 24 0 64) ∧ s.Fetches a run r .storeFlags pl ∧ s.ownOk a (Rf r 12 0 26) (Rf r 12 0 26 + 4)
          = true) :=
  ⟨⟨s93, 3, run3, r93, pl93, (gaddrOf (Rf r93 24 0 64)), rfl, by decide +kernel, by decide +kernel,
       by decide +kernel, by decide +kernel⟩,
   ⟨s94, 3, run3, r94, pl94, (gaddrOf (Rf r94 24 0 64)), rfl, by decide +kernel, by decide +kernel,
       by decide +kernel, by decide +kernel⟩,
   ⟨s95, 3, run3, r95, pl95, (gaddrOf (Rf r95 24 0 64)), rfl, by decide +kernel, by decide +kernel,
       by decide +kernel, by decide +kernel, by decide +kernel, by decide +kernel⟩,
   ⟨s96, 3, run3, r96, pl96, (gaddrOf (Rf r96 24 0 64)), rfl, by decide +kernel, by decide +kernel,
       by decide +kernel, by decide +kernel⟩,
   ⟨s97, 3, run3, r97, pl97, (gaddrOf (Rf r97 24 0 64)), c97, rows97, rfl, by decide +kernel, by decide +kernel,
       by decide +kernel, rfl, by decide +kernel, by decide +kernel, by decide +kernel, by decide +kernel⟩,
   ⟨s98, 3, run3, r98, pl98, (gaddrOf (Rf r98 24 0 64)), c98, rows98, rfl, by decide +kernel, by decide +kernel,
       by decide +kernel, rfl, by decide +kernel, by decide +kernel⟩,
   ⟨s99, 3, run3, r99, pl99, (gaddrOf (Rf r99 24 0 64)), rfl, by decide +kernel, by decide +kernel⟩⟩

end Sys2Proof.Tests.CopiesAndStores

namespace Sys2Proof.Tests.GateRoutesTokens

def fill (s : State) : State :=
  { s with
      arrays := mset s.arrays 3 { s.arr 3 with
          accA := {
              tag := .fp32,
              rows := [(0, List.replicate 256 1), (1, List.replicate 256 2), (2, List.replicate 256 3)] },
          accB := { tag := .int32, rows := [(5, List.replicate 256 4)] } } }

def st (r : Record) : State := fill (atRec r)

def gateStart (s : State) (a : Fin 512) (run : StepRun) (r : Record) (pl : Plan) : Prop :=
  s.Fetches a run r .gate pl ∧ s.OpndOk a (Rf r 8 0 32) 1 (ceilDiv (4 * gateExperts r) 64 * 64) (gateTokens r)
    (gateExperts r) ∧ (Rf r 14 7 1 = 1 → s.ownOk a (Rf r 20 0 26) (Rf r 20 0 26 + 4 * gateExperts r) = true) ∧
    s.ownOk a (Rf r 24 0 26) (Rf r 24 0 26 + 8 * gateTokens r * Rf r 14 0 4) = true ∧ s.ownOk a (Rf r 28 0 26)
    (Rf r 28 0 26 + 2112) = true

theorem gateStart_of { s : State } { a : Fin 512 } { run : StepRun } { r : Record } { pl : Plan }
    (h : s.Fetches a run r .gate pl)
    (o : @decide _
            (opndDec s a (Rf r 8 0 32) 1 (ceilDiv (4 * gateExperts r) 64 * 64) (gateTokens r) (gateExperts r)) =
            true)
    (b : Rf r 14 7 1 = 1 → s.ownOk a (Rf r 20 0 26) (Rf r 20 0 26 + 4 * gateExperts r) = true)
    (c : s.ownOk a (Rf r 24 0 26) (Rf r 24 0 26 + 8 * gateTokens r * Rf r 14 0 4) = true)
    (d : s.ownOk a (Rf r 28 0 26) (Rf r 28 0 26 + 2112) = true) : gateStart s a run r pl := ⟨h, opnd_of o, b, c, d⟩

def gateRec : Record :=
  recOf [(0, 0, 8, 0x12), (8, 0, 32, 0x80000000), (12, 0, 8, 0x2), (13, 0, 8, 0x4), (14, 0, 4, 0x2),
      (14, 4, 1, 0x0), (14, 5, 1, 0x0), (14, 6, 1, 0x1), (14, 7, 1, 0x1), (15, 0, 8, 0xff), (16, 0, 16, 0x1),
      (18, 0, 16, 0x1), (20, 0, 26, 0x2000), (24, 0, 26, 0x8000), (28, 0, 26, 0x9000), (32, 0, 256, 2 ^ 256 - 1)]

def gateState : State := st gateRec

def gatePlan : Plan := planOf gateState 3 gateRec .gate

/-- States that meet the hypotheses of each clause of `Obligations.GateRoutesTokens`. -/
theorem witness_GateRoutesTokens :
    ∃ s : State, ∃ a : Fin 512, ∃ run : StepRun, ∃ r : Record, ∃ pl : Plan, gateStart s a run r pl :=
  ⟨gateState, 3, run3, gateRec, gatePlan,
       gateStart_of (by decide +kernel) (by decide +kernel) (by decide +kernel) (by decide +kernel)
         (by decide +kernel)⟩

end Sys2Proof.Tests.GateRoutesTokens

namespace Sys2Proof.Tests.ScatterAndReturnSendRows

def poke (s : State) (a : Nat) (b : List Byte) : State := { s with mem := Memory.tileWrite s.mem 1 a b }

def fill (s : State) : State :=
  { s with
      arrays := mset s.arrays 3 { s.arr 3 with
          accA := {
              tag := .fp32,
              rows := [(0, List.replicate 256 1), (1, List.replicate 256 2), (2, List.replicate 256 3)] },
          accB := { tag := .int32, rows := [(5, List.replicate 256 4)] } } }

def st (r : Record) : State := fill (atRec r)

def idx (s : State) : State := poke s 0xa000 [1,0,0,0,0,0,0,0,7,0,0,0]

def tags (s : State) : State :=
  poke (poke s 0xa000 [2, 0, 0, 0, 5, 0, 0, 0]) 0xc000 ((List.range 6).flatMap (fun i => leBytes 8
            (i * 2 + 65536 * (i + 3) + 0x3f800000 * 2^32 + (if i = 1 then 0x4049_0fdb * 2^31 else 0))))

def r101 : Record :=
  recOf [(0, 0, 8, 0x21), (8, 0, 26, 0x0), (12, 0, 32, 0x8), (16, 0, 26, 0xa000), (20, 0, 32, 0x1),
      (24, 0, 42, 0x282000b000), (32, 0, 32, 0x40), (36, 0, 16, 0x40), (38, 0, 8, 0x0)]

def s101 : State := (idx (st r101))

def pl101 : Plan := (planOf s101 3 r101 .scatter)

def r102 : Record :=
  recOf [(0, 0, 8, 0x21), (8, 0, 26, 0x0), (12, 0, 32, 0x40), (16, 0, 26, 0xa000), (20, 0, 32, 0x1),
      (24, 0, 42, 0x280c00b000), (32, 0, 32, 0x40), (36, 0, 16, 0x40), (38, 0, 8, 0x0)]

def s102 : State := (idx (st r102))

def pl102 : Plan := (planOf s102 3 r102 .scatter)

def r103 : Record :=
  recOf [(0, 0, 8, 0x25), (8, 0, 8, 0x1), (9, 0, 8, 0x2), (11, 0, 6, 0x5), (12, 0, 26, 0xc000), (16, 0, 26, 0x2000),
      (20, 0, 16, 0x40), (22, 0, 16, 0x1), (24, 0, 26, 0xa000), (28, 0, 16, 0x3), (30, 0, 16, 0x1),
      (32, 0, 32, 0x4d)]

def s103 : State := (tags (st r103))

def pl103 : Plan := (planOf s103 3 r103 .dispatchReturn)

def c103 : Ccw := (ccwAt (Rf r103 30 0 16))

/-- States that meet the hypotheses of each clause of `Obligations.ScatterAndReturnSendRows`. -/
theorem witness_ScatterAndReturnSendRows :
    (∃ p, ∃ s : State, ∃ a : Fin 512, ∃ run : StepRun, ∃ r : Record, ∃ pl : Plan, ∃ d : GAddr,
        p ∈ scatterCommands ∧ d = gaddrOf (Rf r 24 0 64) ∧ s.Fetches a run r .scatter pl ∧ Rf r 38 0 8 = p.2 ∧
          s.ScatterOk a r ∧ d.array ≠ a ∧ s.arrVacant d.array = false) ∧
    (∃ p, ∃ s : State, ∃ a : Fin 512, ∃ run : StepRun, ∃ r : Record, ∃ pl : Plan, ∃ d : GAddr,
        p ∈ scatterCommands ∧ d = gaddrOf (Rf r 24 0 64) ∧ s.Fetches a run r .scatter pl ∧ Rf r 38 0 8 = p.2 ∧
          s.ScatterOk a r ∧ d.array = a ∧ d.ctrEn = false ∧
          (∀ i < Rf r 20 0 32, s.ownOk a (s.scatterOff a r i) (s.scatterOff a r i + Rf r 36 0 16) = true)) ∧
    (∃ s : State, ∃ a : Fin 512, ∃ run : StepRun, ∃ r : Record, ∃ pl : Plan, ∃ c : Ccw, ∃ ns : Nat,
        s.Fetches a run r .dispatchReturn pl ∧ ccwOf (Rf r 30 0 16) = some c ∧
          (ns = (if Rf r 9 0 8 = 0 then 256 else Rf r 9 0 8)) ∧ s.ownOk a (Rf r 24 0 26) (Rf r 24 0 26 + 4 * ns) =
          true ∧ s.ReturnOk a r) :=
  ⟨⟨((scatterCommands)[0]'(by decide +kernel)), s101, 3, run3, r101, pl101, (gaddrOf (Rf r101 24 0 64)),
       by decide +kernel, rfl, by decide +kernel, by decide +kernel, by decide +kernel, by decide +kernel,
       by decide +kernel⟩,
   ⟨((scatterCommands)[0]'(by decide +kernel)), s102, 3, run3, r102, pl102, (gaddrOf (Rf r102 24 0 64)),
       by decide +kernel, rfl, by decide +kernel, by decide +kernel, by decide +kernel, by decide +kernel,
       by decide +kernel, by decide +kernel⟩,
   ⟨s103, 3, run3, r103, pl103, c103, (if Rf r103 9 0 8 = 0 then 256 else Rf r103 9 0 8), by decide +kernel,
       by decide +kernel, rfl, by decide +kernel, by decide +kernel⟩⟩

end Sys2Proof.Tests.ScatterAndReturnSendRows

namespace Sys2Proof.Tests.FabricRecordsBegin

def fill (s : State) : State :=
  { s with
      arrays := mset s.arrays 3 { s.arr 3 with
          accA := {
              tag := .fp32,
              rows := [(0, List.replicate 256 1), (1, List.replicate 256 2), (2, List.replicate 256 3)] },
          accB := { tag := .int32, rows := [(5, List.replicate 256 4)] } } }

def st (r : Record) : State := fill (atRec r)

def gatS : List State :=
  [put ((List.range 64).map (fun p => (F.hubState_stackState, p, 1))) (st (recOf [(0, 0, 8, 0x20), (8, 0, 26, 0x0),
                  (12, 0, 32, 0xa), (16, 0, 16, 0x5), (18, 0, 16, 0x4), (20, 0, 42, 0x20000100), (28, 0, 32, 0x40),
                  (32, 0, 16, 0x1), (34, 0, 8, 0x1), (36, 0, 32, 0x9), (40, 0, 64, 0x13)]))]

def redS : List State :=
  [{ (st (recOf [(0, 0, 8, 0x22), (8, 0, 26, 0x0), (12, 0, 32, 0x100), (16, 0, 16, 0x7), (18, 0, 8, 0x0),
                    (20, 0, 42, 0x20000100), (28, 0, 16, 0x1), (32, 0, 26, 0xd000)])) with
          redGroups := [(7, 2^3 + 2^20 + 2^4)] },
      { (st (recOf [(0, 0, 8, 0x22), (8, 0, 26, 0x0), (12, 0, 32, 0x100), (16, 0, 16, 0x7), (18, 0, 8, 0x1),
                    (20, 0, 42, 0x20000100), (28, 0, 16, 0x1), (32, 0, 26, 0xd000)])) with
          redGroups := [(7, 2^3 + 2^20 + 2^4)] },
      { (st (recOf [(0, 0, 8, 0x22), (8, 0, 26, 0x0), (12, 0, 32, 0x100), (16, 0, 16, 0x7), (18, 0, 8, 0x2),
                    (20, 0, 42, 0x20000100), (28, 0, 16, 0x1), (32, 0, 26, 0xd000)])) with
          redGroups := [(7, 2^3 + 2^20 + 2^4)] }]

def sdS : List State :=
  [1, 2, 3, 4, 6].flatMap (fun role => [put [(F.chEp_role, epKey 3 9, role), (F.chEpState_state, epKey 3 9, 1),
              (F.chEp_peerArray, epKey 3 9, 100), (F.chEp_peerEp, epKey 3 9, 4)] (st (recOf
                    [(0, 0, 8, 0x23), (8, 0, 6, 0x9), (12, 0, 26, 0x0), (16, 0, 32, 0x80), (20, 0, 26, 0xd000)])),
          put [(F.chEp_role, epKey 3 9, role), (F.chEpState_state, epKey 3 9, 1)] (st (recOf [(0, 0, 8, 0x24),
                      (8, 0, 6, 0x9), (12, 0, 26, 0x8000), (16, 0, 32, 0x80), (20, 0, 26, 0xd000)]))])

def s104 : State := ((gatS ++ redS ++ sdS)[0]'(by decide +kernel))

def r104 : Record := (BitVec.ofNat 512 (leNat (Memory.tileRead s104.mem 1 0x10000 64)))

def pl104 : Plan := (planOf s104 3 r104 .gather)

def s105 : State := ((gatS ++ redS ++ sdS)[1]'(by decide +kernel))

def r105 : Record := (BitVec.ofNat 512 (leNat (Memory.tileRead s105.mem 1 0x10000 64)))

def pl105 : Plan := (planOf s105 3 r105 .reduce)

def s106 : State := ((gatS ++ redS ++ sdS)[4]'(by decide +kernel))

def r106 : Record := (BitVec.ofNat 512 (leNat (Memory.tileRead s106.mem 1 0x10000 64)))

def pl106 : Plan := (planOf s106 3 r106 .send)

def s107 : State := ((gatS ++ redS ++ sdS)[9]'(by decide +kernel))

def r107 : Record := (BitVec.ofNat 512 (leNat (Memory.tileRead s107.mem 1 0x10000 64)))

def pl107 : Plan := (planOf s107 3 r107 .recv)

/-- States that meet the hypotheses of each clause of `Obligations.FabricRecordsBegin`. -/
theorem witness_FabricRecordsBegin :
    (∃ s : State, ∃ a : Fin 512, ∃ run : StepRun, ∃ r : Record, ∃ pl : Plan,
        s.Fetches a run r .gather pl ∧ Rf r 40 0 64 ≠ 0 ∧ (∀ h ∈ maskList (Rf r 40 0 64) 64, s.hubOut h = false) ∧
          s.arrVacant (gaddrOf (Rf r 20 0 64)).array = false ∧ s.ownOk a (Rf r 8 0 26)
          (Rf r 8 0 26 + 8 * Rf r 12 0 32) = true ∧ ((s.gathers.filter (fun g => g.2.array == a.val)).length < 4)) ∧
    (∃ s : State, ∃ a : Fin 512, ∃ run : StepRun, ∃ r : Record, ∃ pl : Plan, ∃ p, ∃ m,
        p ∈ reduceCommands ∧ s.Fetches a run r .reduce pl ∧ Rf r 18 0 8 = p.2 ∧
          (mget s.redGroups (Rf r 16 0 16) 0).testBit a = true ∧ s.arrVacant (gaddrOf (Rf r 20 0 64)).array = false
          ∧ s.ownOk a (Rf r 8 0 26) (Rf r 8 0 26 + Rf r 12 0 32) = true ∧ mfind s.rounds (Rf r 16 0 16) = none ∧
          a.val ∈ s.redAlive (Rf r 16 0 16) ∧ m ∈ s.redAlive (Rf r 16 0 16) ∧ m ≠ a) ∧
    (∃ s : State, ∃ a : Fin 512, ∃ run : StepRun, ∃ r : Record, ∃ pl : Plan,
        s.ownOk a (Rf r 20 0 26) (Rf r 20 0 26 + 8) = true ∧ s.epOpen a (Rf r 8 0 6) = true ∧ s.Fetches a run r
          .send pl ∧ (s.epRole a (Rf r 8 0 6) = 1 ∨ s.epRole a (Rf r 8 0 6) = 2) ∧ s.fieldBind a (Rf r 8 0 6) = none
          ∧ s.linkBind a (Rf r 8 0 6) = none ∧ (s.ep a (Rf r 8 0 6)).queried = false ∧ s.arrVacant
          (s.epPeer a (Rf r 8 0 6)).1 = false ∧ s.ownOk a (Rf r 12 0 26) (Rf r 12 0 26 + Rf r 16 0 32) = true) ∧
    (∃ s : State, ∃ a : Fin 512, ∃ run : StepRun, ∃ r : Record, ∃ pl : Plan,
        s.ownOk a (Rf r 20 0 26) (Rf r 20 0 26 + 8) = true ∧ s.epOpen a (Rf r 8 0 6) = true ∧ s.Fetches a run r
          .recv pl ∧ roleReceives (s.epRole a (Rf r 8 0 6)) = true) :=
  ⟨⟨s104, 3, run3, r104, pl104, by decide +kernel, by decide +kernel, by decide +kernel, by decide +kernel,
       by decide +kernel, by decide +kernel⟩,
   ⟨s105, 3, run3, r105, pl105, ((reduceCommands)[0]'(by decide +kernel)), 4, by decide +kernel, by decide +kernel,
       by decide +kernel, by decide +kernel, by decide +kernel, by decide +kernel, by decide +kernel,
       by decide +kernel, by decide +kernel, by decide +kernel⟩,
   ⟨s106, 3, run3, r106, pl106, by decide +kernel, by decide +kernel, by decide +kernel, by decide +kernel,
       by decide +kernel, by decide +kernel, by decide +kernel, by decide +kernel, by decide +kernel⟩,
   ⟨s107, 3, run3, r107, pl107, by decide +kernel, by decide +kernel, by decide +kernel, by decide +kernel⟩⟩

end Sys2Proof.Tests.FabricRecordsBegin

namespace Sys2Proof.Tests.SignalAndCommit

def fill (s : State) : State :=
  { s with
      arrays := mset s.arrays 3 { s.arr 3 with
          accA := {
              tag := .fp32,
              rows := [(0, List.replicate 256 1), (1, List.replicate 256 2), (2, List.replicate 256 3)] },
          accB := { tag := .int32, rows := [(5, List.replicate 256 4)] } } }

def st (r : Record) : State := fill (atRec r)

def r108 : Record := recOf [(0,0,8,0x31),(9,0,1,0x0),(10,0,9,0x3),(11,1,6,0x5),(12,0,32,0x9)]

def s108 : State := { (st r108) with mcast := [(300, 2^7 + 2^511)] }

def pl108 : Plan := (planOf s108 3 r108 .signal)

def r109 : Record := recOf [(0,0,8,0x31),(9,0,1,0x0),(10,0,9,0x28),(11,1,6,0x5),(12,0,32,0x9)]

def s109 : State := { (st r109) with mcast := [(300, 2^7 + 2^511)] }

def pl109 : Plan := (planOf s109 3 r109 .signal)

def r110 : Record := recOf [(0,0,8,0x31),(9,0,1,0x1),(10,0,9,0x12c),(11,1,6,0x3f),(12,0,32,0x9)]

def s110 : State := { (st r110) with mcast := [(300, 2^7 + 2^511)] }

def pl110 : Plan := (planOf s110 3 r110 .signal)

def r111 : Record :=
  recOf [(0, 0, 8, 0x3e), (8, 0, 9, 0x0), (10, 7, 1, 0x0), (11, 0, 8, 0x2), (16, 0, 26, 0x0), (20, 0, 32, 0x10),
      (24, 0, 42, 0x20000100), (32, 0, 26, 0x2000), (36, 0, 32, 0x8), (40, 0, 42, 0x21824000ff8)]

def s111 : State := { (st r111) with mcast := [(300, 2^7 + 2^511)] }

def pl111 : Plan := (planOf s111 3 r111 .commit)

def r112 : Record :=
  recOf [(0, 0, 8, 0x3e), (8, 0, 9, 0x4d), (10, 0, 6, 0x1f), (10, 7, 1, 0x1), (11, 0, 8, 0x3), (16, 0, 26, 0x0),
      (20, 0, 32, 0x10), (24, 0, 42, 0x20000100), (32, 0, 26, 0x2000), (36, 0, 32, 0x8), (40, 0, 42, 0x21824000ff8),
      (48, 0, 26, 0x2000), (52, 0, 32, 0x8), (56, 0, 42, 0x21824000ff8)]

def s112 : State := { (st r112) with mcast := [(300, 2^7 + 2^511)] }

def pl112 : Plan := (planOf s112 3 r112 .commit)

/-- States that meet the hypotheses of each clause of `Obligations.SignalAndCommit`. -/
theorem witness_SignalAndCommit :
    (∃ s : State, ∃ a : Fin 512, ∃ run : StepRun, ∃ r : Record, ∃ pl : Plan,
        s.Fetches a run r .signal pl ∧ Rf r 9 0 1 = 0 ∧ Rf r 10 0 9 = a ∧ s.rd F.tmCtr_value (a * 64 + Rf r 11 1 6)
          + Rf r 12 0 32 < 2 ^ 32 - 1) ∧
    (∃ s : State, ∃ a : Fin 512, ∃ run : StepRun, ∃ r : Record, ∃ pl : Plan,
        s.Fetches a run r .signal pl ∧ Rf r 9 0 1 = 0 ∧ Rf r 10 0 9 ≠ a ∧ s.arrVacant (Rf r 10 0 9) = false) ∧
    (∃ s : State, ∃ a : Fin 512, ∃ run : StepRun, ∃ r : Record, ∃ pl : Plan, ∃ ms,
        s.Fetches a run r .signal pl ∧ Rf r 9 0 1 = 1 ∧ ms = maskList (mget s.mcast (Rf r 10 0 9) 0) 512 ∧ ms ≠ [] ∧
          (∀ m ∈ ms, m ≠ a.val ∧ s.arrVacant m = false)) ∧
    (∃ s : State, ∃ a : Fin 512, ∃ run : StepRun, ∃ r : Record, ∃ pl : Plan,
        s.Fetches a run r .commit pl ∧ Rf r 10 7 1 = 0 ∧ (∀ i < Rf r 11 0 8,
            s.ownOk a (Rf r (16 + 16 * i) 0 26) (Rf r (16 + 16 * i) 0 26 + Rf r (20 + 16 * i) 0 32) = true ∧
              (gaddrOf (Rf r (24 + 16 * i) 0 64)).array ≠ a ∧ s.arrVacant (gaddrOf (Rf r (24 + 16 * i) 0 64)).array
              = false)) ∧
    (∃ s : State, ∃ a : Fin 512, ∃ run : StepRun, ∃ r : Record, ∃ pl : Plan,
        s.Fetches a run r .commit pl ∧ Rf r 10 7 1 = 1 ∧ s.arrVacant (Rf r 8 0 9) = false) :=
  ⟨⟨s108, 3, run3, r108, pl108, by decide +kernel, by decide +kernel, by decide +kernel, by decide +kernel⟩,
   ⟨s109, 3, run3, r109, pl109, by decide +kernel, by decide +kernel, by decide +kernel, by decide +kernel⟩,
   ⟨s110, 3, run3, r110, pl110, [7, 511], by decide +kernel, by decide +kernel, by decide +kernel,
       by decide +kernel, by decide +kernel⟩,
   ⟨s111, 3, run3, r111, pl111, by decide +kernel, by decide +kernel, by decide +kernel⟩,
   ⟨s112, 3, run3, r112, pl112, by decide +kernel, by decide +kernel, by decide +kernel⟩⟩

end Sys2Proof.Tests.SignalAndCommit

namespace Sys2Proof.Tests.RegisterWritesStoreOrCount

def pl (r : Reg) : Bool :=
  !([Reg.arrFlags, .tmRgn, .pckTblCmd, .fabGrpCmd, .fabPin, .chEp, .chEpState, .admSrc, .fldFifo, .fldKeyStage,
          .fldKeyCmd, .lnkPort, .lnkBind, .clkCfg, .clkMarginCfg, .clkCmd, .rngEvtBase, .rngEvtCfg, .rngFrxBase,
          .rngFrxCfg, .rngSqBase, .rngSqCfg, .rngCqBase, .rngCqCfg, .prtMap, .prtCmd, .prtHalf, .prtArrRst,
          .prtPackRst, .prtPanelRst, .fltFence, .fltSwap, .fltPackCmd, .fltFwCmd, .pwrAlertMask, .pwrPack, .thmCfg,
          .monSitCmd, .monRoCmd].contains r)

def shut : State := put [(F.idnState_panelState,0,0)] ready

/-- States that meet the hypotheses of each clause of `Obligations.RegisterWritesStoreOrCount`. -/
theorem witness_RegisterWritesStoreOrCount :
    (∃ s : State, ∃ port : Fin 2, ∃ a : Fin 512, ∃ w : Fin 4, ∃ p : Fin 64, ∃ n : Fin 8, ∃ j : Fin 256,
        ∃ v : BitVec 64, ∃ c, c ∈ unitWrites port a w p n j v ∧ s.barUp port = false) ∧
    (∃ s : State, ∃ port : Fin 2, ∃ a : Fin 512, ∃ w : Fin 4, ∃ p : Fin 64, ∃ n : Fin 8, ∃ j : Fin 256,
        ∃ v : BitVec 64, ∃ c, c ∈ unitWrites port a w p n j v ∧ s.barUp port = true ∧ s.barShut port .unit = true) ∧
    (∃ s : State, ∃ port : Fin 2, ∃ offset : BitVec 26, ∃ v : BitVec 64, ∃ r : Reg, ∃ i : Nat,
        s.Open port (useOf offset.toNat) ∧ regAt port offset.toNat = some (r, i, 0) ∧ Plain r ∧ isBase r = false ∧
          Legal r v.toNat ∧ s.windowShut offset.toNat = false ∧ inMsix offset.toNat = false ∧ s.accessOk port
          offset.toNat (regPlace r).bytes = true) ∧
    (∃ s : State, ∃ port : Fin 2, ∃ offset : BitVec 26, ∃ width,
        s.Open port (useOf offset.toNat) ∧ s.accessOk port offset.toNat width = false) :=
  ⟨⟨State.reset, 0, 3, 1, 5, 2, 9, 0, ((unitWrites 0 3 1 5 2 9 0)[0]'(by decide +kernel)), by decide +kernel⟩,
   ⟨shut, 0, 3, 1, 5, 2, 9, 0, ((unitWrites 0 3 1 5 2 9 0)[0]'(by decide +kernel)), by decide +kernel⟩,
   ⟨ready, 0, 0x94010, 0,
       (((match regAt 0 0x94010 with | some (r, _, _) => if pl r then [r] else [] | none => []))[0]'(by decide +kernel)),
       (((match regAt 0 0x94010 with | some (_, i, _) => [i] | none => []))[0]'(by decide +kernel)),
       by decide +kernel, by decide +kernel, fun _ _ _ _ _ => rfl, by decide +kernel, by decide +kernel,
       by decide +kernel, by decide +kernel, by decide +kernel⟩,
   ⟨ready, 0, 0x12c8088, 2, by decide +kernel⟩⟩

end Sys2Proof.Tests.RegisterWritesStoreOrCount

namespace Sys2Proof.Tests.RingPartitionEndpointRegisters

def rsq (l : List (Fld × Nat × Nat)) : State := put l ready

def memb : State :=
  { ready with arrays := [(20*8+3, { member := some (1, 1)})], regions := [(1, { members := 2^163, serial := 1})] }

def ep (l : List (Fld × Nat × Nat)) : State := put l ready

/-- States that meet the hypotheses of each clause of `Obligations.RingPartitionEndpointRegisters`. -/
theorem witness_RingPartitionEndpointRegisters :
    (∃ s : State, ∃ port : Fin 2, ∃ v : BitVec 64, ∃ q : Fin 256,
        s.Open port .host ∧ Legal .rngSqCfg v.toNat ∧ s.rd F.rngSqCfg_en (sqI port q) = 0 ∧ s.rd
          F.rngSqStat_inflight (sqI port q) = 0) ∧
    (∃ s : State, ∃ port : Fin 2, ∃ v : BitVec 64, ∃ q : Fin 256,
        s.Open port .host ∧ s.rd F.rngSqCfg_en (sqI port q) = 1 ∧ Legal .rngSqCfg v.toNat ∧ F.rngSqCfg_log2Size.of
          v.toNat ≠ s.rd F.rngSqCfg_log2Size (sqI port q)) ∧
    (∃ s : State, ∃ port : Fin 2, ∃ v : BitVec 64, ∃ c : Fin 128,
        s.Open port .host ∧ Legal .rngCqCfg v.toNat ∧ s.rd F.rngCqCfg_en (cqI port c) = 0) ∧
    (∃ s : State, ∃ port : Fin 2, ∃ w : Fin 4,
        s.Open port .unit ∧ (∀ k < 16, ∀ a ∈ packArrays (16 * w + k), s.isMember a = false)) ∧
    (∃ s : State, ∃ port : Fin 2, ∃ v : BitVec 64, ∃ w : Fin 4, ∃ k : Nat, ∃ a : Nat,
        s.Open port .unit ∧ k < 16 ∧ a ∈ packArrays (16 * w + k) ∧ s.isMember a = true ∧ bitsAt
          (s.rd F.prtMap_part w) (4 * k) 4 ≠ bitsAt v.toNat (4 * k) 4) ∧
    (∃ s : State, ∃ port : Fin 2, ∃ a : Fin 512, ∃ n : Fin 64, ∃ v : BitVec 64,
        s.Open port .unit ∧ s.arrVacant a = false ∧ s.chEpBad a n v.toNat = false ∧ F.chEp_role.of v.toNat ≠ 7) ∧
    (∃ s : State, ∃ port : Fin 2, ∃ a : Fin 512, ∃ n : Fin 64, ∃ v : BitVec 64,
        s.Open port .unit ∧ s.arrVacant a = false ∧ F.chEp_role.of v.toNat = 7 ∧ s.chEpBad a n
          (v.toNat - 7 + s.epRole a n) = false) ∧
    (∃ s : State, ∃ port : Fin 2, ∃ a : Fin 512, ∃ n : Fin 64,
        s.Open port .unit ∧ s.arrVacant a = false ∧ (s.epOpen a n = true ∨ s.isMember a = true)) ∧
    (∃ s : State, ∃ port : Fin 2, ∃ a : Fin 512, ∃ n : Fin 64,
        s.Open port .unit ∧ s.arrVacant a = false ∧ s.epOpen a n = false ∧ s.epRole a n ≠ 0 ∧ s.epRole a n ≠ 7) ∧
    (∃ s : State, ∃ port : Fin 2, ∃ a : Fin 512, ∃ n : Fin 64,
        s.Open port .unit ∧ s.arrVacant a = false ∧ s.epOpen a n = true ∧ s.epRole a n ∈ [1, 2] ∧ s.recvWaiting a n
          = none) :=
  ⟨⟨ready, 0, 0x1111111111111111, 0, by decide +kernel⟩,
   ⟨(rsq [(F.rngSqCfg_en, 0, 1), (F.rngSqCfg_log2Size, 0, 5), (F.rngCqCfg_en, 128, 1)]), 0, 0x1111111111111111, 0,
       by decide +kernel⟩,
   ⟨ready, 0, 0x1111111111111111, 0, by decide +kernel⟩,
   ⟨ready, 0, 0, by decide +kernel, fun k hk => of_decide_eq_true (by revert k; decide +kernel)⟩,
   ⟨memb, 0, 0x10000, 1, 4, 163, by decide +kernel⟩,
   ⟨ready, 0, 163, 0, 0, by decide +kernel⟩,
   ⟨(([memb] ++ ([0, 1, 2, 3, 4, 5, 6, 7].flatMap (fun ro => [0, 1].map (fun o => ep [(F.chEp_role, epKey 3 9, ro),
                               (F.chEpState_state, epKey 3 9, o), (F.chEpState_epoch, epKey 3 9, 65535),
                               (F.chEp_peerArray, epKey 3 9, 100),
                               (F.chEp_peerEp, epKey 3 9, 4)]))))[0]'(by decide +kernel)), 0, 3, 0, 7,
       by decide +kernel⟩,
   ⟨memb, 0, 163, 0, by decide +kernel⟩,
   ⟨(([memb] ++ ([0, 1, 2, 3, 4, 5, 6, 7].flatMap (fun ro => [0, 1].map (fun o => ep [(F.chEp_role, epKey 3 9, ro),
                               (F.chEpState_state, epKey 3 9, o), (F.chEpState_epoch, epKey 3 9, 65535),
                               (F.chEp_peerArray, epKey 3 9, 100),
                               (F.chEp_peerEp, epKey 3 9, 4)]))))[3]'(by decide +kernel)), 0, 3, 9,
       by decide +kernel⟩,
   ⟨(([memb] ++ ([0, 1, 2, 3, 4, 5, 6, 7].flatMap (fun ro => [0, 1].map (fun o => ep [(F.chEp_role, epKey 3 9, ro),
                               (F.chEpState_state, epKey 3 9, o), (F.chEpState_epoch, epKey 3 9, 65535),
                               (F.chEp_peerArray, epKey 3 9, 100),
                               (F.chEp_peerEp, epKey 3 9, 4)]))))[4]'(by decide +kernel)), 0, 3, 9,
       by decide +kernel⟩⟩

end Sys2Proof.Tests.RingPartitionEndpointRegisters

namespace Sys2Proof.Tests.ClockPowerLinkRegisters

def lk (l : List (Fld × Nat × Nat)) : State := put l ready

/-- States that meet the hypotheses of each clause of `Obligations.ClockPowerLinkRegisters`. -/
theorem witness_ClockPowerLinkRegisters :
    (∃ s : State, ∃ port : Fin 2, ∃ v : BitVec 64,
        s.Open port .unit ∧ Legal .pwrPack v.toNat ∧ 12 ≤ F.pwrPack_afFloor.of v.toNat ∧ F.pwrPack_afFloor.of
          v.toNat ≤ F.pwrPack_afCeil.of v.toNat ∧ F.pwrPack_afCeil.of v.toNat ≤ 48 ∧ 15 ≤ F.pwrPack_rfFloor.of
          v.toNat ∧ F.pwrPack_rfFloor.of v.toNat ≤ F.pwrPack_rfCeil.of v.toNat ∧ F.pwrPack_rfCeil.of v.toNat ≤ 60 ∧
          20 ≤ F.pwrPack_avFloor.of v.toNat ∧ F.pwrPack_avFloor.of v.toNat ≤ F.pwrPack_avCeil.of v.toNat ∧
          F.pwrPack_avCeil.of v.toNat ≤ 80) ∧
    (∃ s : State, ∃ port : Fin 2, ∃ v : BitVec 32, s.Open port .unit ∧ bitsAt v.toNat 16 10 < bitsAt v.toNat 0 10) ∧
    (∃ s : State, ∃ port : Fin 2, ∃ v : BitVec 32, s.Open port .unit ∧ bitsAt v.toNat 0 10 ≤ bitsAt v.toNat 16 10) ∧
    (∃ s : State, ∃ port : Fin 2, ∃ n : Fin 8, ∃ v : BitVec 64,
        s.Open port .unit ∧ Legal .lnkPort v.toNat ∧ s.portFitted n = true ∧ s.rd F.lnkPort_en n = 0 ∧
          F.lnkPort_en.of v.toNat = 1 ∧ s.lstate n = 0) ∧
    (∃ s : State, ∃ port : Fin 2, ∃ n : Fin 8, ∃ v : BitVec 64,
        s.Open port .unit ∧ Legal .lnkPort v.toNat ∧ s.portFitted n = true ∧ s.rd F.lnkPort_en n = 1 ∧
          F.lnkPort_en.of v.toNat = 0 ∧ s.lstate n ≠ 0) ∧
    (∃ s : State, ∃ port : Fin 2, ∃ n : Fin 8, s.Open port .unit ∧ s.lup n = true) ∧
    (∃ s : State, ∃ port : Fin 2, ∃ v : BitVec 64,
        s.Open port .unit ∧ (F.lnkBind_valid.of v.toNat = 0 ∨ s.fieldBind (F.lnkBind_array.of v.toNat)
              (F.lnkBind_ep.of v.toNat) = none)) ∧
    (∃ s : State, ∃ port : Fin 2, ∃ d : Fin 2, ∃ f : Fin 32, ∃ v : BitVec 64, ∃ i : Nat,
        s.Open port .unit ∧ Legal .fldFifo v.toNat ∧ i = d.val * 32 + f.val ∧ s.rd F.fldFifo_en i = 0) ∧
    (∃ s : State, ∃ port : Fin 2, ∃ d : Fin 2, ∃ f : Fin 32, ∃ v : BitVec 64, ∃ i : Nat,
        s.Open port .unit ∧ Legal .fldFifo v.toNat ∧ i = d.val * 32 + f.val ∧ s.rd F.fldFifo_en i = 1 ∧
          F.fldFifo_en.of v.toNat = 0 ∧
          (∀ x ∈ [F.fldFifo_array, F.fldFifo_ctr, F.fldFifo_ringBase, F.fldFifo_nslots], x.of v.toNat = s.rd x i)) ∧
    (∃ s : State, ∃ port : Fin 2, ∃ d : Fin 2, ∃ f : Fin 32, ∃ v : BitVec 64, ∃ i : Nat,
        s.Open port .unit ∧ Legal .fldFifo v.toNat ∧ i = d.val * 32 + f.val ∧ s.rd F.fldFifo_en i = 1 ∧
          (∃ x ∈ [F.fldFifo_array, F.fldFifo_ctr, F.fldFifo_ringBase, F.fldFifo_nslots], x.of v.toNat ≠ s.rd x i)) ∧
    (∃ s : State, ∃ port : Fin 2, s.Open port .unit ∧ s.rd F.clkCmd_set 0 = 0 ∧ s.rd F.clkCfg_timeSrc 0 ∉ [1, 2]) :=
  ⟨⟨ready, 0, 0x0000461E3C0F300C, by decide +kernel⟩,
   ⟨ready, 0, 1, by decide +kernel⟩,
   ⟨ready, 0, 0, by decide +kernel⟩,
   ⟨ready, 0, 0, 1, by decide +kernel⟩,
   ⟨(lk [(F.lnkPort_en, 2, 1), (F.lnkStat_state, 2, 5)]), 0, 2, 0, by decide +kernel⟩,
   ⟨(lk [(F.lnkPort_en, 2, 1), (F.lnkStat_state, 2, 5)]), 0, 2, by decide +kernel⟩,
   ⟨ready, 0, 0, by decide +kernel⟩,
   ⟨ready, 0, 0, 0, 0x100020001, 0, by decide +kernel⟩,
   ⟨(fun (s : State) => s.setFifo 3 { items := [{}, {}], seq := 7, gap := some (1, 2) }) (lk [(F.fldFifo_en, 3, 1),
               (F.fldFifo_array, 3, 2), (F.fldFifo_nslots, 3, 9), (F.fldFifoStat_gapCnt, 3, 65534)]), 0, 0, 3,
       0x1000900000004, 3, by decide +kernel⟩,
   ⟨(fun (s : State) => s.setFifo 3 { items := [{}, {}], seq := 7, gap := some (1, 2) }) (lk [(F.fldFifo_en, 3, 1),
               (F.fldFifo_array, 3, 2), (F.fldFifo_nslots, 3, 9), (F.fldFifoStat_gapCnt, 3, 65534)]), 0, 0, 3,
       0x2000800000005, 3, by decide +kernel⟩,
   ⟨ready, 0, by decide +kernel⟩⟩

end Sys2Proof.Tests.ClockPowerLinkRegisters

namespace Sys2Proof.Tests.TableCommandsStartOrAreRefused

def allLive (s : State) : State := put ((List.range 64).map (fun p => (F.hubState_stackState, p, 1))) s

def dn (handle fmt elems rowStride homeMask rpp total segBase units : Nat) (mir : Option (Nat × Nat) := none) : Nat :=
  handle + fmt * 2^16 + elems * 2^32 + rowStride * 2^48 + homeMask * 2^64 + rpp * 2^128 + total * 2^160 + segBase *
    2^192 + units * 2^288 + (match mir with | some (d, b) => 2^24 + d * 2^56 + b * 2^320 | none => 0)

def stage (v : Nat) (s : State) : State :=
  put ((List.range 8).map (fun n => (F.pckTblDesc_desc, n, v / 2^(64*n) % 2^64))) s

def base : State := allLive ready

def d1 := dn 7 1 16 1 6 10 20 0x1000 10

def d2 := dn 8 1 16 1 6 10 20 0x1000 10 (some (3, 0x2000))

def withT (l : List Nat) (s : State) : State :=
  { s with
      tables := l.map (fun v => ((descOf v).handle, descOf v)),
      dir :=
        (l.flatMap (fun v => (Table.hubs (descOf v)).map (fun p => (p * 65536 + (descOf v).handle, descOf v)))) }

def mtb := withT [d2] base

def promoted := (((mtb.wr F.hubState_stackState 1 3).promoteSeg 8 1 (descOf d2)))

/-- States that meet the hypotheses of each clause of `Obligations.TableCommandsStartOrAreRefused`. -/
theorem witness_TableCommandsStartOrAreRefused :
    (∃ s : State, ∃ port : Fin 2, ∃ p : Fin 64, ∃ c,
        s.Open port .unit ∧ c ∈ [Instr.tableInstall port, .tableRemove port, .tablePromote port p,
            .tableResync port p, .tableDemote port p, .stackDeclareFailed port p, .stackReturn port p] ∧
          s.tblCmd.isSome = true) ∧
    (∃ s : State, ∃ port : Fin 2, s.Open port .unit ∧ s.tblCmd = none ∧ s.installStatus s.stagedDesc = 0) ∧
    (∃ s : State, ∃ port : Fin 2, s.Open port .unit ∧ s.tblCmd = none ∧ s.installStatus s.stagedDesc ≠ 0) ∧
    (∃ s : State, ∃ port : Fin 2,
        s.Open port .unit ∧ s.tblCmd = none ∧ (mfind s.tables s.stagedDesc.handle).isSome = true) ∧
    (∃ s : State, ∃ port : Fin 2, s.Open port .unit ∧ s.tblCmd = none ∧ mfind s.tables s.stagedDesc.handle = none) ∧
    (∃ s : State, ∃ port : Fin 2, ∃ p : Fin 64,
        s.Open port .unit ∧ s.tblCmd = none ∧ s.mirrored p ≠ [] ∧ s.stackState p = 3 ∧
          (∀ q ∈ s.mirrored p, (s.seg q.1 p).away = true ∨ s.canPromote q.1 p q.2 = true)) ∧
    (∃ s : State, ∃ port : Fin 2, ∃ p : Fin 64, s.Open port .unit ∧ s.tblCmd = none ∧ s.mirrored p = []) ∧
    (∃ s : State, ∃ port : Fin 2, ∃ p : Fin 64,
        s.Open port .unit ∧ s.tblCmd = none ∧ s.mirrored p ≠ [] ∧ s.stackState p ≠ 3) ∧
    (∃ s : State, ∃ port : Fin 2, ∃ p : Fin 64,
        s.Open port .unit ∧ s.tblCmd = none ∧ s.packFitted p = true ∧ s.packDark p = false ∧ s.mirrored p ≠ [] ∧
          s.stackLive p = true) ∧
    (∃ s : State, ∃ port : Fin 2, ∃ p : Fin 64,
        s.Open port .unit ∧ s.tblCmd = none ∧ s.packFitted p = true ∧ s.packDark p = true) ∧
    (∃ s : State, ∃ port : Fin 2, ∃ p : Fin 64,
        s.Open port .unit ∧ s.tblCmd = none ∧ s.mirrored p ≠ [] ∧
          (∃ q ∈ s.mirrored p, (s.seg q.1 p).resynced = true)) ∧
    (∃ s : State, ∃ port : Fin 2, ∃ p : Fin 64, s.Open port .unit ∧ s.tblCmd = none ∧ s.stackLive p = true) ∧
    (∃ s : State, ∃ port : Fin 2, ∃ p : Fin 64, s.Open port .unit ∧ s.tblCmd = none ∧ s.stackLive p = false) ∧
    (∃ s : State, ∃ port : Fin 2, ∃ p : Fin 64, s.Open port .unit ∧ s.tblCmd = none ∧ s.stackState p = 3) ∧
    (∃ s : State, ∃ port : Fin 2, ∃ p : Fin 64, s.Open port .unit ∧ s.tblCmd = none ∧ s.stackState p ≠ 3) :=
  ⟨⟨{ mtb with tblCmd := some {} }, 0, 1, (Instr.tableInstall 0), by decide +kernel⟩,
   ⟨(stage d1 base), 0, by decide +kernel⟩,
   ⟨(stage d1 (withT [d2] base)), 0, by decide +kernel⟩,
   ⟨(stage d1 (withT [d1] base)), 0, by decide +kernel⟩,
   ⟨(stage d1 base), 0, by decide +kernel⟩,
   ⟨(mtb.wr F.hubState_stackState 1 3), 0, 1, by decide +kernel⟩,
   ⟨(stage d1 base), 0, 1, by decide +kernel⟩,
   ⟨(stage d1 (withT [d2] base)), 0, 1, by decide +kernel⟩,
   ⟨(stage d1 (withT [d2] base)), 0, 1, by decide +kernel⟩,
   ⟨put [(F.fltPackDark_dark, 0, 2 ^ 5)] base0, 0, 5, by decide +kernel⟩,
   ⟨{ mtb with segs := [(8*64+1, { promoted := true, resynced := true })] }, 0, 1, by decide +kernel⟩,
   ⟨(stage d1 base), 0, 1, by decide +kernel⟩,
   ⟨(mtb.wr F.hubState_stackState 1 3), 0, 1, by decide +kernel⟩,
   ⟨(mtb.wr F.hubState_stackState 1 3), 0, 1, by decide +kernel⟩,
   ⟨(stage d1 base), 0, 1, by decide +kernel⟩⟩

end Sys2Proof.Tests.TableCommandsStartOrAreRefused

namespace Sys2Proof.Tests.TablesAndStacksChange

def allLive (s : State) : State := put ((List.range 64).map (fun p => (F.hubState_stackState, p, 1))) s

def dn (handle fmt elems rowStride homeMask rpp total segBase units : Nat) (mir : Option (Nat × Nat) := none) : Nat :=
  handle + fmt * 2^16 + elems * 2^32 + rowStride * 2^48 + homeMask * 2^64 + rpp * 2^128 + total * 2^160 + segBase *
    2^192 + units * 2^288 + (match mir with | some (d, b) => 2^24 + d * 2^56 + b * 2^320 | none => 0)

def base : State := allLive ready

def d1 := dn 7 1 16 1 6 10 20 0x1000 10

def d2 := dn 8 1 16 1 6 10 20 0x1000 10 (some (3, 0x2000))

def withT (l : List Nat) (s : State) : State :=
  { s with
      tables := l.map (fun v => ((descOf v).handle, descOf v)),
      dir :=
        (l.flatMap (fun v => (Table.hubs (descOf v)).map (fun p => (p * 65536 + (descOf v).handle, descOf v)))) }

def mtb := withT [d2] base

def promoted := (((mtb.wr F.hubState_stackState 1 3).promoteSeg 8 1 (descOf d2)))

def cmd (op pack : Nat) (v : Nat) (s : State) : State :=
  { s with tblCmd := some { op := op, pack := pack, desc := descOf v } } |>.wr F.pckTblCmd_go 0 1

def errs (s : State) : State :=
  { s with
      stackErr := [(blockKey 1 64, [(3, 7)]), (blockKey 1 65, [(3, 7), (9, 1)]), (blockKey 2 70, [(3, 7), (9, 1)])],
      stack := stk [(1, 0x1000, 5), (1, 0x1003, 9), (4, 0x2000, 77), (4, 0x2009, 78)] }

def scS (s : State) : State := put [(F.hubCfg_scrubEn, 1, 1), (F.hubCfg_scrubEn, 2, 1)] (errs s)

def s153 : State := (cmd 0 0 d1 mtb)

def s154 : State := (cmd 1 0 d2 mtb)

def s155 : State := (cmd 2 1 d2 (mtb.wr F.hubState_stackState 1 3))

def s156 : State := (cmd 4 1 d2 { mtb with segs := [(8*64+1, {promoted := true, resynced := true})] })

def s157 : State := (cmd 5 1 d2 mtb)

def s158 : State := (cmd 6 1 d2 (errs (mtb.wr F.hubState_stackState 1 3)))

def s163 : State := (cmd 6 1 d2 (errs (mtb.wr F.hubState_stackState 1 3)))

/-- States that meet the hypotheses of each clause of `Obligations.TablesAndStacksChange`. -/
theorem witness_TablesAndStacksChange :
    (∃ s : State, ∃ c,
        s.tblCmd = some c ∧ c.before = [] ∧ c.effected = false ∧ c.pack < 64 ∧ s.hubWait = [] ∧ c.op = 0) ∧
    (∃ s : State, ∃ c,
        s.tblCmd = some c ∧ c.before = [] ∧ c.effected = false ∧ c.pack < 64 ∧ s.hubWait = [] ∧ c.op = 1) ∧
    (∃ s : State, ∃ c,
        s.tblCmd = some c ∧ c.before = [] ∧ c.effected = false ∧ c.pack < 64 ∧ s.hubWait = [] ∧ c.op = 2) ∧
    (∃ s : State, ∃ c,
        s.tblCmd = some c ∧ c.before = [] ∧ c.effected = false ∧ c.pack < 64 ∧ s.hubWait = [] ∧ c.op = 4) ∧
    (∃ s : State, ∃ c,
        s.tblCmd = some c ∧ c.before = [] ∧ c.effected = false ∧ c.pack < 64 ∧ s.hubWait = [] ∧ c.op = 5) ∧
    (∃ s : State, ∃ c,
        s.tblCmd = some c ∧ c.before = [] ∧ c.effected = false ∧ c.pack < 64 ∧ s.hubWait = [] ∧ c.op = 6) ∧
    (∃ s : State, ∃ p, p < 64 ∧ s.resync = some p) ∧
    (∃ s : State, ∃ p : Fin 64, s.stackState p = 0 ∧ s.packDark p = false ∧ s.packFitted p = true) ∧
    (∃ s : State, ∃ p : Fin 64, ∃ block : Nat, ∃ k, ∃ v,
        block < 1073741824 ∧ s.blockSt p block = .corrected k v ∧ s.rd F.hubCfg_scrubEn p = 1 ∧ s.stackLive p =
          true) ∧
    (∃ s : State, ∃ p : Fin 64, ∃ block : Nat,
        block < 1073741824 ∧ s.blockSt p block = .bad ∧ s.rd F.hubCfg_scrubEn p = 1 ∧ s.stackLive p = true ∧
          s.otherCopy p block = none) ∧
    (∃ s : State, ∃ p : Fin 64, ∃ block : Nat, ∃ q, ∃ c,
        block < 1073741824 ∧ s.blockSt p block = .bad ∧ s.rd F.hubCfg_scrubEn p = 1 ∧ s.stackLive p = true ∧
          s.otherCopy p block = some (q, c) ∧ s.hubServes p q = true ∧ s.blockSt q c ≠ .bad) :=
  ⟨⟨s153, ((s153.tblCmd.toList)[0]'(by decide +kernel)), by decide +kernel⟩,
   ⟨s154, ((s154.tblCmd.toList)[0]'(by decide +kernel)), by decide +kernel⟩,
   ⟨s155, ((s155.tblCmd.toList)[0]'(by decide +kernel)), by decide +kernel⟩,
   ⟨s156, ((s156.tblCmd.toList)[0]'(by decide +kernel)), by decide +kernel⟩,
   ⟨s157, ((s157.tblCmd.toList)[0]'(by decide +kernel)), by decide +kernel⟩,
   ⟨s158, ((s158.tblCmd.toList)[0]'(by decide +kernel)), by decide +kernel⟩,
   ⟨{ cmd 3 1 d2 mtb with resync := some 1 }, 1, by decide +kernel⟩,
   ⟨{ (mtb.wr F.hubState_stackState 1 0) with tblCmd := some { op := 6, pack := 1, effected := true } }, 1,
       by decide +kernel⟩,
   ⟨(scS mtb), 1, 64, 3, 7, by decide +kernel⟩,
   ⟨(scS base), 1, 65, by decide +kernel⟩,
   ⟨s163, 2, 70, (((s163.otherCopy 2 70).toList.map (fun (x : Nat × Nat) => x.1))[0]'(by decide +kernel)),
       (((s163.otherCopy 2 70).toList.map (fun (x : Nat × Nat) => x.2))[0]'(by decide +kernel)), by decide +kernel⟩⟩

end Sys2Proof.Tests.TablesAndStacksChange

namespace Sys2Proof.Tests.HostItemsAndTableAccesses

def allLive (s : State) : State := put ((List.range 64).map (fun p => (F.hubState_stackState, p, 1))) s

def dn (handle fmt elems rowStride homeMask rpp total segBase units : Nat) (mir : Option (Nat × Nat) := none) : Nat :=
  handle + fmt * 2^16 + elems * 2^32 + rowStride * 2^48 + homeMask * 2^64 + rpp * 2^128 + total * 2^160 + segBase *
    2^192 + units * 2^288 + (match mir with | some (d, b) => 2^24 + d * 2^56 + b * 2^320 | none => 0)

def base : State := allLive ready

def d1 := dn 7 1 16 1 6 10 20 0x1000 10

def d2 := dn 8 1 16 1 6 10 20 0x1000 10 (some (3, 0x2000))

def withT (l : List Nat) (s : State) : State :=
  { s with
      tables := l.map (fun v => ((descOf v).handle, descOf v)),
      dir :=
        (l.flatMap (fun v => (Table.hubs (descOf v)).map (fun p => (p * 65536 + (descOf v).handle, descOf v)))) }

def dat (n : Nat) : List Byte := (List.range n).map (fun i => BitVec.ofNat 8 i)

def ci := fd 4 { unit := 3, ctr := 9, len := 100 }

def tw := fd 0x20 { unit := 1, handle := 7, len := 100, offset := 30 }

def tr := fd 0x21 { unit := 1, handle := 8, len := 100, offset := 30 , hostAddr := 0x5000}

def s165 : State :=
  (withD (withT [d1] {base with stack := stk [(1, 0x1000, 5), (1, 0x1000+30, 6), (1, 0x1000+130, 6)]}) [tw])

def s166 : State :=
  (withD (withT [d2] {base with stack := stk [(1, 0x1000, 5), (1, 0x1000+30, 6), (1, 0x1000+130, 6)]}) [tr])

/-- States that meet the hypotheses of each clause of `Obligations.HostItemsAndTableAccesses`. -/
theorem witness_HostItemsAndTableAccesses :
    (∃ s : State, ∃ port : Fin 2, ∃ sq : Fin 256, ∃ k : Nat, ∃ f : FDescr, ∃ item : List Byte,
        f.Loud ∧ s.ready (port, sq, k) 0x04 true = some f ∧ s.descrStatus f .array 1 4096 = 0 ∧ s.arrHeld f.d.unit =
          false ∧ item.length = f.d.len ∧ f.d.ctr < 64 ∧ s.arrStatus f.d.unit = 0 ∧ s.inReset f.d.unit = false ∧
          roleReceives (s.epRole f.d.unit f.d.ctr) = true ∧ s.rd F.chEp_hostOk (epKey f.d.unit f.d.ctr) = 1 ∧
          s.epOpen f.d.unit f.d.ctr = true ∧ s.rd F.chEpState_spilled (epKey f.d.unit f.d.ctr) = 0 ∧
          (s.ep f.d.unit f.d.ctr).used + itemEntries item.length ≤ 32) ∧
    (∃ s : State, ∃ port : Fin 2, ∃ sq : Fin 256, ∃ k : Nat, ∃ f : FDescr, ∃ data : List Byte, ∃ d : TableDesc,
        f.Loud ∧ s.ready (port, sq, k) 0x20 true = some f ∧ s.descrStatus f .pack 1 16777216 = 0 ∧ data.length =
          f.d.len ∧ s.tblPending f.d.handle = false ∧ s.hubGone (s.tblHub f.d.handle f.d.unit) = false ∧ mfind
          s.tables f.d.handle = some d ∧ s.tblRangeBad f.d.handle f.d.unit f.d.offset f.d.len = false ∧ d.mirror =
          false ∧ s.seg f.d.handle f.d.unit = {} ∧ s.stackLive f.d.unit = true ∧ d.segBase + f.d.offset + f.d.len ≤
          68719476736 ∧ (s.dirAt f.d.unit f.d.handle).isSome = true ∧ s.stackErr = [] ∧ s.odecc = []) ∧
    (∃ s : State, ∃ port : Fin 2, ∃ sq : Fin 256, ∃ k : Nat, ∃ f : FDescr, ∃ d : TableDesc,
        f.Loud ∧ s.ready (port, sq, k) 0x21 false = some f ∧ s.descrStatus f .pack 1 16777216 = 0 ∧ s.tblPending
          f.d.handle = false ∧ s.hubGone (s.tblHub f.d.handle f.d.unit) = false ∧ mfind s.tables f.d.handle = some d
          ∧ s.tblRangeBad f.d.handle f.d.unit f.d.offset f.d.len = false ∧ s.stackLive (s.servedAt d f.d.unit).1 =
          true ∧ (s.dirAt (s.servedAt d f.d.unit).1 f.d.handle).isSome = true ∧ s.stackErr = [] ∧ s.odecc = [] ∧
          s.portUp f.port = true) :=
  ⟨⟨(put [(F.chEp_role, epKey 3 9, 3), (F.chEp_hostOk, epKey 3 9, 1), (F.chEpState_state, epKey 3 9, 1),
               (F.chEpState_epoch, epKey 3 9, 77)] (withD base [ci])), 0, 0, 0, ci, (dat 100), by decide +kernel⟩,
   ⟨s165, 0, 0, 0, tw, (dat 100), (((mfind s165.tables tw.d.handle).toList)[0]'(by decide +kernel)),
       by decide +kernel⟩,
   ⟨s166, 0, 0, 0, tr, (((mfind s166.tables tr.d.handle).toList)[0]'(by decide +kernel)), by decide +kernel⟩⟩

end Sys2Proof.Tests.HostItemsAndTableAccesses

namespace Sys2Proof.Tests.RegionsRunAttempts

def rst := fd 0x10 { unit := 2, offset := 0 }

def rstl := fd 0x11 { unit := 2, offset := 0, len := 2 }

def rsp := fd 0x12 { unit := 2 }

def sblk (m cnt : Nat) (es : List Nat) (f : List FDescr) (s : State := base0) : State :=
  withD (poke (poke s (s.siteOf 2) 0 (blk m cnt 0x4000)) (s.siteOf 2) 0x200 (es.flatMap (fun v => leBytes 32 v))) f

def e1 := 0x1000 + 500*2^32 + 0xF0*2^64

def e2 := 0x2000 + trg 3 2

def caps : List CapEntry :=
  [{ srcArray := 4, srcEp := 1, dstArray := 6, dstEp := 2, maxItems := 3, maxBytes := 300 },
      { srcArray := 6, srcEp := 2, dstArray := 4, dstEp := 1, maxItems := 3, maxBytes := 300 }]

def leg (s : State) : State :=
  put [(F.chEp_role, epKey 4 1, 6), (F.chEp_peerArray, epKey 4 1, 6), (F.chEp_peerEp, epKey 4 1, 2),
      (F.chEp_role, epKey 6 2, 6), (F.chEp_peerArray, epKey 6 2, 4), (F.chEp_peerEp, epKey 6 2, 1)] s

def rep (st : Nat) (m : Nat := 4) (id : Nat := 8) (att : Nat := 1) : Packet :=
  pk (.stepMsg (.report id att st 77 0x1040)) (.tile m) (.tile 2)

def repa (st : Nat) (m : Nat := 4) (id : Nat := 8) (att : Nat := 1) : Packet :=
  { pk (.stepMsg (.report id att st 77 0x1040)) (.tile m) (.tile 2) 12 with noack := false }

def g1 := { reg0 with reported := [(6,0)] }

def g2 := { reg0 with reported := [(6,0),(9,0xD)] }

def gd :=
  { reg0 with
      phase := .draining, reported := [(4, 0xE), (6, 0xE), (9, 7)],
      outcome := { id := 8, attempt := 1, status := 7, tag := 3, addr := 4, member := 9 } }

def s167 : State := (sblk (2^4+2^6) 2 [e1,e2] [rst])

def s168 : State := (sblk (2^4+2^6) 2 [e1,e2] [rstl] (leg base0))

def s170 : State := (withD (wreg { reg0 with phase := .trigger }) [rsp])

def s171 : State := (withD (wreg reg0) [rsp])

def s172 : State := (withD (wreg { reg0 with phase := .trigger }) [rsp])

def s173 : State := (netp (rep 0) (wreg g1))

def s174 : State := (netp (repa 0) (wreg g2))

def s175 : State := (netp (repa 6) (wreg g1))

def s176 : State := (withD (wreg reg0) [rsp])

/-- States that meet the hypotheses of each clause of `Obligations.RegionsRunAttempts`. -/
theorem witness_RegionsRunAttempts :
    (∃ s : State, ∃ port : Fin 2, ∃ sq : Fin 256, ∃ k : Nat, ∃ f : FDescr, ∃ ms, ∃ g,
        s.arrHeld f.d.unit = false ∧ s.ready (port, sq, k) 0x10 false = some f ∧ s.descrStatus f .array 0 0 = 0 ∧
          s.readBlockOf f.d.unit f.d.offset = (ms, .inr g, s) ∧ s.startRefused f f.d.unit ms (.inr g) = 0 ∧ g.table
          ≠ []) ∧
    (∃ s : State, ∃ port : Fin 2, ∃ sq : Fin 256, ∃ k : Nat, ∃ f : FDescr, ∃ table, ∃ ms, ∃ g,
        s.arrHeld f.d.unit = false ∧ s.ready (port, sq, k) 0x11 true = some f ∧ s.descrStatus f .array 1 4096 = 0 ∧
          table.length = f.d.len ∧ (∀ c ∈ table,
            1 ≤ c.maxItems ∧ 1 ≤ c.maxBytes ∧ c.maxBytes ≤ 4096 ∧ capLoad table c.dstArray c.dstEp ≤ 32 ∧ s.capPeers
              c = true) ∧ s.readBlockOf f.d.unit f.d.offset = (ms, .inr g, s) ∧ s.startRefused f f.d.unit ms
          (.inr g) = 0 ∧ g.table ≠ []) ∧
    (∃ s : State, ∃ port : Fin 2, ∃ sq : Fin 256, ∃ k : Nat, ∃ f : FDescr,
        s.arrHeld f.d.unit = false ∧ s.ready (port, sq, k) 0x12 false = some f ∧ s.descrStatus f .array 0 0 = 0 ∧
          s.regionOf f.d.unit = none ∧ f.Loud) ∧
    (∃ s : State, ∃ port : Fin 2, ∃ sq : Fin 256, ∃ k : Nat, ∃ f : FDescr, ∃ g,
        s.arrHeld f.d.unit = false ∧ s.ready (port, sq, k) 0x12 false = some f ∧ s.descrStatus f .array 0 0 = 0 ∧
          s.regionOf f.d.unit = some g ∧ g.phase = .trigger) ∧
    (∃ s : State, ∃ port : Fin 2, ∃ sq : Fin 256, ∃ k : Nat, ∃ f : FDescr, ∃ g,
        s.arrHeld f.d.unit = false ∧ s.ready (port, sq, k) 0x12 false = some f ∧ s.descrStatus f .array 0 0 = 0 ∧
          s.regionOf f.d.unit = some g ∧ g.phase = .running ∧ g.waiting ≠ []) ∧
    (∃ s : State, ∃ l : Fin 512, ∃ g : Region,
        s.regionOf l = some g ∧ g.phase = .trigger ∧ g.now.trigCtr < 64 ∧ g.now.trigCount ≤ s.rd F.tmCtr_value
          (l * 64 + g.now.trigCtr) ∧ s.halted (s.arrIsland l) = false) ∧
    (∃ s : State, ∃ l : Fin 512, ∃ g : Region, ∃ p, ∃ m, ∃ id, ∃ attempt, ∃ status, ∃ tag, ∃ addr,
        s.regionOf l = some g ∧ s.Takes p l ∧ p.body = .stepMsg (.report id attempt status tag addr) ∧ p.src = .tile
          m ∧ m ∈ g.list ∧ mfind g.reported m = none ∧ g.phase = .running ∧ id = g.stepId ∧ attempt = g.attempt ∧
          (status = 0 ∨ status = 0x0D) ∧ { g with reported := mset g.reported m status }.allOk = false) ∧
    (∃ s : State, ∃ l : Fin 512, ∃ g : Region, ∃ p, ∃ m, ∃ id, ∃ attempt, ∃ status, ∃ tag, ∃ addr,
        s.regionOf l = some g ∧ s.Takes p l ∧ p.body = .stepMsg (.report id attempt status tag addr) ∧ p.src = .tile
          m ∧ m ∈ g.list ∧ mfind g.reported m = none ∧ g.phase = .running ∧ id = g.stepId ∧ attempt = g.attempt ∧
          (status = 0 ∨ status = 0x0D) ∧ { g with reported := mset g.reported m status }.allOk = true ∧ g.entry + 1
          < g.table.length ∧ g.stopBy = []) ∧
    (∃ s : State, ∃ l : Fin 512, ∃ g : Region, ∃ p, ∃ m, ∃ id, ∃ attempt, ∃ status, ∃ tag, ∃ addr,
        s.regionOf l = some g ∧ s.Takes p l ∧ p.body = .stepMsg (.report id attempt status tag addr) ∧ p.src = .tile
          m ∧ m ∈ g.list ∧ mfind g.reported m = none ∧ g.phase = .running ∧ id = g.stepId ∧ attempt = g.attempt ∧
          status ∉ [0, 0x0D, 0x0E] ∧ (∃ w ∈ g.waiting, w ≠ m)) ∧
    (∃ s : State, ∃ l : Fin 512, ∃ g : Region,
        s.regionOf l = some g ∧ g.phase = .running ∧ g.deadline ≠ 0 ∧ s.halted (s.arrIsland l) = false ∧ g.waiting ≠
          []) ∧
    (∃ s : State, ∃ l : Fin 512, ∃ g : Region,
        s.regionOf l = some g ∧ g.phase = .draining ∧ g.waiting = [] ∧ g.backupBusy = false ∧
          (∀ q ∈ g.reported, s.unacked q.1 = false) ∧ g.stopBy = [] ∧ rerunStatus g.outcome.status = true ∧
          g.fencedOpen = [] ∧ g.resetting = [] ∧ g.vacant = false ∧ g.unsafeSub = false ∧ g.attempt < 3 ∧ g.holds =
          [] ∧ s.halted (s.arrIsland l) = false) :=
  ⟨⟨s167, 0, 0, 0, rst, (s167.readBlockOf rst.d.unit rst.d.offset).1,
       (((match (s167.readBlockOf 2 0).2.1 with | .inr g => [g] | _ => []) ++ (s167.regionOf 2).toList)[0]'(by
                 decide +kernel)), by decide +kernel⟩,
   ⟨s168, 0, 0, 0, rstl, caps, (s168.readBlockOf rstl.d.unit rstl.d.offset).1,
       (((match (s168.readBlockOf 2 0).2.1 with | .inr g => [g] | _ => []) ++ (s168.regionOf 2).toList)[0]'(by
                 decide +kernel)), by decide +kernel⟩,
   ⟨(withD base0 [rsp]), 0, 0, 0, rsp, by decide +kernel⟩,
   ⟨s170, 0, 0, 0, rsp,
       (((match (s170.readBlockOf 2 0).2.1 with | .inr g => [g] | _ => []) ++ (s170.regionOf 2).toList)[0]'(by
                 decide +kernel)), by decide +kernel⟩,
   ⟨s171, 0, 0, 0, rsp,
       (((match (s171.readBlockOf 2 0).2.1 with | .inr g => [g] | _ => []) ++ (s171.regionOf 2).toList)[0]'(by
                 decide +kernel)), by decide +kernel⟩,
   ⟨s172, 2,
       (((match (s172.readBlockOf 2 0).2.1 with | .inr g => [g] | _ => []) ++ (s172.regionOf 2).toList)[0]'(by
                 decide +kernel)), by decide +kernel⟩,
   ⟨s173, 2, (((s173.regionOf 2).toList)[0]'(by decide +kernel)), ((s173.net.take 1)[0]'(by decide +kernel)), 4, 8,
       1, 0, 77, 0x1040, by decide +kernel⟩,
   ⟨s174, 2, (((s174.regionOf 2).toList)[0]'(by decide +kernel)), ((s174.net.take 1)[0]'(by decide +kernel)), 4, 8,
       1, 0, 77, 0x1040, by decide +kernel⟩,
   ⟨s175, 2, (((s175.regionOf 2).toList)[0]'(by decide +kernel)), ((s175.net.take 1)[0]'(by decide +kernel)), 4, 8,
       1, 6, 77, 0x1040, by decide +kernel⟩,
   ⟨s176, 2,
       (((match (s176.readBlockOf 2 0).2.1 with | .inr g => [g] | _ => []) ++ (s176.regionOf 2).toList)[0]'(by
                 decide +kernel)), by decide +kernel⟩,
   ⟨(wreg gd), 2, ((((wreg gd).regionOf 2).toList)[0]'(by decide +kernel)), by decide +kernel⟩⟩

end Sys2Proof.Tests.RegionsRunAttempts

namespace Sys2Proof.Tests.MembersAndBackups

def ss : StepMsg := .stepStart 11 1 0x1000 5 0xF1 1234

def runc : StepRun := { leader := 2, serial := 5, id := 8, attempt := 1, next := 0x1000, issuing := true }

def canc (s : State) : State :=
  { s with arrays := mset s.arrays 4 { s.arr 4 with run := some runc, gate := {dropped := 3} } }

def rg : Region := { reg0 with entry := 1 }

def sb : Region := { members := 2^20+2^22+2^25, phase := .trigger, table := [{entry := 0x100, trigEn := true}] }

def two (a b : Region) : State := memb { base0 with regions := [(2, a), (17, b)], serial := 5 } [4,6,9] 2

def s178 : State :=
  (netp (pk (.stepMsg ss) (.tile 2) (.tile 4)) (put
            [(F.tmCtr_value, 4*64, 5), (F.tmCtr_value, 4*64+1, 6), (F.tmCtr_value, 4*64+7, 6)]
            (memb base0 [4, 6] 2)))

def s180 : State := (netp (pk (.stepMsg (.cancel 8)) (.tile 2) (.tile 4)) (canc (memb base0 [4,6] 2)))

def s182 : State := (netp (pk (.stepMsg (.backupRequest 8 1 2 0x2000 5 0xF1 900)) (.tile 2) (.tile 17)) (two rg sb))

def s183 : State :=
  (netp { pk (.stepMsg (.backupRequest 8 1 2 0x2000 5 0xF1 900)) (.tile 2) (.tile 17) 8 with noack := false }
        (two rg { sb with phase := .running }))

def s184 : State :=
  (netp (pk (.stepMsg (.backupRefused 8)) (.tile 17) (.tile 2)) (two {rg with backupBusy := true} sb))

def s185 : State :=
  (netp (pk (.stepMsg (.commitNotice 8 1 1)) (.tile 17) (.tile 2)) (two {rg with backupBusy := true} sb))

def s186 : State :=
  (netp (pk (.stepMsg (.backupFailed 8)) (.tile 17) (.tile 2)) (two {rg with backupBusy := true} sb))

/-- States that meet the hypotheses of each clause of `Obligations.MembersAndBackups`. -/
theorem witness_MembersAndBackups :
    (∃ s : State, ∃ a : Nat, ∃ p : Packet, ∃ l : Nat, ∃ id, ∃ attempt, ∃ entry, ∃ serial, ∃ clear, ∃ deadline, ∃ n,
        s.Takes p a ∧ p.src = .tile l ∧ p.body = .stepMsg (.stepStart id attempt entry serial clear deadline) ∧
          (s.arr a).member = some (l, n) ∧ (s.arr a).run = none) ∧
    (∃ s : State, ∃ a : Nat, ∃ p : Packet, ∃ l : Nat, ∃ id, ∃ c : Instr,
        s.Takes p a ∧ p.src = .tile l ∧ ((∃ attempt entry serial clear deadline,
                p.body = .stepMsg (.stepStart id attempt entry serial clear deadline) ∧ c = .stepStart p) ∨ (p.body
                  = .stepMsg (.cancel id) ∧ s.regionOf a = none ∧ (∀ run, (s.arr a).run = some run → run.leader ≠ l)
                  ∧ c = .cancel p)) ∧ (∀ n, (s.arr a).member ≠ some (l, n))) ∧
    (∃ s : State, ∃ a : Nat, ∃ p : Packet, ∃ l : Nat, ∃ id, ∃ n, ∃ run,
        s.Takes p a ∧ p.src = .tile l ∧ p.body = .stepMsg (.cancel id) ∧ s.regionOf a = none ∧ (s.arr a).member =
          some (l, n) ∧ (s.arr a).run = some run ∧ run.id = id ∧ run.leader = l ∧ run.cancelled = false ∧ run.failed
          = none ∧ (s.arr a).flights = []) ∧
    (∃ s : State, ∃ l : Fin 512, ∃ g : Region,
        s.regionOf l = some g ∧ g.phase = .running ∧ s.halted (s.arrIsland l) = false ∧ g.backupAsked = false ∧
          g.now.backupPct ≠ 0 ∧ g.now.standbyEn = true ∧ g.now.deadline ≠ 0) ∧
    (∃ s : State, ∃ l : Fin 512, ∃ g : Region, ∃ p, ∃ id, ∃ attempt, ∃ primary, ∃ entry, ∃ serial, ∃ clear,
        ∃ deadline, ∃ q,
        s.regionOf l = some g ∧ s.Takes p l ∧ p.body = .stepMsg
          (.backupRequest id attempt primary entry serial clear deadline) ∧ s.regionOf primary = some q ∧
          q.list.length = g.list.length ∧ g.phase = .trigger) ∧
    (∃ s : State, ∃ l : Fin 512, ∃ g : Region, ∃ p, ∃ id, ∃ attempt, ∃ primary, ∃ entry, ∃ serial, ∃ clear,
        ∃ deadline,
        s.regionOf l = some g ∧ s.Takes p l ∧ p.body = .stepMsg
          (.backupRequest id attempt primary entry serial clear deadline) ∧ g.phase ≠ .trigger) ∧
    (∃ s : State, ∃ l : Fin 512, ∃ g : Region, ∃ p, ∃ id,
        s.regionOf l = some g ∧ s.Takes p l ∧ p.body = .stepMsg (.backupRefused id) ∧ g.phase = .running ∧ g.stepId
          = id ∧ g.backupBusy = true) ∧
    (∃ s : State, ∃ l : Fin 512, ∃ g : Region, ∃ p, ∃ id, ∃ attempt, ∃ rank,
        s.regionOf l = some g ∧ s.Takes p l ∧ p.body = .stepMsg (.commitNotice id attempt rank) ∧ g.phase = .running
          ∧ g.stepId = id ∧ g.committed.contains rank = false ∧ { g with committed := rank :: g.committed }.allOk =
          false) ∧
    (∃ s : State, ∃ l : Fin 512, ∃ g : Region, ∃ p, ∃ id,
        s.regionOf l = some g ∧ s.Takes p l ∧ p.body = .stepMsg (.backupFailed id)) :=
  ⟨⟨s178, 4, ((s178.net.take 1)[0]'(by decide +kernel)), 2, 11, 1, 0x1000, 5, 0xF1, 1234, 5, by decide +kernel⟩,
   ⟨netp (pk (.stepMsg (.stepStart 11 1 0x1000 5 0xF1 1234)) (.tile 2) (.tile 4)) (memb base0 [4, 6] 7), 4,
       pk (.stepMsg (.stepStart 11 1 0x1000 5 0xF1 1234)) (.tile 2) (.tile 4), 2, 11, _, by decide +kernel, rfl,
       .inl ⟨1, 0x1000, 5, 0xF1, 1234, rfl, rfl⟩,
       fun n h => absurd (congrArg (Option.map Prod.fst) h) (show ¬ (some 7 : Option Nat) = some 2 by decide)⟩,
   ⟨s180, 4, ((s180.net.take 1)[0]'(by decide +kernel)), 2, 8, 5,
       (((s180.arr 4).run.toList)[0]'(by decide +kernel)), by decide +kernel⟩,
   ⟨(wreg rg), 2, ((((wreg rg).regions.map (·.2)))[0]'(by decide +kernel)), by decide +kernel⟩,
   ⟨s182, 17, (((s182.regions.map (·.2)))[1]'(by decide +kernel)), ((s182.net.take 1)[0]'(by decide +kernel)), 8, 1,
       2, 0x2000, 5, 0xF1, 900, ((s182.regions.map (·.2))[0]'(by decide +kernel)), by decide +kernel⟩,
   ⟨s183, 17, (((s183.regions.map (·.2)))[1]'(by decide +kernel)), ((s183.net.take 1)[0]'(by decide +kernel)), 8, 1,
       2, 0x2000, 5, 0xF1, 900, by decide +kernel⟩,
   ⟨s184, 2, (((s184.regions.map (·.2)))[0]'(by decide +kernel)), ((s184.net.take 1)[0]'(by decide +kernel)), 8,
       by decide +kernel⟩,
   ⟨s185, 2, (((s185.regions.map (·.2)))[0]'(by decide +kernel)), ((s185.net.take 1)[0]'(by decide +kernel)), 8, 1,
       1, by decide +kernel⟩,
   ⟨s186, 2, (((s186.regions.map (·.2)))[0]'(by decide +kernel)), ((s186.net.take 1)[0]'(by decide +kernel)), 8,
       by decide +kernel⟩⟩

end Sys2Proof.Tests.MembersAndBackups

namespace Sys2Proof.Tests.FencesStopAndReturnArrays

def F1 (s : State) (f : FaultState → FaultState) : State := { s with faults := f s.faults }

def b1 := base0

def fn (r : Nat) (a : Nat := 4) : Packet := pk (.fenceNotice a r 6) (.mgmt 0) .broadcast

def gT := { reg0 with phase := .trigger, fencedOpen := [9,4] }

def s196 : State := (netp (fn 1) (wreg gT))

def s197 : State := (netp (fn 0x11) (wreg gT))

def s198 : State := (netp (fn 0x12) (wreg gT))

/-- States that meet the hypotheses of each clause of `Obligations.FencesStopAndReturnArrays`. -/
theorem witness_FencesStopAndReturnArrays :
    (∃ s : State, ∃ site : Fin 576, ∃ a : Nat,
        s.arrayAt site = some a ∧ s.inSit = false ∧ s.inReset a = false ∧ s.arrFenced a = false ∧ s.siteDead site =
          false ∧ s.packDark (sitePack site) = false ∧ (a, 1) ∉ s.faults.toFence) ∧
    (∃ s : State, ∃ a : Fin 512,
        a.val ∈ s.faults.attributed ∧ s.arrVacant a = false ∧ s.arrFenced a = false ∧
          (s.rd F.fltCfg_stepFailLimit 0 = 0 ∨ mget s.faults.stepFails a 0 + 1 < s.rd F.fltCfg_stepFailLimit 0)) ∧
    (∃ s : State, ∃ a : Fin 512,
        a.val ∈ s.faults.attributed ∧ s.arrVacant a = false ∧ s.arrFenced a = false ∧ s.rd F.fltCfg_stepFailLimit 0
          ≠ 0 ∧ s.rd F.fltCfg_stepFailLimit 0 ≤ mget s.faults.stepFails a 0 + 1) ∧
    (∃ s : State, ∃ a : Fin 512, ∃ reason : Nat,
        (a.val, reason) ∈ s.faults.toFence ∧ reason ∉ [4, 8] ∧ s.arrVacant a = false ∧ s.arrFenced a = false) ∧
    (∃ s : State, ∃ port : Fin 2, ∃ a : Fin 512, s.Open port .unit ∧ s.arrVacant a = true) ∧
    (∃ s : State, ∃ port : Fin 2, ∃ a : Fin 512,
        s.Open port .unit ∧ s.arrVacant a = false ∧ s.substBusy (arrPack a) = true) ∧
    (∃ s : State, ∃ port : Fin 2, ∃ a : Fin 512,
        s.Open port .unit ∧ s.arrVacant a = false ∧ s.substBusy (arrPack a) = false ∧ s.arrFenced a = false) ∧
    (∃ s : State, ∃ port : Fin 2, ∃ a : Fin 512,
        s.Open port .unit ∧ s.arrVacant a = false ∧ s.substBusy (arrPack a) = false ∧ mfind s.faults.fenced a = some
          5 ∧ s.packDark (arrPack a) = false) ∧
    (∃ s : State, ∃ port : Fin 2, ∃ a : Fin 512,
        s.Open port .unit ∧ s.arrVacant a = false ∧ s.substBusy (arrPack a) = false ∧ mfind s.faults.fenced a ≠ some
          5) ∧
    (∃ s : State, ∃ p : Packet, ∃ a : Nat, ∃ reason : Nat, ∃ site : Nat, ∃ l : Nat, ∃ n : Nat, ∃ g : Region,
        p.body = .fenceNotice a reason site ∧ s.mayMove p = true ∧ s.inSit = false ∧ s.hears p (s.siteOf l) = true ∧
          (s.arr a).member = some (l, n) ∧ s.regionOf l = some g ∧ g.phase = .trigger ∧ s.rounds = [] ∧ reason ∉
          [0x07, 0x10, 0x11, 0x12]) ∧
    (∃ s : State, ∃ p : Packet, ∃ a : Nat, ∃ reason : Nat, ∃ site : Nat, ∃ l : Nat, ∃ n : Nat, ∃ g : Region,
        p.body = .fenceNotice a reason site ∧ s.mayMove p = true ∧ s.inSit = false ∧ s.hears p (s.siteOf l) = true ∧
          (s.arr a).member = some (l, n) ∧ s.regionOf l = some g ∧ g.phase = .trigger ∧ s.rounds = [] ∧ reason =
          0x11) ∧
    (∃ s : State, ∃ p : Packet, ∃ a : Nat, ∃ reason : Nat, ∃ site : Nat, ∃ l : Nat, ∃ n : Nat, ∃ g : Region,
        p.body = .fenceNotice a reason site ∧ s.mayMove p = true ∧ s.inSit = false ∧ s.hears p (s.siteOf l) = true ∧
          (s.arr a).member = some (l, n) ∧ s.regionOf l = some g ∧ g.phase = .trigger ∧ s.rounds = [] ∧ reason =
          0x12) :=
  ⟨⟨b1, (Fin.ofNat 576 (b1.siteOf 3)), 0, by decide +kernel⟩,
   ⟨(F1 b1 (fun f => { f with attributed := [9, 3] })), 3, by decide +kernel⟩,
   ⟨(F1 (b1.wr F.fltCfg_stepFailLimit 0 1) (fun f => { f with attributed := [3], stepFails := [(3, 5)] })), 3,
       by decide +kernel⟩,
   ⟨(F1 b1 (fun f => { f with toFence := [(3, 1), (3, 4), (5, 2)] })), 3, 1, by decide +kernel⟩,
   ⟨(b1.wr F.fabSite_state 3 1), 0, 3, by decide +kernel⟩,
   ⟨(F1 b1 (fun f => { f with substs := [{ array := 1 }] })), 0, 0, by decide +kernel⟩,
   ⟨b1, 0, 0, by decide +kernel⟩,
   ⟨(F1 (put [(F.fabSite_fenced, 3, 1)] b1) (fun f => { f with fenced := [(3, 5)] })), 0, 3, by decide +kernel⟩,
   ⟨b1, 0, 0, by decide +kernel⟩,
   ⟨s196, ((s196.net)[0]'(by decide +kernel)), 4, 1, 6, 2, 5, ((s196.regions.map (·.2))[0]'(by decide +kernel)),
       by decide +kernel⟩,
   ⟨s197, ((s197.net)[0]'(by decide +kernel)), 4, 0x11, 6, 2, 5, ((s197.regions.map (·.2))[0]'(by decide +kernel)),
       by decide +kernel⟩,
   ⟨s198, ((s198.net)[0]'(by decide +kernel)), 4, 0x12, 6, 2, 5, ((s198.regions.map (·.2))[0]'(by decide +kernel)),
       by decide +kernel⟩⟩

end Sys2Proof.Tests.FencesStopAndReturnArrays

namespace Sys2Proof.Tests.SubstitutionMovesNumbers

def F1 (s : State) (f : FaultState → FaultState) : State := { s with faults := f s.faults }

def b1 := base0

def res (s : State) : State := put ((List.range 64).map (fun p => (F.fltReserve_resPos, p, 8))) s

def sub1 (x : Subst) (s : State) : State :=
  F1 (put [(F.fabSite_fenced, x.array, 1)] s) (fun f => { f with substs := [x], fenced := [(x.array, x.reason)] })

def s199 : State := (sub1 {array := 3, reason := 1} (b1.wr F.fltReserve_resPos 0 0xF))

def s200 : State := (sub1 {array := 3, reason := 1} (res b1))

def s203 : State := (put [(F.idnState_panelState,0,0),(F.idnState_phase,0,7)] (res b1))

/-- States that meet the hypotheses of each clause of `Obligations.SubstitutionMovesNumbers`. -/
theorem witness_SubstitutionMovesNumbers :
    (∃ s : State, ∃ p : Fin 64, ∃ x : Subst,
        s.substOf p = some x ∧ s.inSit = false ∧ s.packDark p = false ∧ s.arrFenced x.array = true ∧ x.array < 512 ∧
          s.reservePos p = none) ∧
    (∃ s : State, ∃ p : Fin 64, ∃ x : Subst, ∃ q,
        s.substOf p = some x ∧ s.inSit = false ∧ s.packDark p = false ∧ s.arrFenced x.array = true ∧ x.array < 512 ∧
          s.reservePos p = some q ∧ x.swap = false) ∧
    (∃ s : State, ∃ port : Fin 2, ∃ a : Fin 512, s.Open port .unit ∧ s.rd F.fltSwap_go 0 = 0 ∧ s.arrVacant a = true) ∧
    (∃ s : State, ∃ port : Fin 2, ∃ a : Fin 512,
        s.Open port .unit ∧ s.rd F.fltSwap_go 0 = 0 ∧ s.arrVacant a = false ∧ s.substBusy (arrPack a) = false ∧
          s.arrFenced a = false ∧ s.packDark (arrPack a) = false ∧ (s.reservePos (arrPack a)).isSome = true ∧
          s.inRegion a = false) ∧
    (∃ s : State, ∃ site : Fin 576, ∃ a : Nat,
        s.rd F.idnState_panelState 0 = 0 ∧ s.rd F.idnState_phase 0 = 7 ∧ site.val ∉ s.boot.knownDone ∧ site.val ∉
          s.faults.awaitKat ∧ s.siteFitted site = true ∧ (s.rd F.fltReserve_failedSites (sitePack site)).testBit
          (sitePos site) = false ∧ s.arrayAt site = some a ∧ mfind s.faults.fenced a = none ∧ s.arrFenced a = false) :=
  ⟨⟨s199, 0, (((s199.substOf 0).toList)[0]'(by decide +kernel)), by decide +kernel⟩,
   ⟨s200, 0, (((s200.substOf 0).toList)[0]'(by decide +kernel)),
       (((s200.reservePos 0).toList)[0]'(by decide +kernel)), by decide +kernel⟩,
   ⟨(b1.wr F.fabSite_state 3 1), 0, 3, by decide +kernel⟩,
   ⟨b1, 0, 3, by decide +kernel⟩,
   ⟨s203, (Fin.ofNat 576 (s203.siteOf 3)),
       (((s203.arrayAt (Fin.ofNat 576 (s203.siteOf 3))).toList)[0]'(by decide +kernel)), by decide +kernel⟩⟩

end Sys2Proof.Tests.SubstitutionMovesNumbers

namespace Sys2Proof.Tests.PacksHalvesAndHealth

def F1 (s : State) (f : FaultState → FaultState) : State := { s with faults := f s.faults }

def b1 := base0

def dk (p : Nat) (s : State) : State := put [(F.fltPackDark_dark,0,2^p)] s

def ct : ChainTile := { railUp := true, islandRunning := true, routerRailUp := true }

def rp (t : ChainTile) (sil : Bool := false) : ChainReport :=
  { silent := sil, tiles := List.replicate 9 t, hubTemp := some (-5) }

/-- States that meet the hypotheses of each clause of `Obligations.PacksHalvesAndHealth`. -/
theorem witness_PacksHalvesAndHealth :
    (∃ s : State, ∃ p : Fin 64, s.packFitted p = true ∧ s.packDark p = false ∧ s.boot.busesUp = true) ∧
    (∃ s : State, ∃ port : Fin 2, ∃ p : Fin 64,
        s.Open port .unit ∧ s.rd F.fltPackCmd_retry 0 = 0 ∧ (s.packDark p = false ∨ 3 ≤ mget s.faults.retries p 0)) ∧
    (∃ s : State, ∃ port : Fin 2, ∃ p : Fin 64,
        s.Open port .unit ∧ s.rd F.fltPackCmd_retry 0 = 0 ∧ s.packDark p = true ∧ mget s.faults.retries p 0 < 3) ∧
    (∃ s : State, ∃ p : Fin 64, s.packFitted p = true ∧ (s.inSit && s.sit.all) = false) ∧
    (∃ s : State, ∃ u : Nat, ∃ row : Fin 5,
        s.conflict u row = true ∧ s.inSit = false ∧ (∀ q ∈ s.faults.tests, q.1 ≠ u) ∧ row.val = 4) ∧
    (∃ s : State, ∃ u : Nat, ∃ row : Fin 5,
        s.conflict u row = true ∧ s.inSit = false ∧ (∀ q ∈ s.faults.tests, q.1 ≠ u) ∧ row.val ∈ [0, 2, 3] ∧ u < 576) ∧
    (∃ s : State, ∃ u : Nat, ∃ row : Fin 5,
        s.conflict u row = true ∧ s.inSit = false ∧ (∀ q ∈ s.faults.tests, q.1 ≠ u) ∧ row.val = 1 ∧ u < 576) ∧
    (∃ s : State, ∃ u : Nat, ∃ row : Nat,
        (s.faults.tests.find? (fun t => t.1 == u) = some (u, row)) ∧ s.inSit = false) ∧
    (∃ s : State, ∃ port : Fin 2, s.Open port .unit ∧ s.rd F.prtHalf_stop 0 = 0 ∧ s.rd F.prtHalf_state 0 = 0) ∧
    (∃ s : State, ∃ port : Fin 2, s.Open port .unit ∧ s.rd F.prtHalf_stop 0 = 0 ∧ s.rd F.prtHalf_state 0 ≠ 0) ∧
    (∃ s : State, ∃ port : Fin 2,
        s.Open port .unit ∧ s.rd F.prtHalf_start 0 = 0 ∧ s.rd F.prtHalf_state 0 = 2 ∧
          (∃ p ∈ s.packList, 32 ≤ p ∧ s.packDark p = false)) ∧
    (∃ s : State, ∃ port : Fin 2, s.Open port .unit ∧ s.rd F.prtHalf_start 0 = 0 ∧ s.rd F.prtHalf_state 0 ≠ 2) :=
  ⟨⟨b1, 0, by decide +kernel⟩,
   ⟨b1, 0, 0, by decide +kernel⟩,
   ⟨(F1 (dk 0 b1) (fun f => { f with retries := [(0, 2)], fenced := (List.range 8).map (fun a => (a, 7)) })), 0, 0,
       by decide +kernel⟩,
   ⟨b1, 0, by decide +kernel⟩,
   ⟨(F1 b1 (fun f => { f with chain := [(0, rp ct true)] })), 576, 4, by decide +kernel⟩,
   ⟨(F1 b1 (fun f => { f with chain := [(0, rp { ct with routerRailUp := false })] })), (b1.siteOf 3), 3,
       by decide +kernel⟩,
   ⟨(F1 b1 (fun f => { f with chain := [(0, rp { ct with railUp := false })] })), (b1.siteOf 3), 1,
       by decide +kernel⟩,
   ⟨(F1 (put [(F.fabSite_fenced, 3, 1)] b1)
             (fun f => { f with tests := [(b1.siteOf 3, 1), (7, 0)], fenced := [(0, 4), (3, 4)] })), (b1.siteOf 3),
       1, by decide +kernel⟩,
   ⟨b1, 0, by decide +kernel⟩,
   ⟨(put [(F.prtHalf_state, 0, 1)] b1), 0, by decide +kernel⟩,
   ⟨(put [(F.prtHalf_state, 0, 2)] b1), 0, by decide +kernel⟩,
   ⟨b1, 0, by decide +kernel⟩⟩

end Sys2Proof.Tests.PacksHalvesAndHealth

namespace Sys2Proof.Tests.PacketsActAndAreAnswered

def b1 := base0

def dat (n : Nat) : List Byte := (List.range n).map (fun i => BitVec.ofNat 8 (i * 7))

def wp (noack : Bool) (src : Endpoint := .tile 9) : Packet :=
  { body := .write, dst := .tile 3, src := src, off := 4000, payload := dat 300, rtag := 5, noack := noack }

def own3 (s : State) : State := put [(F.tmRgn_wperm,3*16,3), (F.tmRgn_rperm,3*16,3)] s

def pS (p : Packet) : List State :=
  [netp p b1, netp p (own3 b1), netp p (put [(F.tmRgn_valid,3*16,0),(F.tmRgn_valid,3*16+1,0)] b1)]

def pk1 : List Packet :=
  [wp false, wp true, wp false (.host 0), { wp false with ctrEn := true, ctr := 63 },
      { (wp false) with body := .readReq 300, payload := [] }, { (wp false) with body := .atomic 1 },
      { (wp false) with body := .atomic 2 }, { (wp true) with body := .signal 0xFFFFFFFF, ctr := 5 },
      { (wp false) with body := .signal 1, ctr := 5 }, { (wp false) with body := .service 1, cls := 3 }]

def s216 : State := ((pk1.flatMap pS)[1]'(by decide +kernel))

def s217 : State := ((pk1.flatMap pS)[2]'(by decide +kernel))

def s218 : State := ((pk1.flatMap pS)[10]'(by decide +kernel))

def s219 : State := ((pk1.flatMap pS)[13]'(by decide +kernel))

def s220 : State := ((pk1.flatMap pS)[16]'(by decide +kernel))

def s221 : State := ((pk1.flatMap pS)[21]'(by decide +kernel))

def s222 : State := ((pk1.flatMap pS)[27]'(by decide +kernel))

/-- States that meet the hypotheses of each clause of `Obligations.PacketsActAndAreAnswered`. -/
theorem witness_PacketsActAndAreAnswered :
    (∃ s : State, ∃ p : Packet, ∃ a : Nat, ∃ n : Nat,
        s.Takes p a ∧ s.flips = [] ∧ p.body = .write ∧ 1 ≤ p.payload.length ∧ p.payload.length ≤ 4096 ∧ s.initWaits
          p p.payload.length = false ∧ p.ctrEn = false ∧ s.region a p.off p.payload.length = some n ∧ s.mayWrite a n
          (whoOf p a) p.off p.payload.length = true) ∧
    (∃ s : State, ∃ p : Packet, ∃ a : Nat,
        s.Takes p a ∧ s.flips = [] ∧ p.body = .write ∧ 1 ≤ p.payload.length ∧ p.payload.length ≤ 4096 ∧ s.initWaits
          p p.payload.length = false ∧ p.ctrEn = false ∧ s.region a p.off p.payload.length = none) ∧
    (∃ s : State, ∃ p : Packet, ∃ a : Nat, ∃ n : Nat,
        s.Takes p a ∧ s.flips = [] ∧ p.body = .write ∧ 1 ≤ p.payload.length ∧ p.payload.length ≤ 4096 ∧ s.initWaits
          p p.payload.length = false ∧ p.ctrEn = true ∧ p.ctr < 64 ∧ s.region a p.off p.payload.length = some n ∧
          s.mayWrite a n (whoOf p a) p.off p.payload.length = true) ∧
    (∃ s : State, ∃ p : Packet, ∃ a : Nat, ∃ n : Nat, ∃ len,
        s.Takes p a ∧ s.flips = [] ∧ p.body = .readReq len ∧ 1 ≤ len ∧ len ≤ 4096 ∧ s.initWaits p len = false ∧
          s.region a p.off len = some n ∧ s.mayRead a n (readerOf p a) p.off len = true) ∧
    (∃ s : State, ∃ p : Packet, ∃ a : Nat, ∃ n : Nat, ∃ op,
        s.Takes p a ∧ s.flips = [] ∧ p.body = .atomic op ∧ 1 ≤ op ∧ op ≤ 2 ∧ 1 ≤ p.payload.length ∧ p.payload.length
          ≤ 4096 ∧ p.payload.length % 4 = 0 ∧ p.off % 4 = 0 ∧ s.initWaits p p.payload.length = false ∧ s.region a
          p.off p.payload.length = some n ∧ s.mayWrite a n (whoOf p a) p.off p.payload.length = true ∧ p.ctrEn =
          false) ∧
    (∃ s : State, ∃ p : Packet, ∃ a : Nat, ∃ v, s.Takes p a ∧ s.flips = [] ∧ p.body = .signal v ∧ p.ctr < 64) ∧
    (∃ s : State, ∃ p : Packet, ∃ a : Nat, ∃ k, s.Takes p a ∧ s.flips = [] ∧ p.body = .service k) :=
  ⟨⟨s216, ((s216.net)[0]'(by decide +kernel)), 3, 0, by decide +kernel⟩,
   ⟨s217, ((s217.net)[0]'(by decide +kernel)), 3, by decide +kernel⟩,
   ⟨s218, ((s218.net)[0]'(by decide +kernel)), 3, 0, by decide +kernel⟩,
   ⟨s219, ((s219.net)[0]'(by decide +kernel)), 3, 0, 300, by decide +kernel⟩,
   ⟨s220, ((s220.net)[0]'(by decide +kernel)), 3, 0, 1, by decide +kernel⟩,
   ⟨s221, ((s221.net)[0]'(by decide +kernel)), 3, 0xFFFFFFFF, by decide +kernel⟩,
   ⟨s222, ((s222.net)[0]'(by decide +kernel)), 3, 1, by decide +kernel⟩⟩

end Sys2Proof.Tests.PacketsActAndAreAnswered

namespace Sys2Proof.Tests.AnswersRetireRequests

def b1 := base0

def dat (n : Nat) : List Byte := (List.range n).map (fun i => BitVec.ofNat 8 (i * 7))

def own3 (s : State) : State := put [(F.tmRgn_wperm,3*16,3), (F.tmRgn_rperm,3*16,3)] s

def fl : Flight := { n := 40, await := .replies, out := [7], reads := [(1,2)] }

def rq (b : PktBody) : Req :=
  {
      src := .tile 3, array := 3, flight := 40, loc := 0x700,
      pkt := { body := b, dst := .tile 9, src := .tile 3, rtag := 7 } }

def ansS (b : PktBody) (p : Packet) (f : Flight := fl) : State :=
  netp { p with rtag := 7, reply := true, dst := .tile 3, src := .tile 9 }
    (own3 { b1 with reqs := [(5, rq .write), (7, rq b)], arrays := [(3, { flights := [f] })] })

def bodies : List PktBody :=
  [.write, .atomic 1, .signal 2, .channelItem 1 1 63 0 0 1, .channelItem 1 0 3 0 0 1, .stepMsg (.cancel 1),
      .tokenClaim 1 1 1 1 1]

def aS : List State :=
  bodies.flatMap (fun b => [ansS b { body := .ack 1 0 0, cls := 2 }, ansS b { body := .ack 1 2 7, cls := 2 },
          ansS b { body := .nack, status := 1 }, ansS b { body := .nack, status := 3 }]) ++
    [ansS (.readReq 300) { body := .readData, payload := dat 300 }] -- channels

def s223 : State := ((aS)[0]'(by decide +kernel))

def s224 : State := ((aS)[2]'(by decide +kernel))

def s225 : State := ((aS)[28]'(by decide +kernel))

def s226 : State := ((aS)[0]'(by decide +kernel))

/-- States that meet the hypotheses of each clause of `Obligations.AnswersRetireRequests`. -/
theorem witness_AnswersRetireRequests :
    (∃ s : State, ∃ p : Packet, ∃ q : Req, ∃ a : Nat, ∃ f : Flight, ∃ c, ∃ result, ∃ epoch,
        s.LastReply p q a f ∧ (∀ len, q.pkt.body ≠ .readReq len) ∧ p.body = .ack c result epoch) ∧
    (∃ s : State, ∃ p : Packet, ∃ q : Req, ∃ a : Nat, ∃ f : Flight,
        s.LastReply p q a f ∧ (∀ len, q.pkt.body ≠ .readReq len) ∧ p.body = .nack ∧ p.status ≠ 0 ∧ f.copies = 0 ∧
          f.status = 0) ∧
    (∃ s : State, ∃ p : Packet, ∃ q : Req, ∃ a : Nat, ∃ f : Flight, ∃ len,
        s.LastReply p q a f ∧ q.pkt.body = .readReq len ∧ p.body = .readData ∧ s.flips = [] ∧ s.ownOk a q.loc
          (q.loc + p.payload.length) = true) ∧
    (∃ s : State, ∃ q : Req, ∃ a : Nat, ∃ f : Flight, ∃ tag,
        mfind s.reqs tag = some q ∧ (∀ w ∈ s.tc0Wait, ∀ e ∈ w.2, e.2.rtag ≠ tag) ∧ q.pkt.route.held = false ∧
          s.dstHalted { q.pkt with dst := q.src } = false ∧ q.src = .tile a ∧ q.array = a ∧ q.flight = f.n ∧
          q.flight ≠ 0 ∧ q.descr = none ∧ q.fifo = none ∧ q.expert = 0 ∧ s.inReset a = false ∧ (s.arr a).flights =
          [f] ∧ f.await = .replies ∧ f.out = [tag] ∧ f.copies = 0 ∧ f.status = 0) :=
  ⟨⟨s223, ((s223.net)[0]'(by decide +kernel)), (((mfind s223.reqs 7).toList)[0]'(by decide +kernel)), 3,
       (((s223.arr 3).flights)[0]'(by decide +kernel)), 1, 0, 0, by decide +kernel, notRead_of (by decide +kernel),
       by decide +kernel⟩,
   ⟨s224, ((s224.net)[0]'(by decide +kernel)), (((mfind s224.reqs 7).toList)[0]'(by decide +kernel)), 3,
       (((s224.arr 3).flights)[0]'(by decide +kernel)), by decide +kernel, notRead_of (by decide +kernel),
       by decide +kernel, by decide +kernel, by decide +kernel, by decide +kernel⟩,
   ⟨s225, ((s225.net)[0]'(by decide +kernel)), (((mfind s225.reqs 7).toList)[0]'(by decide +kernel)), 3,
       (((s225.arr 3).flights)[0]'(by decide +kernel)), 300, by decide +kernel⟩,
   ⟨s226, (((mfind s226.reqs 7).toList)[0]'(by decide +kernel)), 3, (((s226.arr 3).flights)[0]'(by decide +kernel)),
       7, by decide +kernel⟩⟩

end Sys2Proof.Tests.AnswersRetireRequests

namespace Sys2Proof.Tests.ItemsAreQueuedAndTaken

def b1 := base0

def dat (n : Nat) : List Byte := (List.range n).map (fun i => BitVec.ofNat 8 (i * 7))

def epS (role : Nat) (l : List (Fld × Nat × Nat)) (s : State) : State :=
  put ([(F.chEp_role, epKey 3 9, role), (F.chEpState_state, epKey 3 9, 1), (F.chEpState_epoch, epKey 3 9, 77),
          (F.chEp_peerArray, epKey 3 9, 9), (F.chEp_peerEp, epKey 3 9, 4)] ++ l) s

def itm (ep epoch : Nat) (mode : Nat := 0) (n : Nat := 300) : Packet :=
  { pk (.channelItem 9 mode 4 epoch 0 0) (.tile 9) (.tile 3) 5 with cls := 2, noack := false, payload := dat n }

def comb : Packet :=
  { pk (.channelItem 9 1 4 77 2 1) (.tile 9) (.tile 3) 5 with cls := 2, noack := false, payload := dat 64 }

def cbS (f : Nat) (l : List (Nat × Nat)) : State :=
  netp comb { epS 5 [(F.chEpState_batch, epKey 3 9, 1), (F.chEp_inFmt, epKey 3 9, f),
        (F.chEp_elems16, epKey 3 9, 1), (F.chEp_accLine, epKey 3 9, 100)] b1 with
      eps := [(epKey 3 9, { expected := [(2, 3)], arrived := l })] }

def rcvRec : Record := recOf [(0,0,8,0x24),(8,0,6,9),(12,0,26,0x8000),(16,0,32,0x400),(20,0,26,0xd000)]

def rcv (q : List Item) (l : List (Fld × Nat × Nat)) : State :=
  { epS 3 l b1 with
      arrays := [(3, { flights := [{ n := 40, record := rcvRec, await := .item 9 }], run := some run3 })],
      eps := [(epKey 3 9, { queue := q })] }

def spl (s : State) : State :=
  poke (poke (s.wr F.chEpState_spilled (epKey 3 9) 2) (s.siteOf 3) (1008*65536 + 64*3)
        (leBytes 1 1 ++ leBytes 1 9 ++ leBytes 2 20 ++ leBytes 2 77 ++ leBytes 2 9 ++ leBytes 8 5 ++ leBytes 4 6))
    (s.siteOf 3) (1008*65536 + 16384 + 4096*3) (dat 20)

def s227 : State := (netp (itm 9 77) (epS 3 [] b1))

def s228 : State := (netp (itm 9 76) (epS 3 [] b1))

def s230 : State := (rcv [{data := dat 300, src := 9, epoch := 77}] [])

/-- States that meet the hypotheses of each clause of `Obligations.ItemsAreQueuedAndTaken`. -/
theorem witness_ItemsAreQueuedAndTaken :
    (∃ s : State, ∃ p : Packet, ∃ a : Nat, ∃ e : Nat, ∃ mode : Nat, ∃ srcEp : Nat, ∃ epoch : Nat, ∃ b : Nat,
        ∃ x : Nat, ∃ y : Nat,
        s.Takes p a ∧ p.body = .channelItem e mode srcEp epoch x y ∧ p.src = .tile b ∧ e < 64 ∧ mode ≠ 1 ∧ mode ≠ 3
          ∧ s.itemFits a e mode b srcEp p.reply = true ∧ s.epOpen a e = true ∧ epoch = s.epEpoch a e ∧ s.rd
          F.chEpState_spilled (epKey a e) = 0 ∧ (s.ep a e).used + itemEntries p.payload.length ≤ 32) ∧
    (∃ s : State, ∃ p : Packet, ∃ a : Nat, ∃ e : Nat, ∃ mode : Nat, ∃ srcEp : Nat, ∃ epoch : Nat, ∃ b : Nat,
        ∃ x : Nat, ∃ y : Nat,
        s.Takes p a ∧ p.body = .channelItem e mode srcEp epoch x y ∧ p.src = .tile b ∧ e < 64 ∧ mode ≠ 1 ∧ mode ≠ 3
          ∧ s.itemFits a e mode b srcEp p.reply = true ∧ s.epOpen a e = true ∧ epoch ≠ s.epEpoch a e ∧ s.placeWaits
          a e p.payload.length = false) ∧
    (∃ s : State, ∃ p : Packet, ∃ a : Nat, ∃ e : Nat, ∃ srcEp : Nat, ∃ epoch : Nat, ∃ slot : Nat, ∃ fmt : Nat,
        ∃ n : Nat, ∃ el : Nat,
        s.Takes p a ∧ p.body = .channelItem e 1 srcEp epoch slot fmt ∧ e < 64 ∧ s.epRole a e = 5 ∧ s.epOpen a e =
          true ∧ s.rd F.chEpState_batch (epKey a e) ≠ 0 ∧ fmt = s.rd F.chEp_inFmt (epKey a e) ∧ fmt ∈ [1, 2, 3, 14]
          ∧ el = s.combElems a e ∧ p.payload.length = el * fmtWidth fmt / 8 ∧ s.combWaits a e slot = false ∧ mget
          (s.ep a e).arrived slot 0 < mget (s.ep a e).expected slot 0 ∧ s.flips = [] ∧ s.region a
          (s.combBase a e + slot * el * 4) (el * 4) = some n ∧ s.recvWaiting a e = none ∧ s.mayWrite a n .channel
          (s.combBase a e + slot * el * 4) (el * 4) = true) ∧
    (∃ s : State, ∃ a : Fin 512, ∃ e : Fin 64, ∃ f : Flight, ∃ it : Item, ∃ rest : List Item,
        s.recvWaiting a e = some f ∧ s.flight a f.n = some f ∧ (s.ep a e).queue = it :: rest ∧ s.halted
          (s.arrIsland a) = false ∧ s.rangesStall a f.writes = false ∧ it.bad = false ∧ it.data.length ≤ Rf f.record
          16 0 32 ∧ s.flips = [] ∧ s.ownOk a (Rf f.record 12 0 26) (Rf f.record 12 0 26 + it.data.length) = true ∧
          s.ownOk a (Rf f.record 20 0 26) (Rf f.record 20 0 26 + 8) = true) ∧
    (∃ s : State, ∃ a : Fin 512, ∃ e : Fin 64, ∃ slot : Nat, ∃ n : Nat, ∃ base : Nat, ∃ size : Nat, ∃ k : Nat,
        s.oldestSlot a e = some slot ∧ s.spillArea a = some (n, base, size, k) ∧ s.halted (s.arrIsland a) = false ∧
          s.spillBusy a = false ∧ (s.ep a e).used + itemEntries (s.slotHdr a base slot 2 2) ≤ 32 ∧ s.flips = []) :=
  ⟨⟨s227, ((s227.net)[0]'(by decide +kernel)), 3, 9, 0, 4, 77, 9, 0, 0, by decide +kernel⟩,
   ⟨s228, ((s228.net)[0]'(by decide +kernel)), 3, 9, 0, 4, 76, 9, 0, 0, by decide +kernel⟩,
   ⟨(cbS 1 []), (((cbS 1 []).net)[0]'(by decide +kernel)), 3, 9, 4, 77, 2, 1, 0, 16, by decide +kernel⟩,
   ⟨s230, 3, 9, (((s230.recvWaiting 3 9).toList)[0]'(by decide +kernel)),
       (((s230.ep 3 9).queue.take 1)[0]'(by decide +kernel)), (s230.ep 3 9).queue.drop 1, by decide +kernel⟩,
   ⟨(spl (rcv [] [])), 3, 9, 3, 15, (1008*65536), 1048576, 252, by decide +kernel⟩⟩

end Sys2Proof.Tests.ItemsAreQueuedAndTaken

namespace Sys2Proof.Tests.NoticesAndBlockedSends

def b1 := base0

def dat (n : Nat) : List Byte := (List.range n).map (fun i => BitVec.ofNat 8 (i * 7))

def epS (role : Nat) (l : List (Fld × Nat × Nat)) (s : State) : State :=
  put ([(F.chEp_role, epKey 3 9, role), (F.chEpState_state, epKey 3 9, 1), (F.chEpState_epoch, epKey 3 9, 77),
          (F.chEp_peerArray, epKey 3 9, 9), (F.chEp_peerEp, epKey 3 9, 4)] ++ l) s

def cr (op ep : Nat) (na : Bool) : Packet :=
  { pk (.channelCredit 9 4 op ep) (.tile 9) (.tile 3) 6 with cls := 2, noack := na }

def oi (since : Option Nat) (rtag : Nat := 0) (sus : Bool := false) : OutItem :=
  { data := dat 100, flight := 40, rtag := rtag, since := since, suspect := sus }

def oS (l : List OutItem) (role : Nat) (op : Nat) : State :=
  netp (cr op 78 true) { epS role [(F.chCfg_tmo10us, 3, 5)] b1 with
      eps := [(epKey 3 9, { outs := l, queried := true, peerEpoch := 70 })],
      arrays := [(3,
              {
                  flights := [{
                          n := 40,
                          record := recOf [(0, 0, 8, 0x23), (8, 0, 6, 9), (12, 0, 26, 0x8000), (16, 0, 32, 100),
                              (20, 0, 26, 0xd000)], await := .answer 9 }], run := some run3 })] }

def nS : List State :=
  [1, 2, 3, 4, 6].flatMap (fun role => [0, 1, 2, 3, 4].flatMap (fun op => [oS [] role op, oS [oi none] role op,
              oS [oi (some 5)] role op, oS [oi (some 5) 7] role op, oS [oi (some 5) 0 true] role op]))

def s232 : State := ((nS)[2]'(by decide +kernel))

def s233 : State := ((nS)[0]'(by decide +kernel))

def s234 : State := ((nS)[6]'(by decide +kernel))

def s235 : State := ((nS)[10]'(by decide +kernel))

def s236 : State := ((nS)[15]'(by decide +kernel))

def s237 : State := ((nS)[20]'(by decide +kernel))

def s238 : State := ((nS)[2]'(by decide +kernel))

def s239 : State := ((nS)[2]'(by decide +kernel))

def s240 : State := ((nS)[2]'(by decide +kernel))

/-- States that meet the hypotheses of each clause of `Obligations.NoticesAndBlockedSends`. -/
theorem witness_NoticesAndBlockedSends :
    (∃ s : State, ∃ p : Packet, ∃ a : Nat, ∃ e : Nat, ∃ b : Nat, ∃ srcEp : Nat, ∃ op : Nat, ∃ epoch : Nat, ∃ o,
        s.Takes p a ∧ p.body = .channelCredit e srcEp op epoch ∧ p.src = .tile b ∧ e < 64 ∧ op = 0 ∧ s.epPeer a e =
          (b, srcEp) ∧ (s.ep a e).outs = [o] ∧ o.since.isSome = true ∧ o.rtag = 0) ∧
    (∃ s : State, ∃ p : Packet, ∃ a : Nat, ∃ e : Nat, ∃ b : Nat, ∃ srcEp : Nat, ∃ op : Nat, ∃ epoch : Nat,
        s.Takes p a ∧ p.body = .channelCredit e srcEp op epoch ∧ p.src = .tile b ∧ e < 64 ∧ op = 0 ∧ s.epPeer a e =
          (b, srcEp) ∧ (s.ep a e).outs = []) ∧
    (∃ s : State, ∃ p : Packet, ∃ a : Nat, ∃ e : Nat, ∃ b : Nat, ∃ srcEp : Nat, ∃ op : Nat, ∃ epoch : Nat, ∃ o,
        s.Takes p a ∧ p.body = .channelCredit e srcEp op epoch ∧ p.src = .tile b ∧ e < 64 ∧ op = 1 ∧ s.epPeer a e =
          (b, srcEp) ∧ roleSends (s.epRole a e) = true ∧ (s.ep a e).outs = [o] ∧ o.since = none ∧ o.rtag = 0) ∧
    (∃ s : State, ∃ p : Packet, ∃ a : Nat, ∃ e : Nat, ∃ b : Nat, ∃ srcEp : Nat, ∃ op : Nat, ∃ epoch : Nat,
        s.Takes p a ∧ p.body = .channelCredit e srcEp op epoch ∧ p.src = .tile b ∧ e < 64 ∧ op = 2 ∧ s.epPeer a e =
          (b, srcEp) ∧ roleSends (s.epRole a e) = true ∧ (s.ep a e).outs = []) ∧
    (∃ s : State, ∃ p : Packet, ∃ a : Nat, ∃ e : Nat, ∃ b : Nat, ∃ srcEp : Nat, ∃ op : Nat, ∃ epoch : Nat,
        s.Takes p a ∧ p.body = .channelCredit e srcEp op epoch ∧ p.src = .tile b ∧ e < 64 ∧ op = 3) ∧
    (∃ s : State, ∃ p : Packet, ∃ a : Nat, ∃ e : Nat, ∃ b : Nat, ∃ srcEp : Nat, ∃ op : Nat, ∃ epoch : Nat,
        s.Takes p a ∧ p.body = .channelCredit e srcEp op epoch ∧ p.src = .tile b ∧ e < 64 ∧ op = 4 ∧ s.epPeer a e =
          (b, srcEp)) ∧
    (∃ s : State, ∃ a : Fin 512, ∃ e : Fin 64, ∃ o : OutItem,
        s.halted (s.arrIsland a) = false ∧ (s.ep a e).outs = [o] ∧ o.since.isSome = true ∧ o.rtag = 0) ∧
    (∃ s : State, ∃ a : Fin 512, ∃ e : Fin 64, ∃ o : OutItem,
        s.halted (s.arrIsland a) = false ∧ (s.ep a e).outs = [o] ∧ o.since.isSome = true ∧ o.suspect = false) ∧
    (∃ s : State, ∃ a : Fin 512, ∃ e : Fin 64, ∃ o : OutItem, ∃ f,
        s.halted (s.arrIsland a) = false ∧ (s.ep a e).outs = [o] ∧ o.since.isSome = true ∧ s.rd F.chCfg_tmo10us a ≠
          0 ∧ s.flight a o.flight = some f ∧ s.flips = [] ∧ s.ownOk a (Rf f.record 20 0 26)
          (Rf f.record 20 0 26 + 8) = true) :=
  ⟨⟨s232, ((s232.net)[0]'(by decide +kernel)), 3, 9, 9, 4, 0, 78, (((s232.ep 3 9).outs)[0]'(by decide +kernel)),
       by decide +kernel⟩,
   ⟨s233, ((s233.net)[0]'(by decide +kernel)), 3, 9, 9, 4, 0, 78, by decide +kernel⟩,
   ⟨s234, ((s234.net)[0]'(by decide +kernel)), 3, 9, 9, 4, 1, 78, (((s234.ep 3 9).outs)[0]'(by decide +kernel)),
       by decide +kernel⟩,
   ⟨s235, ((s235.net)[0]'(by decide +kernel)), 3, 9, 9, 4, 2, 78, by decide +kernel⟩,
   ⟨s236, ((s236.net)[0]'(by decide +kernel)), 3, 9, 9, 4, 3, 78, by decide +kernel⟩,
   ⟨s237, ((s237.net)[0]'(by decide +kernel)), 3, 9, 9, 4, 4, 78, by decide +kernel⟩,
   ⟨s238, 3, 9, (((s238.ep 3 9).outs)[0]'(by decide +kernel)), by decide +kernel⟩,
   ⟨s239, 3, 9, (((s239.ep 3 9).outs)[0]'(by decide +kernel)), by decide +kernel⟩,
   ⟨s240, 3, 9, (((s240.ep 3 9).outs)[0]'(by decide +kernel)), (((s240.arr 3).flights)[0]'(by decide +kernel)),
       by decide +kernel⟩⟩

end Sys2Proof.Tests.NoticesAndBlockedSends

namespace Sys2Proof.Tests.GathersPassThroughHubs

def b1 := base0

def dat (n : Nat) : List Byte := (List.range n).map (fun i => BitVec.ofNat 8 (i * 7))

def dn (handle fmt elems rowStride homeMask rpp total segBase units : Nat) : Nat :=
  handle + fmt * 2^16 + elems * 2^32 + rowStride * 2^48 + homeMask * 2^64 + rpp * 2^128 + total * 2^160 + segBase *
    2^192 + units * 2^288

def d1 := dn 7 1 16 1 6 10 20 0x1000 10

def withT (l : List Nat) (s : State) : State :=
  { s with
      tables := l.map (fun v => ((descOf v).handle, descOf v)),
      dir :=
        (l.flatMap (fun v => (Table.hubs (descOf v)).map (fun p => (p * 65536 + (descOf v).handle, descOf v)))) }

def g0 : Gather :=
  {
      array := 3, flight := 40, table := 7, nbags := 2, pool := 0, ccw := 1, packs := 6,
      dst := { array := 9, off := 0x800 }, dstStride := 64, list := [(0, 0, 0), (11, 1, 0)], rtag := 33 }

def hp (b : PktBody) (h : Nat) : Packet := { pk b (.tile 3) (.hub h) 33 with cls := 2 }

def gs (g : Gather) (p : Packet) : State :=
  netp p { withT [d1] b1 with gathers := [(1, g)], stack := stk [(1, 0x1000, 5), (1, 0x1003, 9), (2, 0x1043, 9)] }

def s241 : State := (gs g0 (hp (.gatherReserve 1 0 6) 1))

def s242 : State := (gs {g0 with reserved := 6, list := List.replicate 600 (0,0,0)} (hp (.gatherList 1 0) 1))

def s243 : State := (gs {g0 with reserved := 6} (hp (.gatherList 1 0) 1))

def s244 : State := (gs {g0 with reserved := 6, pool := 1} { hp (.bagPart 1 1 0 1 5) 2 with payload := dat 64 })

def s245 : State :=
  (put [(F.tmRgn_wperm, 9*16, 3)] (gs { g0 with reserved := 6 } { hp (.bagPart 1 1 0 1 1) 2 with
              dst := .tile 9, src := .hub 2, payload := dat 64, off := 0x840, noack := false }))

/-- States that meet the hypotheses of each clause of `Obligations.GathersPassThroughHubs`. -/
theorem witness_GathersPassThroughHubs :
    (∃ s : State, ∃ p : Packet, ∃ gid : Nat, ∃ g : Gather, ∃ h, ∃ w, ∃ packs,
        mfind s.gathers gid = some g ∧ s.ReachesHub p h ∧ p.body = .gatherReserve gid w packs ∧ mfind s.hubWait h =
          none ∧ s.tblHeld gid = false ∧ (s.hubBytes h g = 0 ∨ mget s.hubUsed h 0 + s.hubBytes h g ≤ 4194304)) ∧
    (∃ s : State, ∃ p : Packet, ∃ gid : Nat, ∃ g : Gather, ∃ h, ∃ c,
        mfind s.gathers gid = some g ∧ s.ReachesHub p h ∧ p.body = .gatherList gid c ∧ mget g.got h 0 + 1 < ceilDiv
          (8 * g.list.length) 4096) ∧
    (∃ s : State, ∃ p : Packet, ∃ gid : Nat, ∃ g : Gather, ∃ h, ∃ c, ∃ d,
        mfind s.gathers gid = some g ∧ s.ReachesHub p h ∧ p.body = .gatherList gid c ∧ ceilDiv (8 * g.list.length)
          4096 ≤ mget g.got h 0 + 1 ∧ s.hubStatus h g = 0 ∧ s.dirAt h g.table = some d ∧ g.failed = [] ∧ g.bagsDone
          < g.nbags ∧ s.stackErr = []) ∧
    (∃ s : State, ∃ p : Packet, ∃ gid : Nat, ∃ g : Gather, ∃ h, ∃ bag, ∃ lo, ∃ hi, ∃ count,
        mfind s.gathers gid = some g ∧ s.ReachesHub p h ∧ p.body = .bagPart gid bag lo hi count ∧ g.failed = [] ∧
          g.bagsDone < g.nbags) ∧
    (∃ s : State, ∃ p : Packet, ∃ gid : Nat, ∃ g : Gather, ∃ a, ∃ n, ∃ bag, ∃ lo, ∃ hi, ∃ count, ∃ bytes,
        mfind s.gathers gid = some g ∧ s.Takes p a ∧ p.body = .bagPart gid bag lo hi count ∧ s.flips = [] ∧ p.ctrEn
          = false ∧ bytes = bagBytes g bag count (unpackElems 32 (p.payload.length / 4) p.payload) ∧ s.initWaits p
          bytes.length = false ∧ s.region a p.off bytes.length = some n ∧
          (s.mayWrite a n (if g.array = a then .own else .array g.array) p.off bytes.length = true)) :=
  ⟨⟨s241, ((s241.net)[0]'(by decide +kernel)), 1, ((s241.gathers.map (·.2))[0]'(by decide +kernel)), 1, 0, 6,
       by decide +kernel⟩,
   ⟨s242, ((s242.net)[0]'(by decide +kernel)), 1, ((s242.gathers.map (·.2))[0]'(by decide +kernel)), 1, 0,
       by decide +kernel⟩,
   ⟨s243, ((s243.net)[0]'(by decide +kernel)), 1, ((s243.gathers.map (·.2))[0]'(by decide +kernel)), 1, 0,
       (((s243.dirAt 1 7).toList)[0]'(by decide +kernel)), by decide +kernel⟩,
   ⟨s244, ((s244.net)[0]'(by decide +kernel)), 1, ((s244.gathers.map (·.2))[0]'(by decide +kernel)), 2, 1, 0, 1, 5,
       by decide +kernel⟩,
   ⟨s245, ((s245.net)[0]'(by decide +kernel)), 1, ((s245.gathers.map (·.2))[0]'(by decide +kernel)), 9, 0, 1, 0, 1,
       1,
       (bagBytes ((s245.gathers.map (·.2))[0]'(by decide +kernel)) 1 1 (unpackElems 32
                 (((s245.net)[0]'(by decide +kernel)).payload.length / 4)
                 ((s245.net)[0]'(by decide +kernel)).payload)), by decide +kernel⟩⟩

end Sys2Proof.Tests.GathersPassThroughHubs

namespace Sys2Proof.Tests.ReductionsDispatchAndTokens

def b1 := base0

def tp (b : PktBody) (cls : Nat := 2) : Packet := { pk b (.tile 9) (.tile 3) 33 with cls := cls }

def rs (x : RedRound) (p : Packet) : State :=
  netp p { b1 with redGroups := [(7, 2^3 + 2^4 + 2^20)], rounds := [(7, x)] }

def rsw (x : RedRound) (p : Packet) : State :=
  netp p { b1 with redGroups := [(7, 2^3 + 2^4 + 2^5)], rounds := [(7, x)] }

def prm : GAddr × Nat × Nat × Nat := ({ array := 9 }, 0, 256, 1)

def x0 : RedRound := { op := 0, contrib := [(3, List.replicate 64 5)], params := [(3, prm)], flights := [(3, 40)] }

def redRec : Record :=
  recOf [(0, 0, 8, 0x22), (8, 0, 26, 0x0), (12, 0, 32, 0x100), (16, 0, 16, 0x7), (18, 0, 8, 0x0), (19, 0, 1, 1),
      (20, 0, 42, 0x20000100), (28, 0, 16, 0x1), (32, 0, 26, 0xd000)]

def dn (p : Packet) (r : Record := redRec) : State :=
  netp p { b1 with
      redGroups := [(7, 2^3 + 2^4 + 2^20)], rounds := [(7, { x0 with serial := 33 })],
      arrays :=
        [(3, { flights := [{ n := 40, record := r, await := .reduce 7, reads := [(1, 2)] }], run := some run3 })] }

def tk (t : NMap Token) : State :=
  netp { tp (.tokenClaim 5 1 8 2 1) with noack := false } { b1 with
      tokens := t.map (fun q => (q.1 + 64 * b1.siteOf 3, q.2)) }

def me (a ctr rps inb tagb cnt : Nat) : Nat :=
  a + ctr * 2^9 + 2^15 + rps * 2^16 + inb * 2^32 + tagb * 2^64 + cnt * 2^96

def dispRec : Record :=
  recOf [(0, 0, 8, 0x25), (8, 0, 8, 0), (9, 0, 8, 3), (10, 0, 8, 2), (11, 0, 8, 2), (12, 0, 26, 0xa000),
      (16, 0, 26, 0x2000), (20, 0, 16, 0x48), (22, 0, 16, 2), (24, 0, 26, 0xc000), (28, 0, 6, 9),
      (32, 0, 26, 0xd100)]

def sw (ex pos w : Nat) : Nat := ex + 256 + pos * 2^16 + w * 2^32

def dSw : State :=
  poke (poke (put [(F.chEp_role, epKey 3 9, 5), (F.chEpState_state, epKey 3 9, 1),
              (F.chEpState_batch, epKey 3 9, 1), (F.chEp_elems16, epKey 3 9, 1)] (atRec dispRec base0)) 1 0xa000
        (leBytes 8 (sw 5 0 7))) 1 (0xc000 + 16*5) (leBytes 16 (me 20 4 2 0x1000 0x9000 0x9800))

def mapRow : MapEntry := mapEntry (me 20 4 2 0x1000 0x9000 0x9800)

def mapWords : List Nat := List.replicate 5 0 ++ me 20 4 2 0x1000 0x9000 0x9800 :: List.replicate 250 0

theorem map_read : unpackElems 128 256 (dSw.own ((3 : Fin 512) : Nat) (Rf dispRec 24 0 26) 4096) = mapWords := by
    decide +kernel

theorem entry_eq (j : Nat) : dSw.dispEntry ((3 : Fin 512) : Nat) dispRec j = (mapWords.map mapEntry).getD j
    (mapEntry 0) := by
  rw [State.dispEntry, map_read]

theorem getD_all { α : Type } { P : α → Prop } { l : List α } { d : α } (h : ∀ x ∈ l, P x) (e : P d) (j : Nat) : P
    (l.getD j d) := by
  rw [List.getD_eq_getElem?_getD]
  cases g : l[j]? with
  | none => exact e
  | some x => exact h x (List.mem_of_getElem? g)

theorem entries_aligned (j : Nat) :
    (dSw.dispEntry ((3 : Fin 512) : Nat) dispRec j).valid = true →
        (dSw.dispEntry ((3 : Fin 512) : Nat) dispRec j).cntBase % 4 = 0 ∧
      (dSw.dispEntry ((3 : Fin 512) : Nat) dispRec j).inBase % 8 = 0 ∧
          (dSw.dispEntry ((3 : Fin 512) : Nat) dispRec j).tagBase % 8 = 0 := by
  rw [entry_eq]
  exact getD_all (P := fun x : MapEntry => x.valid = true → x.cntBase % 4 = 0 ∧ x.inBase % 8 = 0 ∧ x.tagBase % 8 = 0)
    (by decide +kernel) (by decide +kernel) j

theorem slot_word : bitsAt (dSw.dispSlot ((3 : Fin 512) : Nat) dispRec 4 0) 0 8 = 5 := by decide +kernel

def dPlan : Plan :=
  {
      reads := [(40960, 40992), (49152, 53248), (8192, 8392)], writes := [(53504, 53508)], fabric := true,
      scopes := [0] }

def s246 : State := (rs {x0 with serial := 33} (tp (.reducePart 7 0 4 8 0 1)))

def s247 : State :=
  (rsw { x0 with
          serial := 33, op := 0, contrib := [(4, List.replicate 64 5)], params := [(4, prm)], flights := [(4, 40)] }
        { (tp (.redCredit 7 2)) with src := .tile 3, dst := .tile 4 })

def s248 : State := (dn (tp (.redDone 7 2 false false)))

/-- States that meet the hypotheses of each clause of `Obligations.ReductionsDispatchAndTokens`. -/
theorem witness_ReductionsDispatchAndTokens :
    (∃ s : State, ∃ p : Packet, ∃ a : Nat, ∃ g : Nat, ∃ op : Nat, ∃ lo : Nat, ∃ hi : Nat, ∃ c : Nat, ∃ n : Nat,
        ∃ x : RedRound,
        s.Takes p a ∧ p.body = .reducePart g op lo hi c n ∧ (mfind s.rounds g).isSome = true ∧ (s.round g).serial =
          p.rtag ∧ x = { (s.round g).compare a (srcUnit p.src) with
            parts := (s.round g).parts ++ [(lo, hi, c, unpackElems 32 (p.payload.length / 4) p.payload)] } ∧
          s.RoundWaits g x) ∧
    (∃ s : State, ∃ p : Packet, ∃ a : Nat, ∃ b : Nat, ∃ g : Nat, ∃ k : Nat, ∃ x : RedRound,
        s.Takes p a ∧ p.body = .redCredit g k ∧ p.src = .tile b ∧ (s.round g).serial = p.rtag ∧ redLeader
          (s.redAlive g) a (redTop (s.redAlive g) a + 1) = some b ∧ x =
          { s.round g with credits := mset (s.round g).credits a (mget (s.round g).credits a 0 + k) } ∧ s.RoundWaits
          g x) ∧
    (∃ s : State, ∃ p : Packet, ∃ a : Nat, ∃ g : Nat, ∃ counted : Nat, ∃ short : Bool, ∃ mismatch : Bool,
        ∃ f : Flight,
        s.Takes p a ∧ p.body = .redDone g counted short mismatch ∧
          ((s.round g).serial = p.rtag ∨ mfind (s.round g).contrib a = none) ∧ (s.arr a).flights = [f] ∧ f.await =
          .reduce g ∧ f.status = 0 ∧ s.flips = [] ∧ s.ownOk a (Rf f.record 32 0 26) (Rf f.record 32 0 26 + 8) =
          true) ∧
    (∃ s : State, ∃ a : Fin 512, ∃ run : StepRun, ∃ r : Record, ∃ pl : Plan, ∃ n : Nat, ∃ e : Nat, ∃ i : Nat,
        ∃ x : MapEntry,
        s.Fetches a run r .dispatchSend pl ∧ (n = (if Rf r 10 0 8 = 0 then 256 else Rf r 10 0 8) * Rf r 11 0 8) ∧ e
          = Rf r 28 0 6 ∧ s.epRole a e = 5 ∧ s.epOpen a e = true ∧ s.rd F.chEpState_batch (epKey a e) = 1 ∧
          (s.ep a e).expected = [] ∧ s.ownOk a (Rf r 12 0 26) (Rf r 12 0 26 + 8 * n) = true ∧ s.ownOk a
          (Rf r 24 0 26) (Rf r 24 0 26 + 4096) = true ∧ (∀ j < 256,
            (s.dispEntry a r j).valid = true → (s.dispEntry a r j).cntBase % 4 = 0 ∧ (s.dispEntry a r j).inBase % 8
              = 0 ∧ (s.dispEntry a r j).tagBase % 8 = 0) ∧ (∀ j < n,
            (s.dispSlot a r n j).testBit 8 = true → (s.dispEntry a r (bitsAt (s.dispSlot a r n j) 0 8)).valid = true
              ∧ s.RowsOk a (Rf r 16 0 26) (Rf r 22 0 16 * 64) (j / Rf r 11 0 8 + 1) (Rf r 20 0 16) ∧
              (s.dispEntry a r (bitsAt (s.dispSlot a r n j) 0 8)).array ≠ a ∧ s.arrVacant
              (s.dispEntry a r (bitsAt (s.dispSlot a r n j) 0 8)).array = false) ∧ i < n ∧
          (s.dispSlot a r n i).testBit 8 = true ∧ x = s.dispEntry a r (bitsAt (s.dispSlot a r n i) 0 8) ∧ bitsAt
          (s.dispSlot a r n i) 16 16 < x.rps ∧ x.inBase + (Rf r 9 0 8 * x.rps + bitsAt (s.dispSlot a r n i) 16 16) *
          Rf r 20 0 16 + Rf r 20 0 16 ≤ 67108864 ∧ x.tagBase + 8 *
          (Rf r 9 0 8 * x.rps + bitsAt (s.dispSlot a r n i) 16 16) + 8 ≤ 67108864) ∧
    (∃ s : State, ∃ p : Packet, ∃ a : Nat, ∃ slot : Nat, ∃ serial : Nat, ∃ id : Nat, ∃ leader : Nat,
        ∃ attempt : Nat, s.Takes p a ∧ p.body = .tokenClaim slot serial id leader attempt) :=
  ⟨⟨s246, ((s246.net)[0]'(by decide +kernel)), 3, 7, 0, 4, 8, 0, 1,
       { (s246.round 7).compare 3 (srcUnit ((s246.net)[0]'(by decide +kernel)).src) with
           parts := (s246.round 7).parts ++ [(4, 8, 0,
                   unpackElems 32 (((s246.net)[0]'(by decide +kernel)).payload.length / 4)
                     ((s246.net)[0]'(by decide +kernel)).payload)] }, by decide +kernel⟩,
   ⟨s247, ((s247.net)[0]'(by decide +kernel)), 4, 3, 7, 2,
       { s247.round 7 with credits := mset (s247.round 7).credits 4 (mget (s247.round 7).credits 4 0 + 2) },
       by decide +kernel⟩,
   ⟨s248, ((s248.net)[0]'(by decide +kernel)), 3, 7, 2, false, false,
       (((s248.arr 3).flights)[0]'(by decide +kernel)), by decide +kernel⟩,
   ⟨dSw, 3, run3, dispRec, dPlan, 4, 9, 0, mapRow, by decide +kernel, by decide +kernel, by decide +kernel,
       by decide +kernel, by decide +kernel, by decide +kernel, by decide +kernel, by decide +kernel,
       by decide +kernel, fun j _ => entries_aligned j, by simp only [entry_eq]; decide +kernel, by decide +kernel,
       by decide +kernel, by rw [slot_word, entry_eq]; rfl, by decide +kernel, by decide +kernel, by decide +kernel⟩,
   ⟨(tk []), (((tk []).net)[0]'(by decide +kernel)), 3, 5, 1, 8, 2, 1, by decide +kernel⟩⟩

end Sys2Proof.Tests.ReductionsDispatchAndTokens

namespace Sys2Proof.Tests.FieldPortsReceive

def b1 := base0

def dat (n : Nat) : List Byte := (List.range n).map (fun i => BitVec.ofNat 8 (i * 7))

def fp (n : Nat) (l : List (Fld × Nat × Nat)) (s : State := b1) : State :=
  put ([(F.fldPort_en,n,1),(F.fldPortStat_link,n,1)] ++ l) s

def strm (d m kind id ports fifo : Nat) : List (Fld × Nat × Nat) :=
  let i := d*256+m
  [(F.fldStrm_valid, i, 1), (F.fldStrm_kind, i, kind), (F.fldStrm_id, i, id), (F.fldStrm_ports, i, ports),
      (F.fldStrm_fifo, i, fifo), (F.fldStrm_fifoEn, i, 1), (F.fldFifo_en, d*32+fifo, 1)]

def asd : Asdu := { smpCnt := 7, smpSynch := 0, confRev := 3, seqData := dat 64 }

def dgm (k l : Nat) : List Byte :=
  [0x50, 0x5A, 0x53, 0x50, 1, 0] ++ leBytes 2 k ++ List.replicate 36 0 ++ leBytes 2 l ++ List.replicate 18 0 ++ dat
    l

/-- States that meet the hypotheses of each clause of `Obligations.FieldPortsReceive`. -/
theorem witness_FieldPortsReceive :
    (∃ s : State, ∃ n : Fin 8, ∃ speed, ∃ fec,
        s.halted (fieldIsland (n.val / 4)) = false ∧ s.rd F.fldPort_en n = 1 ∧ s.linkFits n speed fec = true) ∧
    (∃ s : State, ∃ n : Fin 8, ∃ f : Frame,
        s.halted (fieldIsland (n.val / 4)) = false ∧ s.rd F.fldPort_en n = 1 ∧ s.rd F.fldPortStat_link n = 1 ∧
          s.stampOk (fieldIsland (n.val / 4)) f.rxTime = true ∧
          (f.fcsOk = false ∨ f.tagOk = false ∨ f.length < 64 ∨ 1522 < f.length)) ∧
    (∃ s : State, ∃ n : Fin 8, ∃ f : Frame, ∃ mac, ∃ ip,
        s.halted (fieldIsland (n.val / 4)) = false ∧ s.rd F.fldPort_en n = 1 ∧ s.rd F.fldPortStat_link n = 1 ∧
          s.stampOk (fieldIsland (n.val / 4)) f.rxTime = true ∧ f.fcsOk = true ∧ f.tagOk = true ∧ 64 ≤ f.length ∧
          f.length ≤ 1522 ∧ f.body = .arp mac ip (s.rd F.fldPort_ipv4 n)) ∧
    (∃ s : State, ∃ n : Fin 8, ∃ f : Frame, ∃ appid, ∃ m, ∃ i, ∃ x : Asdu,
        s.halted (fieldIsland (n.val / 4)) = false ∧ s.rd F.fldPort_en n = 1 ∧ s.rd F.fldPortStat_link n = 1 ∧
          s.stampOk (fieldIsland (n.val / 4)) f.rxTime = true ∧ f.fcsOk = true ∧ f.tagOk = true ∧ 64 ≤ f.length ∧
          f.length ≤ 1522 ∧ f.body = .sv appid [x] ∧ s.stream (n.val / 4) (n.val % 4) 1 appid = some m ∧ x.smpSynch
          = 0 ∧ s.field.learnt = [] ∧ s.rd F.fldCfg_concEn 0 = 0 ∧ s.rd F.fldStrm_fifoEn (n.val / 4 * 256 + m) = 1 ∧
          i = n.val / 4 * 32 + s.rd F.fldStrm_fifo (n.val / 4 * 256 + m) ∧ s.rd F.fldFifo_en i = 1 ∧ (s.fifo i).gap
          = none ∧ (s.fifo i).used + itemWords x.seqData.length + 1 ≤ 1024) ∧
    (∃ s : State, ∃ n : Fin 8, ∃ f : Frame, ∃ b,
        s.halted (fieldIsland (n.val / 4)) = false ∧ s.rd F.fldPort_en n = 1 ∧ s.rd F.fldPortStat_link n = 1 ∧
          s.stampOk (fieldIsland (n.val / 4)) f.rxTime = true ∧ f.fcsOk = true ∧ f.tagOk = true ∧ 64 ≤ f.length ∧
          f.length ≤ 1522 ∧ f.body = .datagram true (s.rd F.fldCfg_sptUdp 0) b ∧
          ((sptOf b).good = false ∨ ((sptOf b).len ≤ 976 ∧ s.inEntry (n.val / 4) (sptOf b).keyId = none))) ∧
    (∃ s : State, ∃ port : Fin 2, s.Open port .unit) :=
  ⟨⟨(fp 5 []), 5, 1, 0, by decide +kernel⟩,
   ⟨(fp 5 []), 5, { fcsOk := false }, by decide +kernel⟩,
   ⟨(fp 5 []), 5, { body := .arp 77 9 0 }, 77, 9, by decide +kernel⟩,
   ⟨(fp 5 (strm 1 9 1 0x4000 2 6 ++ [(F.fldCfg_concEn, 0, 0)])), 5,
       { body := .sv 0x4000 [asd], rxTime := 55, length := 150, vlan := 4 }, 0x4000, 9, 38, asd, by decide +kernel⟩,
   ⟨(fp 5 []), 5, { body := .datagram true (b1.rd F.fldCfg_sptUdp 0) (dgm 5 20) }, (dgm 5 20), by decide +kernel⟩,
   ⟨(fp 5 []), 0, by decide +kernel⟩⟩

end Sys2Proof.Tests.FieldPortsReceive

namespace Sys2Proof.Tests.IngestAndSnapshots

def b1 := base0

def dat (n : Nat) : List Byte := (List.range n).map (fun i => BitVec.ofNat 8 (i * 7))

def strm (d m kind id ports fifo : Nat) : List (Fld × Nat × Nat) :=
  let i := d*256+m
  [(F.fldStrm_valid, i, 1), (F.fldStrm_kind, i, kind), (F.fldStrm_id, i, id), (F.fldStrm_ports, i, ports),
      (F.fldStrm_fifo, i, fifo), (F.fldStrm_fifoEn, i, 1), (F.fldFifo_en, d*32+fifo, 1)]

def ff (l : List Ingest) (xs : List (Fld × Nat × Nat) := []) : State :=
  { put ([(F.fldFifo_en, 38, 1), (F.fldFifo_array, 38, 3), (F.fldFifo_ctr, 38, 7), (F.fldFifo_ringBase, 38, 5),
            (F.fldFifo_nslots, 38, 16), (F.fldFifo_idleUs, 38, 10)] ++ xs) b1 with
      field := { fifos := [(38, { items := l, seq := 2^32-1 })] } }

def blk1 (m d n : Nat) : ConcBlock := { stream := m, die := d, kind := 0, state := 0, data := dat n }

def cc (p : NMap (List ConcBlock)) (xs : List (Fld × Nat × Nat) := []) : State :=
  { put ([(F.fldCfg_concEn, 0, 1)] ++ strm 0 2 0 5 1 0 ++ strm 1 9 0 5 1 0 ++ [(F.fldStrm_conc, 2, 1),
            (F.fldStrm_rateBase, 2, 30), (F.fldStrm_conc, 256+9, 1), (F.fldStrm_rateBase, 256+9, 30)] ++ xs) b1 with
      field := {
          parts := p, conc := [(2*20000000, [blk1 2 0 100]), (2*40000000, [blk1 2 0 100])], learnt := [256+9, 5],
          svMax := [(256+9, 2^16-1), (5, 79)] }, time := { b1.time with ns := 10^9 } }

def s257 : State := (ff [{data := dat 10}, {data := dat 100}])

def s260 : State := (cc [(40000000, [blk1 2 0 500, blk1 3 0 500]), (40000001, [blk1 9 1 1000])])

def s261 : State := (cc [(40000000, [blk1 2 0 500, blk1 3 0 500]), (40000001, [blk1 9 1 1000])])

def s262 : State := (cc [] [(F.fldStrm_kind,256+9,1),(F.fldStrm_kind,5,1)])

/-- States that meet the hypotheses of each clause of `Obligations.IngestAndSnapshots`. -/
theorem witness_IngestAndSnapshots :
    (∃ s : State, ∃ d : Fin 2, ∃ f : Fin 32, ∃ i : Nat, ∃ x : Fifo, ∃ it, ∃ rest,
        i = d.val * 32 + f.val ∧ x = s.fifo i ∧ s.halted (fieldIsland d) = false ∧ s.rd F.fldFifo_en i = 1 ∧
          s.arrHeld (s.rd F.fldFifo_array i) = false ∧ x.items = it :: rest ∧ it.flips = []) ∧
    (∃ s : State, ∃ d : Fin 2, ∃ f : Fin 32, ∃ i : Nat, ∃ x : Fifo,
        i = d.val * 32 + f.val ∧ x = s.fifo i ∧ s.halted (fieldIsland d) = false ∧ s.rd F.fldFifo_en i = 1 ∧
          s.arrHeld (s.rd F.fldFifo_array i) = false ∧ x.items = [] ∧ s.rd F.fldFifo_idleUs i ≠ 0) ∧
    (∃ s : State, ∃ d : Fin 2, ∃ T : Nat,
        s.halted (fieldIsland d) = false ∧ s.rd F.fldCfg_concEn 0 = 1 ∧ T % 20000000 = 0 ∧ mget s.field.closed d 0 <
          T ∧ T + s.rd F.fldConc_concWait 0 * 1000000 ≤ s.now) ∧
    (∃ s : State, ∃ T : Nat, ∃ n : List ConcBlock, ∃ so : List ConcBlock,
        s.halted (fieldIsland 0) = false ∧ mfind s.field.parts (T * 2) = some n ∧ mfind s.field.parts (T * 2 + 1) =
          some so) ∧
    (∃ s : State, ∃ T : Nat, ∃ n : List ConcBlock, ∃ so : List ConcBlock,
        s.halted (fieldIsland 0) = false ∧ mfind s.field.parts (T * 2) = some n ∧ T +
          (s.rd F.fldConc_concWait 0 + 2) * 1000000 ≤ s.now ∧
          (so = (s.concPart 1 T).map (fun b => { stream := b.stream, die := 1, kind := b.kind, state := 1 }))) ∧
    (∃ s : State, ∃ d : Fin 2, ∃ m : Fin 256, ∃ k : Nat,
        mfind s.field.svMax (d.val * 256 + m.val) = some k ∧ s.field.learnt.contains (d.val * 256 + m.val) = true ∧
          s.rd F.fldStrm_kind (d.val * 256 + m.val) = 1 ∧ s.halted (fieldIsland d) = false) :=
  ⟨⟨s257, 1, 6, 38, (s257.fifo 38), (((s257.fifo 38).items.take 1)[0]'(by decide +kernel)),
       ((s257.fifo 38).items.drop 1), by decide +kernel⟩,
   ⟨(ff []), 1, 6, 38, ((ff []).fifo 38), by decide +kernel⟩,
   ⟨(cc []), 0, 20000000, by decide +kernel⟩,
   ⟨s260, 20000000, (((mfind s260.field.parts (20000000*2)).toList)[0]'(by decide +kernel)),
       (((mfind s260.field.parts (20000000*2+1)).toList ++ [(s260.concPart 1 20000000).map
                     (fun b => { stream := b.stream, die := 1, kind := b.kind, state := 1 })])[0]'(by decide +kernel)),
       by decide +kernel⟩,
   ⟨s261, 20000000, (((mfind s261.field.parts (20000000*2)).toList)[0]'(by decide +kernel)),
       (((mfind s261.field.parts (20000000*2+1)).toList ++ [(s261.concPart 1 20000000).map
                     (fun b => { stream := b.stream, die := 1, kind := b.kind, state := 1 })])[1]'(by decide +kernel)),
       by decide +kernel⟩,
   ⟨s262, 0, 5, (((mfind s262.field.svMax (0 * 256 + 5)).toList)[0]'(by decide +kernel)), by decide +kernel⟩⟩

end Sys2Proof.Tests.IngestAndSnapshots

namespace Sys2Proof.Tests.SetpointsLeaveAndArrive

def b1 := base0

def dat (n : Nat) : List Byte := (List.range n).map (fun i => BitVec.ofNat 8 (i * 7))

def sp (dl tgt : Nat) (n : Nat) (na : Bool := false) : Packet :=
  { pk (.setpoint 9) (.tile 3) (.field 1) 4 with
      cls := 0, noack := na, payload := leBytes 16 (dl + tgt * 2^64 + 77 * 2^96) ++ dat n }

def fbind (xs : List (Fld × Nat × Nat)) (f : FieldState) (p : Packet) : State :=
  netp p { put ([(F.fldSptBind_valid, 5, 1), (F.fldSptBind_array, 5, 3), (F.fldSptBind_ep, 5, 9),
            (F.fldSptBind_die, 5, 1), (F.chEp_role, epKey 3 9, 1), (F.fldTgt_valid, 1024+6, 1),
            (F.fldTgt_port, 1024+6, 2), (F.fldTgt_key, 1024+6, 8)] ++ xs) b1 with
      field := f, time := { b1.time with ns := 1000 } }

def kf : FieldState := { keys := [(64+8, dat 64)] }

def spt (dl o : Nat) : Spt := { deadline := dl, target := 6, asset := 1, payload := dat 20, order := o }

def ps (l : List Spt) (x : FPort := {}) (c : Nat := 0) : State :=
  fbind [(F.fldPort_en, 6, 1), (F.fldPortStat_link, 6, 1)] { kf with
      ports := [(6, { x with setpoints := l })], tgtCount := [(1024+6, c)] } (sp 5 6 1)

def fdh : FDescr := { d := { opcode := 0x30, userTag := 99, len := 60 }, st := .running }

def del (a : Nat) (en : Bool) (na : Bool) (src : Endpoint := .field 0): Packet :=
  { pk (.setpoint 9) src (.tile a) 4 with
      cls := 0, noack := na, payload := dat 70, off := 0x400, ctrEn := en, ctr := 5 }

def s263 : State := (fbind [] kf (sp 2000 6 100))

def s264 : State := (fbind [] {} (sp 2000 6 100))

def s265 : State := (ps [spt 9000 3] {ahead := some (.ptp 1)})

def s266 : State := (ps [spt 9000 3, spt 5000 4, spt 5000 2])

def s267 : State := (ps [] {hostTx := [(dat 60, (0,0,0)), (dat 61, (0,0,1))]})

def s270 : State := (netp (del 3 false false) (put [(F.tmRgn_fieldW,48,1)] b1))

def s271 : State := (netp (del 3 true false) (put [(F.tmRgn_fieldW,48,1),(F.tmCtr_value,3*64+5,2^32-3)] b1))

/-- States that meet the hypotheses of each clause of `Obligations.SetpointsLeaveAndArrive`. -/
theorem witness_SetpointsLeaveAndArrive :
    (∃ s : State, ∃ p : Packet, ∃ d : Nat, ∃ a : Nat, ∃ e : Nat, ∃ i : Nat, ∃ n : Nat, ∃ v : Spt, ∃ j,
        s.mayMove p = true ∧ s.stopsAt p = none ∧ p.body = .setpoint e ∧ p.cls = 0 ∧ p.bad = false ∧ p.dst = .field
          d ∧ p.src = .tile a ∧ s.dstHalted p = false ∧ i = d * 1024 + bitsAt (leNat (p.payload.take 16)) 64 10 ∧ n
          = 4 * d + s.rd F.fldTgt_port i ∧ v = {
            deadline := bitsAt (leNat (p.payload.take 16)) 0 64, target := bitsAt (leNat (p.payload.take 16)) 64 10,
            asset := bitsAt (leNat (p.payload.take 16)) 96 32, payload := p.payload.drop 16 } ∧ s.fieldBind a e =
          some j ∧ s.rd F.fldSptBind_die j = d ∧ s.epRole a e = 1 ∧ s.rd F.fldTgt_valid i = 1 ∧
          (s.keyOf d (s.rd F.fldTgt_key i)).isSome = true ∧ bitsAt (leNat (p.payload.take 16)) 74 22 = 0 ∧ 16 ≤
          p.payload.length ∧ p.payload.length ≤ 1024 ∧ s.now ≤ v.deadline ∧ (s.fport n).setpoints.length < 512) ∧
    (∃ s : State, ∃ p : Packet, ∃ d : Nat, ∃ a : Nat, ∃ e : Nat, ∃ i : Nat, ∃ n : Nat, ∃ v : Spt,
        s.mayMove p = true ∧ s.stopsAt p = none ∧ p.body = .setpoint e ∧ p.cls = 0 ∧ p.bad = false ∧ p.dst = .field
          d ∧ p.src = .tile a ∧ s.dstHalted p = false ∧ i = d * 1024 + bitsAt (leNat (p.payload.take 16)) 64 10 ∧ n
          = 4 * d + s.rd F.fldTgt_port i ∧ v = {
            deadline := bitsAt (leNat (p.payload.take 16)) 0 64, target := bitsAt (leNat (p.payload.take 16)) 64 10,
            asset := bitsAt (leNat (p.payload.take 16)) 96 32, payload := p.payload.drop 16 } ∧ (s.fieldBind a e =
              none ∨ (∃ j, s.fieldBind a e = some j ∧ s.rd F.fldSptBind_die j ≠ d) ∨ s.epRole a e ≠ 1 ∨ s.rd
              F.fldTgt_valid i = 0 ∨ s.keyOf d (s.rd F.fldTgt_key i) = none ∨ bitsAt (leNat (p.payload.take 16)) 74
              22 ≠ 0 ∨ p.payload.length < 16 ∨ 1024 < p.payload.length)) ∧
    (∃ s : State, ∃ n : Fin 8, ∃ firstBit, ∃ g,
        s.halted (fieldIsland (n.val / 4)) = false ∧ s.rd F.fldPort_en n = 1 ∧ s.rd F.fldPortStat_link n = 1 ∧
          (s.fport n).wire = none ∧ s.now + 160 ≤ firstBit ∧ (s.fport n).ahead = some g) ∧
    (∃ s : State, ∃ n : Fin 8, ∃ firstBit, ∃ x, ∃ key, ∃ c, ∃ i,
        s.halted (fieldIsland (n.val / 4)) = false ∧ s.rd F.fldPort_en n = 1 ∧ s.rd F.fldPortStat_link n = 1 ∧
          (s.fport n).wire = none ∧ s.now + 160 ≤ firstBit ∧ (s.fport n).ahead = none ∧ firstSpt
          (s.fport n).setpoints = some x ∧ i = n.val / 4 * 1024 + x.target ∧ c = mget s.field.tgtCount i 0 ∧ s.keyOf
          (n.val / 4) (s.rd F.fldTgt_key i) = some key ∧ firstBit ≤ x.deadline ∧ c < 2 ^ 40 - 1) ∧
    (∃ s : State, ∃ n : Fin 8, ∃ firstBit, ∃ b, ∃ id, ∃ rest,
        s.halted (fieldIsland (n.val / 4)) = false ∧ s.rd F.fldPort_en n = 1 ∧ s.rd F.fldPortStat_link n = 1 ∧
          (s.fport n).wire = none ∧ s.now + 160 ≤ firstBit ∧ (s.fport n).ahead = none ∧ (s.fport n).setpoints = [] ∧
          (s.fport n).ptp = [] ∧ (s.fport n).replies = [] ∧ (s.fport n).hostTx = (b, id) :: rest ∧ (s.fport n).snaps
          = []) ∧
    (∃ s : State, ∃ n : Fin 8, ∃ txTime, ∃ b,
        s.halted (fieldIsland (n.val / 4)) = false ∧ s.stampOk (fieldIsland (n.val / 4)) txTime = true ∧
          (s.fport n).ahead = none ∧ (s.fport n).wire = some (.setpoint b)) ∧
    (∃ s : State, ∃ n : Fin 8, ∃ txTime, ∃ b, ∃ f,
        s.halted (fieldIsland (n.val / 4)) = false ∧ s.stampOk (fieldIsland (n.val / 4)) txTime = true ∧
          (s.fport n).ahead = none ∧ (s.fport n).wire = some (.host b f.id) ∧ s.descr f.id = some f ∧ f.st ≠ .done ∧
          f.Loud) ∧
    (∃ s : State, ∃ p : Packet, ∃ a : Nat, ∃ e : Nat, ∃ k : Nat,
        s.Takes p a ∧ p.body = .setpoint e ∧ s.initWaits p p.payload.length = false ∧ s.flips = [] ∧ s.region a
          p.off p.payload.length = some k ∧ s.mayWrite a k (whoOf p a) p.off p.payload.length = true ∧ p.ctrEn =
          false) ∧
    (∃ s : State, ∃ p : Packet, ∃ a : Nat, ∃ e : Nat, ∃ k : Nat,
        s.Takes p a ∧ p.body = .setpoint e ∧ s.initWaits p p.payload.length = false ∧ s.flips = [] ∧ s.region a
          p.off p.payload.length = some k ∧ s.mayWrite a k (whoOf p a) p.off p.payload.length = true ∧ p.ctrEn =
          true ∧ p.ctr < 64 ∧ s.rd F.tmCtr_value (a * 64 + p.ctr) + 1 < 2 ^ 32 - 1) :=
  ⟨⟨s263, ((s263.net)[0]'(by decide +kernel)), 1, 3, 9, (1024+6), (4*1+2),
       {
           deadline := bitsAt (leNat (((s263.net)[0]'(by decide +kernel)).payload.take 16)) 0 64,
           target := bitsAt (leNat (((s263.net)[0]'(by decide +kernel)).payload.take 16)) 64 10,
           asset := bitsAt (leNat (((s263.net)[0]'(by decide +kernel)).payload.take 16)) 96 32,
           payload := ((s263.net)[0]'(by decide +kernel)).payload.drop 16 }, 5, by decide +kernel⟩,
   ⟨s264, ((s264.net)[0]'(by decide +kernel)), 1, 3, 9, (1024+6), (4*1+2),
       {
           deadline := bitsAt (leNat (((s264.net)[0]'(by decide +kernel)).payload.take 16)) 0 64,
           target := bitsAt (leNat (((s264.net)[0]'(by decide +kernel)).payload.take 16)) 64 10,
           asset := bitsAt (leNat (((s264.net)[0]'(by decide +kernel)).payload.take 16)) 96 32,
           payload := ((s264.net)[0]'(by decide +kernel)).payload.drop 16 }, by decide +kernel⟩,
   ⟨s265, (4*1+2), 1160, (((s265.fport (4*1+2)).ahead.toList)[0]'(by decide +kernel)), by decide +kernel⟩,
   ⟨s266, (4*1+2), 1160, (((s266.fport (4*1+2)).setpoints)[2]'(by decide +kernel)), (dat 64),
       (mget s266.field.tgtCount (1024+6) 0), (1024+6), by decide +kernel⟩,
   ⟨s267, (4*1+2), 1160, (dat 60), (0, 0, 0), (s267.fport (4*1+2)).hostTx.drop 1, by decide +kernel⟩,
   ⟨(ps [spt 5 1] { wire := some (.setpoint []) }), (4*1+2), 5, [], by decide +kernel⟩,
   ⟨(withD (ps [] { wire := some (.host (dat 60) (0, 0, 0)) }) [fdh]), (4*1+2), 5, (dat 60), fdh, by decide +kernel⟩,
   ⟨s270, ((s270.net)[0]'(by decide +kernel)), 3, 9, 0, by decide +kernel⟩,
   ⟨s271, ((s271.net)[0]'(by decide +kernel)), 3, 9, 0, by decide +kernel⟩⟩

end Sys2Proof.Tests.SetpointsLeaveAndArrive

namespace Sys2Proof.Tests.FabricChangesDrainFirst

def b1 := base0

def stg (s : State) : State := put [(F.fabGrpStage_mask,0,2^3+2^9),(F.fabGrpStage_mask,7,2^63)] s

def chg (c : FabChange) (rest : List FabChange := []) (s : State := base0) : State :=
  put
    [(F.fabState_drainBusy, 0, 1), (F.fabGrpCmd_go, 0, 1), (F.admSrc_rate, 512, 0x200), (F.admSrc_burst, 512, 0x80)] { s with
      net := [mnMessage (.fabCtl (if c.step = 6 then 4 else c.step - 1) c.scope)], buckets := [(512, 0x8000)],
      changes := c :: rest, holds := if c.step > 1 then [c.scope, 7000] else [7000] }

def rel : FabChange := { scope := 0, step := 6, array := 3, site := 50 }

def s278 : State := (chg {scope := 0, array := 3, site := 50})

def s279 : State := (chg {scope := 64, step := 2} [{scope := 4}])

def s280 : State := (chg {scope := 0, step := 3} [{scope := 4}])

def s281 : State := (chg {scope := 300, step := 4, mask := 5})

def s282 : State := (chg {scope := 10300, step := 4, mask := 5} [{scope := 0}])

def s283 : State :=
  (put [(F.fabState_escMode,0,2),(F.fabState_maskGen,0,7)] (chg {scope := 64, step := 4, mask := 7}))

def s284 : State := (chg {scope := 0, step := 4, array := 3, site := 50})

def s285 : State := (chg {scope := 0, step := 4, array := 3, site := 50, vacant := true})

def s286 : State := (chg {scope := 300, step := 6} [{scope := 1}])

/-- States that meet the hypotheses of each clause of `Obligations.FabricChangesDrainFirst`. -/
theorem witness_FabricChangesDrainFirst :
    (∃ s : State, ∃ port : Fin 2, ∃ g : Fin 4096, ∃ c,
        s.Open port .unit ∧ s.rd F.fabGrpCmd_go 0 = 1 ∧ c ∈ [Instr.mcastGroupWrite port g,
            .reductionGroupWrite port g, .mcastGroupClear port g, .reductionGroupClear port g]) ∧
    (∃ s : State, ∃ port : Fin 2, ∃ g : Fin 4096, ∃ q,
        s.Open port .unit ∧ s.rd F.fabGrpCmd_go 0 = 0 ∧ g.val ≤ 511 ∧ q ∈
          [(Instr.mcastGroupWrite port g, 0, s.stagedMask), (.mcastGroupClear port g, 2, 0)]) ∧
    (∃ s : State, ∃ port : Fin 2, ∃ g : Fin 4096, ∃ c,
        s.Open port .unit ∧ s.rd F.fabGrpCmd_go 0 = 0 ∧ 511 < g.val ∧ c ∈
          [Instr.mcastGroupWrite port g, .mcastGroupClear port g]) ∧
    (∃ s : State, ∃ port : Fin 2, ∃ g : Fin 4096, ∃ c,
        s.Open port .unit ∧ s.rd F.fabGrpCmd_go 0 = 0 ∧ s.groupInUse g = true ∧ c ∈
          [Instr.reductionGroupWrite port g, .reductionGroupClear port g]) ∧
    (∃ s : State, ∃ port : Fin 2, ∃ g : Fin 4096,
        s.Open port .unit ∧ s.rd F.fabGrpCmd_go 0 = 0 ∧ s.groupInUse g = false ∧ s.groupsFull g s.stagedMask = true) ∧
    (∃ s : State, ∃ port : Fin 2, ∃ g : Fin 4096,
        s.Open port .unit ∧ s.rd F.fabGrpCmd_go 0 = 0 ∧ s.groupInUse g = false ∧ s.groupsFull g s.stagedMask =
          false) ∧
    (∃ s : State, ∃ c : FabChange, ∃ rest : List FabChange, ∃ p,
        s.changes = c :: rest ∧ s.inSit = false ∧ c.step = 1 ∧ s.FabCtlAt 0 c.scope p) ∧
    (∃ s : State, ∃ c : FabChange, ∃ rest : List FabChange, ∃ p,
        s.changes = c :: rest ∧ s.inSit = false ∧ c.step = 2 ∧ s.FabCtlAt 1 c.scope p) ∧
    (∃ s : State, ∃ c : FabChange, ∃ rest : List FabChange, ∃ site : Fin 576,
        s.changes = c :: rest ∧ s.inSit = false ∧ c.step = 3 ∧ c.drained.contains site.val = false ∧ site.val ∈
          s.partakers ∧ s.routerDrained site c.scope = true) ∧
    (∃ s : State, ∃ c : FabChange, ∃ rest : List FabChange, ∃ p,
        s.changes = c :: rest ∧ s.inSit = false ∧ c.step = 4 ∧ s.FabCtlAt 3 c.scope p ∧ 100 ≤ c.scope ∧ c.scope <
          10000) ∧
    (∃ s : State, ∃ c : FabChange, ∃ rest : List FabChange, ∃ p,
        s.changes = c :: rest ∧ s.inSit = false ∧ c.step = 4 ∧ s.FabCtlAt 3 c.scope p ∧ 10000 ≤ c.scope) ∧
    (∃ s : State, ∃ c : FabChange, ∃ rest : List FabChange, ∃ p,
        s.changes = c :: rest ∧ s.inSit = false ∧ c.step = 4 ∧ s.FabCtlAt 3 c.scope p ∧ c.scope = 64) ∧
    (∃ s : State, ∃ c : FabChange, ∃ rest : List FabChange, ∃ p,
        s.changes = c :: rest ∧ s.inSit = false ∧ c.step = 4 ∧ s.FabCtlAt 3 c.scope p ∧ c.scope < 64 ∧ c.array < 512
          ∧ c.site < 576 ∧ c.vacant = false) ∧
    (∃ s : State, ∃ c : FabChange, ∃ rest : List FabChange, ∃ p,
        s.changes = c :: rest ∧ s.inSit = false ∧ c.step = 4 ∧ s.FabCtlAt 3 c.scope p ∧ c.scope < 64 ∧ c.array < 512
          ∧ c.vacant = true) ∧
    (∃ s : State, ∃ c : FabChange, ∃ rest : List FabChange, ∃ p,
        s.changes = c :: rest ∧ s.inSit = false ∧ c.step = 6 ∧ s.FabCtlAt 4 c.scope p ∧ 64 ≤ c.scope) ∧
    (∃ s : State, ∃ c : FabChange, ∃ rest : List FabChange, ∃ p,
        s.changes = c :: rest ∧ s.inSit = false ∧ c.step = 6 ∧ s.FabCtlAt 4 c.scope p ∧ c.array < 512 ∧ c.site < 576
          ∧ c.scope = arrPack c.array ∧ c.vacant = false ∧ s.boot.deferred = [] ∧
          (∀ x ∈ s.faults.substs, x.array = c.array ∧ x.swap = false)) :=
  ⟨⟨put [(F.fabGrpCmd_go, 0, 1)] ready, 0, 9, Instr.mcastGroupWrite 0 9, by decide +kernel, by decide +kernel,
       by simp⟩,
   ⟨(stg b1), 0, 9, (Instr.mcastGroupWrite 0 9, 0, (stg b1).stagedMask), by decide +kernel⟩,
   ⟨ready, 0, 512, Instr.mcastGroupClear 0 512, by decide +kernel, by decide +kernel, by decide +kernel, by simp⟩,
   ⟨{ ready with rounds := [(9, {})] }, 0, 9, Instr.reductionGroupWrite 0 9, by decide +kernel, by decide +kernel,
       by decide +kernel, by simp⟩,
   ⟨{ stg b1 with redGroups := (List.range 300).map (fun g => (g+50, 2^3)) }, 0, 9, by decide +kernel⟩,
   ⟨(stg b1), 0, 9, by decide +kernel⟩,
   ⟨s278, ((s278.changes.take 1)[0]'(by decide +kernel)), (s278.changes.drop 1),
       ((s278.net)[0]'(by decide +kernel)), by decide +kernel⟩,
   ⟨s279, ((s279.changes.take 1)[0]'(by decide +kernel)), (s279.changes.drop 1),
       ((s279.net)[0]'(by decide +kernel)), by decide +kernel⟩,
   ⟨s280, ((s280.changes.take 1)[0]'(by decide +kernel)), (s280.changes.drop 1), 5, by decide +kernel⟩,
   ⟨s281, ((s281.changes.take 1)[0]'(by decide +kernel)), (s281.changes.drop 1),
       ((s281.net)[0]'(by decide +kernel)), by decide +kernel⟩,
   ⟨s282, ((s282.changes.take 1)[0]'(by decide +kernel)), (s282.changes.drop 1),
       ((s282.net)[0]'(by decide +kernel)), by decide +kernel⟩,
   ⟨s283, ((s283.changes.take 1)[0]'(by decide +kernel)), (s283.changes.drop 1),
       ((s283.net)[0]'(by decide +kernel)), by decide +kernel⟩,
   ⟨s284, ((s284.changes.take 1)[0]'(by decide +kernel)), (s284.changes.drop 1),
       ((s284.net)[0]'(by decide +kernel)), by decide +kernel⟩,
   ⟨s285, ((s285.changes.take 1)[0]'(by decide +kernel)), (s285.changes.drop 1),
       ((s285.net)[0]'(by decide +kernel)), by decide +kernel⟩,
   ⟨s286, ((s286.changes.take 1)[0]'(by decide +kernel)), (s286.changes.drop 1),
       ((s286.net)[0]'(by decide +kernel)), by decide +kernel⟩,
   ⟨(chg rel), (((chg rel).changes.take 1)[0]'(by decide +kernel)), ((chg rel).changes.drop 1),
       (((chg rel).net)[0]'(by decide +kernel)), by decide +kernel⟩⟩

end Sys2Proof.Tests.FabricChangesDrainFirst

namespace Sys2Proof.Tests.FlitsAndMasks

def b1 := base0

def flp (dst : Nat) (noack : Bool := false) : Packet :=
  { body := .write, dst := .tile 3, src := .tile 9, off := 4000, rtag := 5, noack := noack }

def flt (kind dst vc idx : Nat) (p : Packet := flp 3) : Flit :=
  { vc := vc, kind := kind, dstSite := dst, srcSite := 9, fidx := idx, pkt := p }

def ids (s : State) : State := put ((List.range 16).map (fun a => (F.fabSite_site, a, packSite (a/8) (a%8)))) s

def P9 : Packet := { flp 3 with payload := List.replicate 300 7, route := { site := packSite 1 1 } }

def inj : State := netp P9 (ids b1)

def fw (f : Flit) : Flit := { f with pkt := P9, srcSite := packSite 1 1 }

def wireS (fl : List Flit) (n : Nat) (b : Bool := true) : State :=
  { inj with
      mesh := {
          wires := [(100*6+3, { fly := fl, fails := n })],
          bufs := if b then [] else [(bufKey 200 1 6, [fw (flt 1 200 6 1)])] } }

def dl (s : State) : State := { s with localDead := [(linkEnds 1100).1 * 2048 + 1100, (linkEnds 540).2 * 2048 + 540] }

def rS : List State :=
  [inj, { inj with mesh := { bufs := [(bufKey (packSite 1 1) 4 6, [(ids b1).flitOf P9 6 0])] } },
      wireS [fw (flt 0 200 6 0), fw (flt 1 200 6 1)] 0, wireS [fw (flt 0 200 6 0), fw (flt 1 200 6 1)] 3,
      wireS [fw (flt 1 200 6 1)] 2, wireS [fw (flt 2 200 6 1)] 3, wireS [fw (flt 0 100 6 0)] 1,
      wireS [fw (flt 3 200 1 0)] 3, wireS [fw (flt 1 200 6 1)] 4 false,
      { dl (ids b1) with mnMask := (2^574, 0), mnGen := 65535 },
      { dl (ids b1) with mnMask := (2^574, 2^1100 + 2^540), mnGen := 65535 },
      put [(F.fltPackDark_dark, 0, 2)] (dl (ids b1)), dl (netp (flp 3) { ids b1 with mnMask := (2^574, 2^1100) }),
      put [(F.admSrc_rate, 512, 0x200), (F.admSrc_burst, 512, 0x80)] (dl (ids b1)),
      put [(F.fabMaskSite_dead, 8, 2^62), (F.fabMaskLink_dead, 17, 2^12)] (dl (netp (flp 3) (ids b1))),
      put [(F.fabState_escMode, 0, 2), (F.fabState_maskGen, 0, 9)] b1,
      put [(F.fabState_escMode, 0, 2), (F.fabState_maskGen, 0, 9)] { b1 with changes := [{ scope := 4 }] }]

def dm (g : Nat) : Packet := pk (.deadMask g) (.mgmt 0) .broadcast

def mS : List State :=
  [{ netp (dm 4) b1 with
          maskSent := [(4, (2^3 + 2^400, 2^1100 + 8)), (5, (0, 0))],
          localDead := [(linkEnds 3).1 * 2048 + 3, (linkEnds 500).2 * 2048 + 500] },
      { netp (dm 5) b1 with
          maskSent := [(4, (2^3 + 2^400, 2^1100 + 8)), (5, (0, 0))],
          localDead := [(linkEnds 3).1 * 2048 + 3, (linkEnds 500).2 * 2048 + 500] },
      netp (pk (.gapNotice 5 2 3) (.tile 5) (.mgmt 1)) b1,
      netp { pk (.stepMsg (.cancel 1)) (.tile 5) (.tile 3) with noack := false } (ids b1),
      netp (pk (.stepMsg (.cancel 1)) (.tile 5) (.tile 3)) { (ids b1) with rateAt := [(0x000A * 65536 + 3, 1)] },
      netp (dm 5) (ids b1), netp (dm 5) { ids b1 with mesh := { deaf := [(100, dm 5)] } }]

def s289 : State := ((rS.take 9)[2]'(by decide +kernel))

def s290 : State := ((rS.take 9)[6]'(by decide +kernel))

def s291 : State := ((rS.take 9)[2]'(by decide +kernel))

def s292 : State := ((rS.take 9)[3]'(by decide +kernel))

def s293 : State := ((rS.take 9)[3]'(by decide +kernel))

def s298 : State := ((rS.drop 9 ++ mS)[11]'(by decide +kernel))

def s299 : State := (netp (dm 5) (ids b1))

def s300 : State := ((rS.drop 9 ++ mS)[10]'(by decide +kernel))

/-- States that meet the hypotheses of each clause of `Obligations.FlitsAndMasks`. -/
theorem witness_FlitsAndMasks :
    (∃ s : State, ∃ site : Fin 576, ∃ inPort : Fin 6, ∃ vc : Fin 14, ∃ p, ∃ f,
        s.PortOpen site inPort ∧ beyondOf site inPort = none ∧ (s.wire site inPort).fly = [] ∧ (s.net.find? (fun q
                  => !q.route.held && firstVC q == vc.val && s.portOf q site inPort && decide
                  (s.mesh.leftSource q < pktFlits q)) = some p) ∧ s.mesh.used site inPort vc < vcRoom vc ∧
          p.route.site = site.val ∧ noRoute p = false ∧ (∀ a, p.src = .tile a → s.arrFenced a = false) ∧ f =
          s.flitOf p vc (s.mesh.leftSource p) ∧ s.Keeps site inPort f) ∧
    (∃ s : State, ∃ site : Fin 576, ∃ inPort : Fin 6, ∃ f, ∃ rest,
        s.PortOpen site inPort ∧ (s.wire site inPort).fly = f :: rest ∧ s.Keeps site inPort f) ∧
    (∃ s : State, ∃ site : Fin 576, ∃ inPort : Fin 6, ∃ f, ∃ rest,
        s.PortOpen site inPort ∧ (s.wire site inPort).fly = f :: rest ∧ f.dstSite = site.val) ∧
    (∃ s : State, ∃ site : Fin 576, ∃ inPort : Fin 6, ∃ f, ∃ rest, ∃ pay : List (Fin 2048), ∃ par : List (Fin 256), ∃ side : List (Fin 64),
        s.PortOpen site inPort ∧ (s.wire site inPort).fly = f :: rest ∧
          (parityFails (wrongWires pay par side) = true ∨ sideFlips (wrongWires pay par side) ≠ 0) ∧ (s.wire site inPort).fails
          < 3) ∧
    (∃ s : State, ∃ site : Fin 576, ∃ inPort : Fin 6, ∃ f, ∃ rest, ∃ pay : List (Fin 2048), ∃ par : List (Fin 256), ∃ side : List (Fin 64),
        s.PortOpen site inPort ∧ (s.wire site inPort).fly = f :: rest ∧
          (parityFails (wrongWires pay par side) = true ∨ sideFlips (wrongWires pay par side) ≠ 0) ∧ 3 ≤
          (s.wire site inPort).fails ∧ sideFlips (wrongWires pay par side) < 2 ∧ parityFails (wrongWires pay par side) = true ∧
          s.Keeps site inPort f) ∧
    (∃ s : State, ∃ site : Fin 576, ∃ inPort : Fin 6, ∃ f, ∃ rest, ∃ pay : List (Fin 2048), ∃ par : List (Fin 256), ∃ side : List (Fin 64), ∃ x,
        s.PortOpen site inPort ∧ (s.wire site inPort).fly = f :: rest ∧
          (parityFails (wrongWires pay par side) = true ∨ sideFlips (wrongWires pay par side) ≠ 0) ∧ 3 ≤
          (s.wire site inPort).fails ∧ 2 ≤ sideFlips (wrongWires pay par side) ∧ beyondOf site inPort = some x ∧
          s.mesh.bufs = []) ∧
    (∃ s : State, ∃ site : Fin 576, ∃ outPort : Fin 6, ∃ x : Nat × Nat,
        beyondOf site outPort = some x ∧ s.siteOk site = true ∧ s.halted (576 + site.val) = false ∧ s.linkDead x.2 =
          false ∧ s.declared site x.2 = false) ∧
    (∃ s : State, ∃ ls : List (Fin 1104), ∃ ts : List (Fin 576),
        s.inSit = false ∧ ((∃ l ∈ ls, s.mnMask.2.testBit l = false ∧ s.reported l = true) ∨
              (∃ x ∈ ts, s.siteFitted x = true ∧ s.mnMask.1.testBit x = false ∧ s.routerDown x = true))) ∧
    (∃ s : State, ∃ p : Packet, ∃ g : Nat, ∃ ts : Nat, ∃ ls : Nat,
        s.mayMove p = true ∧ p.body = .deadMask g ∧ s.inSit = false ∧ mfind s.maskSent g = some (ts, ls) ∧
          (∀ q < 64, s.packDark q = false)) ∧
    (∃ s : State, s.rd F.fabState_escMode 0 = 2 ∧ (∀ c ∈ s.changes, c.scope ≠ 64) ∧ s.inSit = false) ∧
    (∃ s : State, ∃ site : Fin 576, ∃ p : Packet,
        s.mayMove p = true ∧ p.cls = 0 ∧ s.inSit = false ∧ p.dst ≠ .broadcast ∧ s.stopsAt p = none ∧ s.destSite p =
          site) ∧
    (∃ s : State, ∃ site : Fin 576, ∃ p : Packet,
        s.mayMove p = true ∧ p.cls = 0 ∧ s.inSit = false ∧ p.dst = .broadcast ∧ s.hears p site = true) ∧
    (∃ s : State, ∃ p : Packet, ∃ u : Nat, ∃ d : Nat, ∃ e : Nat, ∃ m : Nat,
        s.mayMove p = true ∧ s.stopsAt p = none ∧ p.body = .gapNotice u d e ∧ p.dst = .mgmt m ∧ s.dstHalted p =
          false) :=
  ⟨⟨inj, (Fin.ofNat 576 (packSite 1 1)), 4, 6, P9, (inj.flitOf P9 6 0), portOpen_of (by decide +kernel),
       by decide +kernel, by decide +kernel, by decide +kernel, by decide +kernel, by decide +kernel,
       by decide +kernel, fenceFree_of (by decide +kernel), by decide +kernel, keeps_of (by decide +kernel)⟩,
   ⟨s289, 100, 3, (((s289.wire 100 3).fly.take 1)[0]'(by decide +kernel)), (s289.wire 100 3).fly.drop 1,
       portOpen_of (by decide +kernel), by decide +kernel, keeps_of (by decide +kernel)⟩,
   ⟨s290, 100, 3, (((s290.wire 100 3).fly.take 1)[0]'(by decide +kernel)), (s290.wire 100 3).fly.drop 1,
       portOpen_of (by decide +kernel), by decide +kernel, by decide +kernel⟩,
   ⟨s291, 100, 3, (((s291.wire 100 3).fly.take 1)[0]'(by decide +kernel)), (s291.wire 100 3).fly.drop 1, [5], [], [],
       portOpen_of (by decide +kernel), by decide +kernel, by decide +kernel, by decide +kernel⟩,
   ⟨s292, 100, 3, (((s292.wire 100 3).fly.take 1)[0]'(by decide +kernel)), (s292.wire 100 3).fly.drop 1, [5], [], [],
       portOpen_of (by decide +kernel), by decide +kernel, by decide +kernel, by decide +kernel, by decide +kernel,
       by decide +kernel, keeps_of (by decide +kernel)⟩,
   ⟨s293, 100, 3, (((s293.wire 100 3).fly.take 1)[0]'(by decide +kernel)), (s293.wire 100 3).fly.drop 1,
       [], [], [0, 6], (((beyondOf 100 3).toList)[0]'(by decide +kernel)), portOpen_of (by decide +kernel),
       by decide +kernel, by decide +kernel, by decide +kernel, by decide +kernel, by decide +kernel,
       by decide +kernel⟩,
   ⟨((rS.take 9)[0]'(by decide +kernel)), 100, 0, (((beyondOf 100 0).toList)[0]'(by decide +kernel)),
       by decide +kernel⟩,
   ⟨((rS.drop 9 ++ mS)[0]'(by decide +kernel)), [0, 1100], [], by decide +kernel⟩,
   ⟨{ netp (dm 4) b1 with maskSent := [(4, (8, 0))] }, dm 4, 4, 8, 0, by decide +kernel⟩,
   ⟨((rS.drop 9 ++ mS)[6]'(by decide +kernel)), by decide +kernel⟩,
   ⟨s298, (Fin.ofNat 576 ((ids b1).siteOf 3)), ((s298.net)[0]'(by decide +kernel)), by decide +kernel⟩,
   ⟨s299, 100, (dm 5), by decide +kernel⟩,
   ⟨s300, ((s300.net)[0]'(by decide +kernel)), 5, 2, 3, 1, by decide +kernel⟩⟩

end Sys2Proof.Tests.FlitsAndMasks

namespace Sys2Proof.Tests.LinkPortsChangeState

def b1 := base0

def dat (n : Nat) : List Byte := (List.range n).map (fun i => BitVec.ofNat 8 (i * 7))

def sp1 (k : Nat) (dst : Nat) (n : Nat := 100) : SpanPkt :=
  {
      lvc := 9, kind := k, dstPanel := dst, srcPanel := 7, dstUnit := 3, dstOffset := 0x800, xid := 4,
      data := dat n, sent := 3 }

def lk (st : Nat) (l : List (Fld × Nat × Nat) := []) (x : LinkPort := {}) : State :=
  put ([(F.lnkStat_state, 5, st), (F.lnkPort_en, 5, 1), (F.lnkCfg_panelId, 0, 77), (F.lnkPort_spanId, 5, 3),
          (F.idnSerial_serial, 0, 1234)] ++ l) { b1 with links := { ports := [(5, x)] } }

def xs : List LinkPort :=
  [{},
      {
          txq := [sp1 0 9, sp1 2 9], held := [(sp1 0 9, true)], arrived := [(sp1 0 77, true)], credited := [(3, 5)],
          unreported := true, freed := [(9, 6)] }, { quiescing := true, txq := [sp1 0 9] },
      { quiescing := true, ackRcvd := true }, { quiescing := true },
      { peerQuiesced := true, peer := some { panelId := 4 } }]

def lS : List State :=
  [0, 1, 2, 3, 4, 5, 6, 7, 8, 9].flatMap (fun st => xs.map (fun x => lk st [] x)) ++ [lk 4
        [(F.lnkPort_dateline, 5, 1)], lk 4 [(F.lnkCfg_panelId, 0, 4095)], lk 6 [(F.lnkPort_halfOk, 5, 1)],
      lk 2 [(F.lnkPort_halfOk, 5, 1)]] ++ [{ lk 7 [] { quiescing := true, txq := [sp1 0 9] } with
          boot := { b1.boot with panelReset := true } },
      lk 6 [(F.lnkStat_state, 2, 5), (F.lnkRoute_pValid, 9, 1), (F.lnkRoute_primary, 9, 5),
          (F.lnkRoute_aValid, 9, 1), (F.lnkRoute_alternate, 9, 2)] { held := [(sp1 0 9, true)], txq := [sp1 0 9] }]

def s302 : State := ((lS)[12]'(by decide +kernel))

/-- States that meet the hypotheses of each clause of `Obligations.LinkPortsChangeState`. -/
theorem witness_LinkPortsChangeState :
    (∃ s : State, ∃ n : Fin 8, s.linkHalted n = false ∧ s.lstate n = 1) ∧
    (∃ s : State, ∃ n : Fin 8, ∃ f : LaneMap, ∃ k, ∃ half,
        s.linkHalted n = false ∧ s.lstate n = 2 ∧ s.lanesOk n f = some (k, half)) ∧
    (∃ s : State, ∃ n : Fin 8, ∃ f : LaneMap, s.linkHalted n = false ∧ s.lstate n = 2 ∧ s.lanesOk n f = none) ∧
    (∃ s : State, ∃ n : Fin 8, s.linkHalted n = false ∧ s.lstate n = 3) ∧
    (∃ s : State, ∃ n : Fin 8, ∃ w : Identity,
        s.linkHalted n = false ∧ (s.lstate n = 4 ∨ s.lstate n = 8) ∧ w.spanId = s.rd F.lnkPort_spanId n ∧
          (w.dateline = true ↔ s.rd F.lnkPort_dateline n = 1) ∧ (w.panelId ≠ s.panelId ∨ w.panelId = 4095) ∧
          w.serial ≠ s.rd F.idnSerial_serial 0) ∧
    (∃ s : State, ∃ n : Fin 8, ∃ w : Identity,
        s.linkHalted n = false ∧ (s.lstate n = 4 ∨ s.lstate n = 8) ∧ s.lstate n = 4 ∧ (w.spanId ≠ s.rd
              F.lnkPort_spanId n ∨ (w.dateline = true ∧ s.rd F.lnkPort_dateline n = 0) ∨
              (w.panelId = s.panelId ∧ w.panelId ≠ 4095) ∨ w.serial = s.rd F.idnSerial_serial 0)) ∧
    (∃ s : State, ∃ n : Fin 8, s.linkHalted n = false ∧ 2 ≤ s.lstate n ∧ s.lstate n ≤ 4) ∧
    (∃ s : State, ∃ n : Fin 8, ∃ c,
        s.linkHalted n = false ∧ c ∈ [Instr.linkLockLoss n, .uncorrLimitExceeded n] ∧ s.lup n = true) ∧
    (∃ s : State, ∃ n : Fin 8, ∃ f : LaneMap,
        s.linkHalted n = false ∧ s.lstate n = 6 ∧ (s.lanesOk n f).isSome = true) ∧
    (∃ s : State, ∃ n : Fin 8, ∃ f : LaneMap, s.linkHalted n = false ∧ s.lstate n = 6 ∧ s.lanesOk n f = none) ∧
    (∃ s : State, ∃ n : Fin 8,
        s.linkHalted n = false ∧ (s.lstate n = 5 ∨ s.lstate n = 7) ∧ (s.lport n).peerQuiesced = false) ∧
    (∃ s : State, ∃ n : Fin 8, s.lstate n = 7 ∧ (s.lport n).quiescing = true ∧ (s.lport n).txq ≠ []) ∧
    (∃ s : State, ∃ n : Fin 8,
        s.lstate n = 7 ∧ (s.lport n).quiescing = true ∧ (s.lport n).txq = [] ∧ s.boot.panelReset = false) ∧
    (∃ s : State, ∃ n : Fin 8, s.lstate n = 7 ∧ (s.lport n).quiescing = true ∧ s.boot.panelReset = false) :=
  ⟨⟨((lS)[6]'(by decide +kernel)), 5, by decide +kernel⟩,
   ⟨s302, 5, 0, ((((s302.lanesOk 5 0).map (·.1)).toList)[0]'(by decide +kernel)),
       ((((s302.lanesOk 5 0).map (·.2)).toList)[0]'(by decide +kernel)), by decide +kernel⟩,
   ⟨((lS)[12]'(by decide +kernel)), 5, 0xFFFFFFFFFFFFF, by decide +kernel⟩,
   ⟨((lS)[18]'(by decide +kernel)), 5, by decide +kernel⟩,
   ⟨((lS)[24]'(by decide +kernel)), 5, { panelId := 9, spanId := 3, serial := 55, port := 12 }, by decide +kernel⟩,
   ⟨((lS)[24]'(by decide +kernel)), 5, { panelId := 77, spanId := 3, serial := 55 }, by decide +kernel⟩,
   ⟨((lS)[12]'(by decide +kernel)), 5, by decide +kernel⟩,
   ⟨((lS)[30]'(by decide +kernel)), 5, (Instr.linkLockLoss 5), by decide +kernel⟩,
   ⟨((lS)[36]'(by decide +kernel)), 5, 0, by decide +kernel⟩,
   ⟨((lS)[36]'(by decide +kernel)), 5, 0xFFFFFFFFFFFFF, by decide +kernel⟩,
   ⟨((lS)[30]'(by decide +kernel)), 5, by decide +kernel⟩,
   ⟨((lS)[44]'(by decide +kernel)), 5, by decide +kernel⟩,
   ⟨((lS)[45]'(by decide +kernel)), 5, by decide +kernel⟩,
   ⟨((lS)[44]'(by decide +kernel)), 5, by decide +kernel⟩⟩

end Sys2Proof.Tests.LinkPortsChangeState

namespace Sys2Proof.Tests.LinkWordsAreCountedAndRouted

def b1 := base0

def dat (n : Nat) : List Byte := (List.range n).map (fun i => BitVec.ofNat 8 (i * 7))

def sp1 (k : Nat) (dst : Nat) (n : Nat := 100) : SpanPkt :=
  {
      lvc := 9, kind := k, dstPanel := dst, srcPanel := 7, dstUnit := 3, dstOffset := 0x800, xid := 4,
      data := dat n, sent := 3 }

def lk (st : Nat) (l : List (Fld × Nat × Nat) := []) (x : LinkPort := {}) : State :=
  put ([(F.lnkStat_state, 5, st), (F.lnkPort_en, 5, 1), (F.lnkCfg_panelId, 0, 77), (F.lnkPort_spanId, 5, 3),
          (F.idnSerial_serial, 0, 1234)] ++ l) { b1 with links := { ports := [(5, x)] } }

def rt (st : Nat) (l : List (Fld × Nat × Nat)) (x : LinkPort := {}) : State :=
  lk st ([(F.lnkStat_state,2,5),(F.lnkRoute_pValid,9,1),(F.lnkRoute_primary,9,2),(F.fltCfg_healthWarn,0,0)] ++ l) x

/-- States that meet the hypotheses of each clause of `Obligations.LinkWordsAreCountedAndRouted`. -/
theorem witness_LinkWordsAreCountedAndRouted :
    (∃ s : State, ∃ n : Fin 8, ∃ freed : List Nat,
        s.linkHalted n = false ∧ freed.length = 16 ∧ (s.lport n).txq = [] ∧
          (s.lstate n ≠ 7 ∨ (s.lport n).quiescing = false ∨ (s.lport n).ackRcvd = false)) ∧
    (∃ s : State, ∃ n : Fin 8, ∃ freed : List Nat,
        s.linkHalted n = false ∧ freed.length = 16 ∧ (s.lport n).txq = [] ∧ s.lstate n = 7 ∧ (s.lport n).quiescing =
          true ∧ (s.lport n).ackRcvd = true ∧ s.boot.panelReset = false) ∧
    (∃ s : State, ∃ n : Fin 8,
        s.linkHalted n = false ∧ (s.lstate n = 5 ∨ s.lstate n = 7) ∧ mget s.links.tc0Held n [] = [] ∧
          (s.lport n).unreported = true) ∧
    (∃ s : State, ∃ n : Fin 8, ∃ p : SpanPkt,
        s.linkHalted n = false ∧ (s.lstate n = 5 ∨ s.lstate n = 7) ∧ p.lvc ≤ 15 ∧ p.data.length ≤ 2048 ∧
          p.reservedZero = true ∧ p.kind ∈ [0, 2] ∧ 1 ≤ p.hops ∧ s.forMe p = true) ∧
    (∃ s : State, ∃ n : Fin 8, ∃ p : SpanPkt, ∃ m, ∃ q,
        s.linkHalted n = false ∧ (s.lstate n = 5 ∨ s.lstate n = 7) ∧ p.lvc ≤ 15 ∧ p.data.length ≤ 2048 ∧
          p.reservedZero = true ∧ p.kind ∈ [0, 2] ∧ 1 ≤ p.hops ∧ s.spanRoute n true { p with hops := p.hops - 1 } =
          .port m ∧ m ≠ n ∧ 4 ≤ s.lvcFor n m true p ∧ q = meshSpan n m
          { p with hops := p.hops - 1, lvc := s.lvcFor n m true p }) ∧
    (∃ s : State, ∃ n : Fin 8, ∃ p : SpanPkt,
        s.linkHalted n = false ∧ (s.lstate n = 5 ∨ s.lstate n = 7) ∧ p.lvc ≤ 15 ∧ p.data.length ≤ 2048 ∧
          p.reservedZero = true ∧ p.kind ∈ [0, 2] ∧ p.hops = 0 ∧ p.kind = 2) ∧
    (∃ s : State, ∃ n : Fin 8, ∃ lvc : Fin 16, s.linkHalted n = false ∧ s.lstate n = 5 ∧ (s.lport n).owed lvc ≠ 0) ∧
    (∃ s : State, ∃ n : Fin 8, ∃ echoed, s.linkHalted n = false ∧ s.lstate n = 5 ∧ echoed ≠ 0) ∧
    (∃ s : State, ∃ n : Fin 8, ∃ p : SpanPkt,
        s.linkHalted n = false ∧ s.lstate n ∈ [4, 5, 6, 7] ∧ s.rd F.fltCfg_healthWarn 0 = 0 ∧ p.kind ≠ 0) :=
  ⟨⟨(rt 5 []), 5, (List.range 16), by decide +kernel⟩,
   ⟨(rt 7 [] { quiescing := true, ackRcvd := true }), 5, (List.range 16), by decide +kernel⟩,
   ⟨(rt 5 [] { unreported := true, freed := [(9, 6)], rcvd := [(9, 65535)], sent := [(9, 65535)] }), 5,
       by decide +kernel⟩,
   ⟨(rt 5 []), 5, (sp1 0 77), by decide +kernel⟩,
   ⟨(rt 5 []), 5, (sp1 2 9), 2,
       (meshSpan 5 2 { (sp1 2 9) with hops := (sp1 2 9).hops - 1, lvc := (rt 5 []).lvcFor 5 2 true (sp1 2 9) }),
       by decide +kernel⟩,
   ⟨(rt 5 []), 5, { sp1 2 9 with hops := 0 }, by decide +kernel⟩,
   ⟨(rt 5 [] { unreported := true, freed := [(9, 6)], rcvd := [(9, 65535)], sent := [(9, 65535)] }), 5, 9,
       by decide +kernel⟩,
   ⟨(rt 5 []), 5, 5, by decide +kernel⟩,
   ⟨(rt 5 []), 5, (sp1 2 77), by decide +kernel⟩⟩

end Sys2Proof.Tests.LinkWordsAreCountedAndRouted

namespace Sys2Proof.Tests.ExportsAndControlMessages

def b1 := base0

def dat (n : Nat) : List Byte := (List.range n).map (fun i => BitVec.ofNat 8 (i * 7))

def sp1 (k : Nat) (dst : Nat) (n : Nat := 100) : SpanPkt :=
  {
      lvc := 9, kind := k, dstPanel := dst, srcPanel := 7, dstUnit := 3, dstOffset := 0x800, xid := 4,
      data := dat n, sent := 3 }

def lk (st : Nat) (l : List (Fld × Nat × Nat) := []) (x : LinkPort := {}) : State :=
  put ([(F.lnkStat_state, 5, st), (F.lnkPort_en, 5, 1), (F.lnkCfg_panelId, 0, 77), (F.lnkPort_spanId, 5, 3),
          (F.idnSerial_serial, 0, 1234)] ++ l) { b1 with links := { ports := [(5, x)] } }

def rt (st : Nat) (l : List (Fld × Nat × Nat)) (x : LinkPort := {}) : State :=
  lk st ([(F.lnkStat_state,2,5),(F.lnkRoute_pValid,9,1),(F.lnkRoute_primary,9,2),(F.fltCfg_healthWarn,0,0)] ++ l) x

def xd (so len dp da off : Nat) : List Byte :=
  leBytes 17 (so + len * 2^32 + dp * 2^64 + da * 2^80 + off * 2^96 + 5 * 2^122 + 2^128)

def ep1 (na : Bool := false) : Packet :=
  { pk (.channelItem 5 0 9 0 0 0) (.tile 3) (.link 5) 44 with
      cls := 2, noack := na, payload := xd 0x100 9000 9 4 0x7F0 }

def lkp (p : Packet) (s : State) : State := { s with net := [p] }

def xp : Export := { die := 5, item := ep1, array := 3, open_ := [1], len := 5000 }

def arr (p : SpanPkt) (b : Bool) (x : Export := xp) (l : List (Fld × Nat × Nat) := []) : State :=
  let s := rt 5 l { arrived := [(sp1 3 4, false), (p, b), (p, b)] }
  { s with links := { s.links with exports := [(4, x)], inCount := [(5*64+3, 300)] } }

def ans (c st : Nat) : SpanPkt := { sp1 1 77 with xid := 4, chunk := c, status := st }

def lc (n : Nat) : Packet :=
  { pk (.setpoint 9) (.tile 3) (.link 5) 44 with cls := 0, noack := false, payload := dat n }

def bnd (k : Nat) (l : List (Fld × Nat × Nat)) : State :=
  lkp (lc 50) (lk 5 ([(F.lnkBind_valid, 8, 1), (F.lnkBind_array, 8, 3), (F.lnkBind_ep, 8, 9),
              (F.lnkBind_kind, 8, k), (F.lnkBind_via, 8, 5), (F.lnkBind_dstPanel, 8, 9), (F.lnkBind_dstEntry, 8, 3),
              (F.chEp_role, epKey 3 9, 1)] ++ l))

def s324 : State := (lkp ep1 (rt 5 []))

def s325 : State := (lkp ep1 (rt 5 [(F.lnkCfg_panelId,0,4095)]))

def s326 : State := (arr (sp1 0 77) true)

def s327 : State := (arr (ans 1 0) true)

def s328 : State := (arr (ans 1 0) true {xp with open_ := [1,2]})

def s329 : State := (arr (sp1 2 77) true)

def s330 : State :=
  (arr (sp1 2 77) true xp [(F.lnkIn_valid, 5*64+3, 1), (F.lnkIn_array, 5*64+3, 9), (F.lnkIn_nslots, 5*64+3, 0),
          (F.admSrc_rate, 519, 5), (F.admSrc_burst, 519, 20)])

def s331 : State := (arr (ans 1 0) true {xp with sent := [1]})

def s332 : State := (bnd 1 [(F.lnkRoute_pValid,9,1),(F.lnkRoute_primary,9,5),(F.lnkStat_state,5,6)])

def s333 : State := (bnd 1 [(F.lnkRoute_pValid,9,1),(F.lnkRoute_primary,9,5)])

/-- States that meet the hypotheses of each clause of `Obligations.ExportsAndControlMessages`. -/
theorem witness_ExportsAndControlMessages :
    (∃ s : State, ∃ d : Fin 8, ∃ p : Packet, ∃ a : Nat, ∃ e : Nat, ∃ mode : Nat, ∃ srcEp : Nat, ∃ epoch : Nat,
        ∃ slot : Nat, ∃ fmt : Nat, ∃ v : Nat,
        s.linkHalted d = false ∧ s.mayMove p = true ∧ s.stopsAt p = none ∧ p.body = .channelItem e mode srcEp epoch
          slot fmt ∧ p.src = .tile a ∧ p.dst = .link d ∧ p.cls = 2 ∧ p.bad = false ∧ v = leNat p.payload ∧
          s.links.accepting = true ∧ s.panelId ≠ 4095) ∧
    (∃ s : State, ∃ d : Fin 8, ∃ p : Packet, ∃ a : Nat, ∃ e : Nat, ∃ mode : Nat, ∃ srcEp : Nat, ∃ epoch : Nat,
        ∃ slot : Nat, ∃ fmt : Nat, ∃ v : Nat,
        s.linkHalted d = false ∧ s.mayMove p = true ∧ s.stopsAt p = none ∧ p.body = .channelItem e mode srcEp epoch
          slot fmt ∧ p.src = .tile a ∧ p.dst = .link d ∧ p.cls = 2 ∧ p.bad = false ∧ v = leNat p.payload ∧
          (s.links.accepting = false ∨ s.panelId = 4095)) ∧
    (∃ s : State, ∃ d : Fin 8, ∃ p : SpanPkt, ∃ b : Bool,
        s.linkHalted d = false ∧ ((s.lport d).arrived.find? (fun x => x.1 == p) = some (p, b)) ∧ p.kind = 0) ∧
    (∃ s : State, ∃ d : Fin 8, ∃ p : SpanPkt, ∃ b : Bool, ∃ x,
        s.linkHalted d = false ∧ ((s.lport d).arrived.find? (fun x => x.1 == p) = some (p, b)) ∧ p.kind = 1 ∧ mfind
          s.links.exports p.xid = some x ∧ x.firstFail = 0 ∧ x.open_ = [p.chunk] ∧ p.status = 0) ∧
    (∃ s : State, ∃ d : Fin 8, ∃ p : SpanPkt, ∃ b : Bool, ∃ x, ∃ c,
        s.linkHalted d = false ∧ ((s.lport d).arrived.find? (fun x => x.1 == p) = some (p, b)) ∧ p.kind = 1 ∧ mfind
          s.links.exports p.xid = some x ∧ x.firstFail = 0 ∧ x.open_ = [p.chunk, c] ∧ c ≠ p.chunk) ∧
    (∃ s : State, ∃ d : Fin 8, ∃ p : SpanPkt, ∃ b : Bool, ∃ i,
        s.linkHalted d = false ∧ ((s.lport d).arrived.find? (fun x => x.1 == p) = some (p, b)) ∧ p.kind = 2 ∧ i =
          d.val * 64 + p.dstUnit % 64 ∧ s.rd F.lnkIn_valid i = 0) ∧
    (∃ s : State, ∃ d : Fin 8, ∃ p : SpanPkt, ∃ b : Bool, ∃ i,
        s.linkHalted d = false ∧ ((s.lport d).arrived.find? (fun x => x.1 == p) = some (p, b)) ∧ p.kind = 2 ∧ i =
          d.val * 64 + p.dstUnit % 64 ∧ s.rd F.lnkIn_valid i = 1 ∧ p.data.length ≤ 992 ∧ s.rd F.admSrc_rate
          (514 + d) ≠ 0 ∧ 6 ≤ s.rd F.admSrc_burst (514 + d)) ∧
    (∃ s : State, ∃ d : Fin 8, ∃ xid, ∃ chunk, ∃ x,
        s.linkHalted d = false ∧ mfind s.links.exports xid = some x ∧ x.die = d ∧ x.open_ = [chunk] ∧ chunk ∈ x.sent
          ∧ x.firstFail = 0) ∧
    (∃ s : State, ∃ d : Fin 8, ∃ p : Packet, ∃ a : Nat, ∃ e : Nat, ∃ j : Nat, ∃ m : SpanPkt,
        s.linkHalted d = false ∧ s.mayMove p = true ∧ s.stopsAt p = none ∧ p.body = .setpoint e ∧ p.src = .tile a ∧
          p.dst = .link d ∧ p.cls = 0 ∧ p.bad = false ∧ s.linkBind a e = some j ∧ m = {
            lvc := 0, kind := 2, hops := 63, dstPanel := s.rd F.lnkBind_dstPanel j, srcPanel := s.panelId,
            dstUnit := s.rd F.lnkBind_dstEntry j, xid := a, data := p.payload } ∧ s.rd F.lnkBind_kind j = 1 ∧ s.rd
          F.lnkBind_via j = d ∧ s.epRole a e = 1 ∧ p.payload.length ≤ 992 ∧ s.links.accepting = true ∧ s.spanRoute d
          false m = .hold) ∧
    (∃ s : State, ∃ d : Fin 8, ∃ p : Packet, ∃ a : Nat, ∃ e : Nat, ∃ j : Nat, ∃ m : SpanPkt,
        s.linkHalted d = false ∧ s.mayMove p = true ∧ s.stopsAt p = none ∧ p.body = .setpoint e ∧ p.src = .tile a ∧
          p.dst = .link d ∧ p.cls = 0 ∧ p.bad = false ∧ s.linkBind a e = some j ∧ m = {
            lvc := 0, kind := 2, hops := 63, dstPanel := s.rd F.lnkBind_dstPanel j, srcPanel := s.panelId,
            dstUnit := s.rd F.lnkBind_dstEntry j, xid := a, data := p.payload } ∧ s.rd F.lnkBind_kind j = 1 ∧ s.rd
          F.lnkBind_via j = d ∧ s.epRole a e = 1 ∧ p.payload.length ≤ 992 ∧ s.links.accepting = true ∧ s.spanRoute d
          false m = .port d) ∧
    (∃ s : State, ∃ d : Fin 8, ∃ p : Packet, ∃ a : Nat, ∃ e : Nat, ∃ j : Nat, ∃ m : SpanPkt,
        s.linkHalted d = false ∧ s.mayMove p = true ∧ s.stopsAt p = none ∧ p.body = .setpoint e ∧ p.src = .tile a ∧
          p.dst = .link d ∧ p.cls = 0 ∧ p.bad = false ∧ s.linkBind a e = some j ∧ m = {
            lvc := 0, kind := 2, hops := 63, dstPanel := s.rd F.lnkBind_dstPanel j, srcPanel := s.panelId,
            dstUnit := s.rd F.lnkBind_dstEntry j, xid := a, data := p.payload } ∧ s.rd F.lnkBind_kind j = 1 ∧ s.rd
          F.lnkBind_via j = d ∧ s.epRole a e = 1 ∧ p.payload.length ≤ 992 ∧ s.links.accepting = true ∧ s.spanRoute d
          false m = .drop) ∧
    (∃ s : State, ∃ d : Fin 8, ∃ p : Packet, ∃ a : Nat, ∃ e : Nat, ∃ j : Nat, ∃ m : SpanPkt,
        s.linkHalted d = false ∧ s.mayMove p = true ∧ s.stopsAt p = none ∧ p.body = .setpoint e ∧ p.src = .tile a ∧
          p.dst = .link d ∧ p.cls = 0 ∧ p.bad = false ∧ s.linkBind a e = some j ∧ m = {
            lvc := 0, kind := 2, hops := 63, dstPanel := s.rd F.lnkBind_dstPanel j, srcPanel := s.panelId,
            dstUnit := s.rd F.lnkBind_dstEntry j, xid := a, data := p.payload } ∧
          (s.rd F.lnkBind_kind j ≠ 1 ∨ s.rd F.lnkBind_via j ≠ d ∨ s.epRole a e ≠ 1 ∨ 992 < p.payload.length)) :=
  ⟨⟨s324, 5, ((s324.net)[0]'(by decide +kernel)), 3, 5, 0, 9, 0, 0, 0,
       (leNat ((s324.net)[0]'(by decide +kernel)).payload), by decide +kernel⟩,
   ⟨s325, 5, ((s325.net)[0]'(by decide +kernel)), 3, 5, 0, 9, 0, 0, 0,
       (leNat ((s325.net)[0]'(by decide +kernel)).payload), by decide +kernel⟩,
   ⟨s326, 5, (((s326.lport 5).arrived.map (·.1))[1]'(by decide +kernel)), true, by decide +kernel⟩,
   ⟨s327, 5, (((s327.lport 5).arrived.map (·.1))[1]'(by decide +kernel)), true,
       (((mfind s327.links.exports 4).toList)[0]'(by decide +kernel)), by decide +kernel⟩,
   ⟨s328, 5, (((s328.lport 5).arrived.map (·.1))[1]'(by decide +kernel)), true,
       (((mfind s328.links.exports 4).toList)[0]'(by decide +kernel)), 2, by decide +kernel⟩,
   ⟨s329, 5, (((s329.lport 5).arrived.map (·.1))[1]'(by decide +kernel)), true, (5*64+3), by decide +kernel⟩,
   ⟨s330, 5, (((s330.lport 5).arrived.map (·.1))[1]'(by decide +kernel)), true, (5*64+3), by decide +kernel⟩,
   ⟨s331, 5, 4, 1, (((mfind s331.links.exports 4).toList)[0]'(by decide +kernel)), by decide +kernel⟩,
   ⟨s332, 5, ((s332.net)[0]'(by decide +kernel)), 3, 9, 8,
       {
           lvc := 0, kind := 2, hops := 63, dstPanel := s332.rd F.lnkBind_dstPanel 8, srcPanel := s332.panelId,
           dstUnit := s332.rd F.lnkBind_dstEntry 8, xid := 3, data := ((s332.net)[0]'(by decide +kernel)).payload },
       by decide +kernel⟩,
   ⟨s333, 5, ((s333.net)[0]'(by decide +kernel)), 3, 9, 8,
       {
           lvc := 0, kind := 2, hops := 63, dstPanel := s333.rd F.lnkBind_dstPanel 8, srcPanel := s333.panelId,
           dstUnit := s333.rd F.lnkBind_dstEntry 8, xid := 3, data := ((s333.net)[0]'(by decide +kernel)).payload },
       by decide +kernel⟩,
   ⟨(bnd 1 []), 5, (((bnd 1 []).net)[0]'(by decide +kernel)), 3, 9, 8,
       {
           lvc := 0, kind := 2, hops := 63, dstPanel := (bnd 1 []).rd F.lnkBind_dstPanel 8,
           srcPanel := (bnd 1 []).panelId, dstUnit := (bnd 1 []).rd F.lnkBind_dstEntry 8, xid := 3,
           data := (((bnd 1 []).net)[0]'(by decide +kernel)).payload }, by decide +kernel⟩,
   ⟨(bnd 0 []), 5, (((bnd 0 []).net)[0]'(by decide +kernel)), 3, 9, 8,
       {
           lvc := 0, kind := 2, hops := 63, dstPanel := (bnd 0 []).rd F.lnkBind_dstPanel 8,
           srcPanel := (bnd 0 []).panelId, dstUnit := (bnd 0 []).rd F.lnkBind_dstEntry 8, xid := 3,
           data := (((bnd 0 []).net)[0]'(by decide +kernel)).payload }, by decide +kernel⟩⟩

end Sys2Proof.Tests.ExportsAndControlMessages

namespace Sys2Proof.Tests.IslandsKeepTime

def b1 := base0

def isls : List Nat := [0, 577, 1153, 1217, 1224, 1228]

def tm (t : TimeState) (l : List (Fld × Nat × Nat) := []) (s : State := b1) : State := put l { s with time := t }

def bcn (mk time frac flags per : Nat) : Packet :=
  {
      body := .beacon mk time, cls := 0, noack := true, dst := .broadcast, src := .mgmt 0,
      payload := leBytes 2 frac ++ leBytes 1 flags ++ leBytes 1 2 ++ leBytes 4 per ++ List.replicate 24 0 }

def bs : List Packet :=
  [bcn 20 5000 0x8000 0 0x40000000, bcn 20 5000 0x8000 1 0x40000001, bcn 20 5012 0 6 0x3fffffff, bcn 19 1 0 0 0]

def withIs (x : Island) : NMap Island := isls.map (fun i => (i, x))

def xs : List Island :=
  [{}, { window := 100000 }, { latched := [(20, 8000)] },
      {
          latched := [(20, 8000)], anchorE := 7000, anchorT := 4990, prev := some (4000, 7000), rate := 5/8,
          absorb := 3, absorbE := 6000 },
      {
          latched := [(20, 8000)], anchorE := 7000, anchorT := 6000, prev := some (4000, 8000), window := 3,
          freq := 30, goodRun := 15, lastBeacon := 20 }, { lastBeacon := 22, cc := 2^48-1, running := false },
      {
          freq := 29, lastBeacon := 20, window := 1, latched := [(20, 8000)], anchorE := 8000, anchorT := 5001,
          rate := 1/3, prev := some (4990, 7990) }]

def sS : List State :=
  xs.flatMap (fun x =>
        let s0 := { tm { marker := 20, islands := withIs x } with net := bs };
        [s0, put (isls.map (fun i => (F.clkIsl_mode, i, 1))) s0,
            put (isls.map (fun i => (F.clkIsl_holdover, i, 1)) ++
                  [(F.admSrc_rate, 512, 9), (F.admSrc_burst, 512, 20)]) s0]) ++ [put [(F.clkMarginCfg_warnPs, 0,
              1023), (F.clkMarginCfg_critPs, 0, 1022), (F.admSrc_rate, 512, 9), (F.admSrc_burst, 512, 20),
          (F.clkLeap_leapTime, 0, 5)] { b1 with buckets := [(512, 9999)] },
      put [(F.clkMarginCfg_warnPs, 0, 0), (F.clkMarginCfg_critPs, 0, 0), (F.pwrPack_afCeil, 0, 24)] b1,
      put [(F.admSrc_rate, 512, 9), (F.admSrc_burst, 512, 20)]
        { b1 with buckets := [(512, 4096)], time := { beaconSent := 1 } }]

def isK : State :=
  { b1 with
      time := { b1.time with marker := 20, islands := [(0, { latched := [(20, 8000)] })] },
      net := [bcn 20 5000 0x8000 0 0x40000000] }

/-- States that meet the hypotheses of each clause of `Obligations.IslandsKeepTime`. -/
theorem witness_IslandsKeepTime :
    (∃ s : State,
        s.time.beaconSent ≠ s.time.marker + 1 ∧ s.inSit = false ∧ s.mnHalted = false ∧ s.rd F.idnState_panelState 0
          ≠ 2) ∧
    (∃ s : State, ∃ i : Fin 1230, ∃ p : Packet, ∃ marker : Nat, ∃ time : Nat, ∃ m : Rat,
        s.halted i = false ∧ s.islandHears p i = true ∧ p.body = .beacon marker time ∧ markersSince
          (s.isl i).lastBeacon marker < 2 ^ 31 ∧ s.rd F.clkIsl_holdover i = 0 ∧ m = (time : Rat) +
          (leNat (p.payload.take 2) : Rat) / 65536 + s.spineDelay i ∧
          ((s.isl i).latched.find? (fun l => l.1 == marker) = none)) ∧
    (∃ s : State, ∃ i : Fin 1230, ∃ p : Packet, ∃ marker : Nat, ∃ time : Nat, ∃ m : Rat, ∃ k, ∃ e, ∃ r,
        s.halted i = false ∧ s.islandHears p i = true ∧ p.body = .beacon marker time ∧ markersSince
          (s.isl i).lastBeacon marker < 2 ^ 31 ∧ s.rd F.clkIsl_holdover i = 0 ∧ m = (time : Rat) +
          (leNat (p.payload.take 2) : Rat) / 65536 + s.spineDelay i ∧
          ((s.isl i).latched.find? (fun l => l.1 == marker) = some (k, e)) ∧ r = ({ s.isl i with
                lastBeacon := (marker + 1) % 2 ^ 32, spineT := m, spinePeriod := leNat ((p.payload.drop 4).take 4) }
              : Island).correct i ((leNat ((p.payload.drop 2).take 1)).testBit 0) m e) ∧
    (∃ s : State, ∃ i : Fin 1230,
        s.halted i = false ∧ s.rd F.clkIsl_holdover i = 0 ∧ s.rd F.clkIsl_mode i = 0 ∧ 8 ≤ (s.isl i).missedRun +
          markersSince (s.isl i).lastBeacon (s.time.marker + 1)) ∧
    (∃ s : State, ∃ i : Fin 1230, ∃ f,
        s.halted i = false ∧ islKind i ≠ .fixed ∧ f = s.setFreq i ∧ f ≠ (s.isl i).freqNow i ∧ f ≠ 0) ∧
    (∃ s : State, ∃ i : Fin 1230, s.halted i = false ∧ s.braked i = false) ∧
    (∃ s : State, ∃ i : Fin 1230, ∃ st : Fin 20, ∃ k : Nat,
        s.halted i = false ∧ (k = (if s.braked i then 19 else st.val)) ∧ k ≠ 0) ∧
    (∃ s : State, ∃ i : Fin 1230,
        s.halted i = false ∧ (s.isl i).longWin = false ∧ 1000 < ((s.isl i).window : Rat) * unitNs
          ((s.isl i).freqNow i)) ∧
    (∃ s : State, ∃ i : Fin 1230, ∃ ps : BitVec 10,
        s.halted i = false ∧ s.rd F.clkMarginCfg_warnPs 0 ≤ ps.toNat ∧ s.rd F.clkMarginCfg_critPs 0 ≤ ps.toNat) ∧
    (∃ s : State, ∃ i : Fin 1230, ∃ ps : BitVec 10, s.halted i = false ∧ ps.toNat < s.rd F.clkMarginCfg_warnPs 0) ∧
    (∃ s : State, ∃ i : Fin 1230, ∃ ps : BitVec 10,
        s.halted i = false ∧ ps.toNat < s.rd F.clkMarginCfg_critPs 0 ∧ islKind i ≠ .fixed) ∧
    (∃ s : State, ∃ i : Fin 1230, s.rd F.clkIsl_holdover i = 0 ∧ (s.isl i).running = true) ∧
    (∃ s : State, ∃ i : Fin 1230, s.rd F.clkIsl_holdover i = 1) :=
  ⟨⟨((sS)[0]'(by decide +kernel)), by decide +kernel⟩,
   ⟨((sS)[0]'(by decide +kernel)), 0, (bcn 20 5000 0x8000 0 0x40000000), 20, 5000,
       ((bs.flatMap (fun b => [1, 5000, 5012].map
                     (fun t => (t : Rat) + (leNat (b.payload.take 2) : Rat) / 65536)))[1]'(by decide +kernel)),
       by decide +kernel⟩,
   ⟨isK, 0, bcn 20 5000 0x8000 0 0x40000000, 20, 5000,
       (5000 : Rat) + (leNat ((bcn 20 5000 0x8000 0 0x40000000).payload.take 2) : Rat) / 65536 + isK.spineDelay 0,
       20, 8000, _, by decide +kernel, by decide +kernel, by decide +kernel, by decide +kernel, by decide +kernel,
       rfl, by decide +kernel, rfl⟩,
   ⟨((sS)[0]'(by decide +kernel)), 0, by decide +kernel⟩,
   ⟨((sS)[12]'(by decide +kernel)), 1217, 60, by decide +kernel⟩,
   ⟨((sS)[0]'(by decide +kernel)), 0, by decide +kernel⟩,
   ⟨((sS)[0]'(by decide +kernel)), 0, 1, 1, by decide +kernel⟩,
   ⟨((sS)[3]'(by decide +kernel)), 0, by decide +kernel⟩,
   ⟨((sS)[0]'(by decide +kernel)), 0, 100, by decide +kernel⟩,
   ⟨((sS)[0]'(by decide +kernel)), 0, 0, by decide +kernel⟩,
   ⟨((sS)[0]'(by decide +kernel)), 0, 0, by decide +kernel⟩,
   ⟨((sS)[0]'(by decide +kernel)), 0, by decide +kernel⟩,
   ⟨((sS)[2]'(by decide +kernel)), 0, by decide +kernel⟩⟩

end Sys2Proof.Tests.IslandsKeepTime

namespace Sys2Proof.Tests.PanelTimeFollowsTheSpine

def b1 := base0

def tm (t : TimeState) (l : List (Fld × Nat × Nat) := []) (s : State := b1) : State := put l { s with time := t }

def ptp1 (l : List (Nat × PtpClock)) : State :=
  let s := tm { master := true } ([(F.clkCfg_timeSrc, 0, 1), (F.clkStat_timeState, 0, 2)] ++ [1, 2, 6].flatMap
        (fun n => [(F.fldPort_en, n, 1), (F.fldPort_ptpEn, n, 1), (F.fldPortStat_link, n, 1)]))
  { s with field := { s.field with ports := l.map (fun x => (x.1, { heard := some x.2 })) } }

def s356 : State :=
  (tm { lastPps := some 1000, everSet := true, master := true }
        [(F.clkCfg_timeSrc, 0, 2), (F.clkStat_timeState, 0, 2), (F.clkCfg_ppsInComp, 0, 0xFFF0)])

/-- States that meet the hypotheses of each clause of `Obligations.PanelTimeFollowsTheSpine`. -/
theorem witness_PanelTimeFollowsTheSpine :
    (∃ s : State, s.time.stepAt = none ∧ s.time.stepBy = none) ∧
    (∃ s : State, ∃ m, ∃ v, s.time.stepAt = some (m, v) ∧ m ≤ s.time.marker + 1) ∧
    (∃ s : State, s.time.refOk = true ∧ s.rd F.clkCfg_refEn 0 = 1 ∧ s.rd F.clkStat_spineSrc 0 ≠ 1) ∧
    (∃ s : State, s.time.refOk = false ∧ s.rd F.clkCfg_refEn 0 = 1) ∧
    (∃ s : State, s.rd F.clkCfg_refEn 0 = 0 ∧ s.time.refOk = true) ∧
    (∃ s : State, s.rd F.clkCfg_refEn 0 = 0 ∧ s.time.refOk = false) ∧
    (∃ s : State, ∃ ts : Nat, ∃ v : Nat,
        s.mnHalted = false ∧ s.stampOk 1228 ts = true ∧ v =
          ((ts : Int) - signed16 (s.rd F.clkCfg_ppsInComp 0)).toNat ∧ s.time.lastPps = none ∧ s.rd F.clkCfg_timeSrc
          0 ≠ 2) ∧
    (∃ s : State, ∃ ts : Nat, ∃ v : Nat, ∃ l : Nat,
        s.mnHalted = false ∧ s.stampOk 1228 ts = true ∧ v =
          ((ts : Int) - signed16 (s.rd F.clkCfg_ppsInComp 0)).toNat ∧ s.time.lastPps = some l ∧ 1000 <
          (((v : Int) - l) - 1000000000).natAbs) ∧
    (∃ s : State,
        s.mnHalted = false ∧ (∀ l,
            s.time.lastPps = some l → (l : Int) + 2000000000 + signed16 (s.rd F.clkCfg_ppsInComp 0) ≤ s.now + 1000)) ∧
    (∃ s : State,
        s.secondDue = true ∧
          ((s.rd F.clkCfg_ppsOutEn 0 = 1 ∧ s.rd F.clkStat_timeState 0 = 2) ∨ s.rd F.clkCfg_ppsOutForce 0 = 1) ∧
          s.inSit = false) ∧
    (∃ s : State, s.time.master = true) :=
  ⟨⟨(ptp1 [(1, { priority1 := 5, identity := 9 }), (2, { priority1 := 6, identity := 10 })]), by decide +kernel⟩,
   ⟨(tm { stepAt := some (7, 2^64+5), marker := 6 } [(F.clkCmd_set, 0, 1)]), 7, (2^64+5), by decide +kernel⟩,
   ⟨(ptp1 [(1, { priority1 := 5, identity := 9 }), (2, { priority1 := 6, identity := 10 })]), by decide +kernel⟩,
   ⟨(tm { refOk := false } [(F.clkCfg_refEn, 0, 1), (F.clkStat_spineSrc, 0, 1)]), by decide +kernel⟩,
   ⟨(tm {} [(F.clkCfg_refEn, 0, 0)]), by decide +kernel⟩,
   ⟨(tm { refOk := false } [(F.clkCfg_refEn, 0, 0)]), by decide +kernel⟩,
   ⟨(ptp1 [(1, { priority1 := 5, identity := 9 }), (2, { priority1 := 6, identity := 10 })]), 5, 5,
       by decide +kernel⟩,
   ⟨s356, 5, 21, ((s356.time.lastPps.toList)[0]'(by decide +kernel)), by decide +kernel⟩,
   ⟨(ptp1 [(1, { priority1 := 5, identity := 9 }), (2, { priority1 := 6, identity := 10 })]), by decide +kernel⟩,
   ⟨(ptp1 [(1, { priority1 := 5, identity := 9 }), (2, { priority1 := 6, identity := 10 })]), by decide +kernel⟩,
   ⟨(ptp1 [(1, { priority1 := 5, identity := 9 }), (2, { priority1 := 6, identity := 10 })]), by decide +kernel⟩⟩

end Sys2Proof.Tests.PanelTimeFollowsTheSpine

namespace Sys2Proof.Tests.PowerStaysWithinLimits

def b1 :=
  put ([0, 1, 7, 40].flatMap (fun p => [(F.pwrPack_afCeil, p, if p = 0 then 48 else if p = 7 then 15 else 12),
              (F.pwrPack_rfCeil, p, 60), (F.pwrPack_avCeil, p, 80)])) base0

def pw (l : List (Fld × Nat × Nat)) (s : State := b1) : State := put l s

/-- States that meet the hypotheses of each clause of `Obligations.PowerStaysWithinLimits`. -/
theorem witness_PowerStaysWithinLimits :
    (∃ s : State, ∃ south : Bool, ∃ c : Fin 16,
        ((s.rd (if south then F.pwrIn_cellsS else F.pwrIn_cellsN) 0).testBit c = false)) ∧
    (∃ s : State, ∃ pIn : Nat, ∃ vIn : Nat,
        s.mnHalted = false ∧ pIn ≤ (s.limitEff vIn).1 ∧ (s.limitEff vIn).1 * 98 ≤ pIn * 100 ∧ s.failedCells 0 < 2 ∧
          s.failedCells 1 < 2) ∧
    (∃ s : State, ∃ p : Fin 64, ∃ power : Nat,
        s.halted (hubIsland p) = false ∧ s.packDark p = false ∧
          (s.rd F.pwrPack_pCeil p = 0 ∨ power ≤ s.rd F.pwrPack_pCeil p)) ∧
    (∃ s : State, ∃ p : Fin 64, ∃ power : Nat,
        s.halted (hubIsland p) = false ∧ s.packDark p = false ∧ s.rd F.pwrPack_pCeil p ≠ 0 ∧ s.rd F.pwrPack_pCeil p
          < power ∧ s.packFitted p = true ∧ 12 < s.packFreq p ∧ power - s.rd F.pwrPack_pCeil p ≤ s.saving p) ∧
    (∃ s : State, s.rd F.pwrStat_brake 0 = 0) ∧
    (∃ s : State, s.rd F.pwrStat_brake 0 = 1) ∧
    (∃ s : State, ∃ i : Fin 1230, ∃ loop : Fin 6, s.halted i = false ∧ loop.val ≤ 1 ∧ s.capOf i loop = none) ∧
    (∃ s : State, ∃ i : Fin 1230, ∃ loop : Fin 6, ∃ c, s.halted i = false ∧ loop.val ≤ 1 ∧ s.capOf i loop = some c) ∧
    (∃ s : State, ∃ p : Fin 64, s.packDark p = false ∧ s.inSit = false ∧ s.packFitted p = true) :=
  ⟨⟨(pw []), false, 0, by decide +kernel⟩,
   ⟨(pw []), 0, 4000, by decide +kernel⟩,
   ⟨(pw []), 0, 0, by decide +kernel⟩,
   ⟨(pw ([0, 7, 40].flatMap (fun p =>
                     [(F.pwrPack_pCeil, p, 1000), (F.pwrPackStat_pPack, p, 900), (F.pwrPack_afFloor, p, 20)]))), 0,
       1001, by decide +kernel⟩,
   ⟨(pw []), by decide +kernel⟩,
   ⟨(pw [(F.pwrIn_cellsN, 0, 3), (F.pwrStat_brake, 0, 1), (F.pwrStat_cause, 0, 3)]), by decide +kernel⟩,
   ⟨(pw []), 5, 0, by decide +kernel⟩,
   ⟨{ b1 with
           power := { b1.power with
               packBrake := [0, 40], brakeAt := 5,
               caps := [(5*8, 30), (5*8+1, 47), (577*8+0, 58), (577*8+1, 60), (1217*8, 59),
                   ((576+packSite 7 0)*8, 20), ((576+packSite 7 0)*8+1, 59), (1159*8, 17)] } }, 5, 0, 30,
       by decide +kernel⟩,
   ⟨(pw []), 0, by decide +kernel⟩⟩

end Sys2Proof.Tests.PowerStaysWithinLimits

namespace Sys2Proof.Tests.TemperaturesAreJudged

def b1 :=
  put ([0, 1, 7, 40].flatMap (fun p => [(F.pwrPack_afCeil, p, if p = 0 then 48 else if p = 7 then 15 else 12),
              (F.pwrPack_rfCeil, p, 60), (F.pwrPack_avCeil, p, 80)])) base0

def pw (l : List (Fld × Nat × Nat)) (s : State := b1) : State := put l s

def tS : List State :=
  let rd4 (v : Nat) := [0,1].flatMap (fun s => [(F.thmRaw_readings, s, v)])
  [b1, pw (rd4 (500 + 561*2^16 + 500*2^32 + 440*2^48)),
      pw (rd4 (500 + 560*2^16 + 65535*2^32 + 440*2^48) ++ [(F.thmTile_faultB, 0, 1), (F.thmTile_faultA, 1, 1)]),
      pw
        [(F.thmTile_tUsed, 0, 0x8000), (F.thmTile_guard, 0, 1), (F.thmTile_tUsed, 1, 100), (F.thmTile_guard, 1, 1)],
      pw [(F.thmTile_tUsed, 0, 900), (F.thmTile_guard, 0, 1), (F.thmTile_tUsed, 1, 100), (F.thmTile_guard, 1, 1),
          (F.thmCfg_modelEn, 0, 1), (F.thmCfg_crit, 0, 105), (F.thmCfg_target, 0, 95), (F.pwrPack_afCeil, 0, 40),
          (F.pwrPack_afCeil, 1, 40)] { b1 with
          power := { b1.power with
              caps := [(3, 12), (8+3, 47)], stackHot := [0], stackCool := [(0, 9)],
              therm := [(5, { rs := 4, rn := 1/2, tau := 5 })] } },
      pw ([(F.thmCfg_modelEn, 0, 1), (F.thmCfg_target, 0, 40), (F.thmCool_tIn, 0, 250)] ++ (List.range 30).map
            (fun x => (F.thmTile_tUsed, x, 900 + x))) { b1 with
          power := { b1.power with caps := [(1152*8+6, 7), (1152*8+7, 3), (1159*8+6, 6)] } }]

/-- States that meet the hypotheses of each clause of `Obligations.TemperaturesAreJudged`. -/
theorem witness_TemperaturesAreJudged :
    (∃ s : State, ∃ site : Fin 576, ∃ raw : List Int,
        raw.length = 4 ∧ s.siteFitted site = true ∧ s.packDark (sitePack site) = false ∧ readingOf raw = none) ∧
    (∃ s : State, ∃ site : Fin 576, ∃ raw : List Int, ∃ v : Nat,
        raw.length = 4 ∧ s.siteFitted site = true ∧ s.packDark (sitePack site) = false ∧ readingOf raw = some v) ∧
    (∃ s : State, ∃ site : Fin 576, ∃ k : Fin 2,
        (s.lastPair site k).all inRange = true ∧ 60 < pairGap (s.lastPair site k) ∧ s.rd (faultFld k) site = 0) ∧
    (∃ s : State, ∃ site : Fin 576, ∃ k : Fin 2,
        (s.lastPair site k).all inRange = true ∧ pairGap (s.lastPair site k) ≤ 60) ∧
    (∃ s : State, ∃ site : Fin 576, ∃ c,
        s.rd F.thmTile_guard site = 1 ∧ s.halted site = false ∧ s.rd F.thmTile_tUsed site ≠ 0x8000 ∧ signed16
          (s.rd F.thmTile_tUsed site) + 50 < (s.rd F.thmCfg_crit 0 * 10 : Nat) ∧ s.capOf site 3 = some c ∧ c + 1 <
          s.ceilOf site) ∧
    (∃ s : State, ∃ site : Fin 576, ∃ c,
        s.rd F.thmTile_guard site = 1 ∧ s.halted site = false ∧ s.rd F.thmTile_tUsed site ≠ 0x8000 ∧ signed16
          (s.rd F.thmTile_tUsed site) + 50 < (s.rd F.thmCfg_crit 0 * 10 : Nat) ∧ s.capOf site 3 = some c ∧ s.ceilOf
          site ≤ c + 1) ∧
    (∃ s : State, ∃ p : Fin 64, ∃ v : Nat,
        s.halted (hubIsland p) = false ∧ s.packDark p = false ∧ s.packFitted p = true ∧ v < 120) ∧
    (∃ s : State, s.rd F.thmCfg_modelEn 0 = 1 ∧ s.mnHalted = false ∧ s.inSit = false) ∧
    (∃ s : State, ∃ site : Fin 576, s.mnHalted = false ∧ s.inSit = false ∧ s.siteFitted site = true) :=
  ⟨⟨((tS)[0]'(by decide +kernel)), 0, [2000, 2000, 2000, -3000], by decide +kernel⟩,
   ⟨((tS)[0]'(by decide +kernel)), 0, [500, 510, 520, 530], 530, by decide +kernel⟩,
   ⟨((tS)[1]'(by decide +kernel)), 0, 0, by decide +kernel⟩,
   ⟨((tS)[0]'(by decide +kernel)), 0, 0, by decide +kernel⟩,
   ⟨((tS)[4]'(by decide +kernel)), 0, 12, by decide +kernel⟩,
   ⟨((tS)[4]'(by decide +kernel)), 1, 47, by decide +kernel⟩,
   ⟨((tS)[0]'(by decide +kernel)), 0, 60, by decide +kernel⟩,
   ⟨((tS)[0]'(by decide +kernel)), by decide +kernel⟩,
   ⟨((tS)[0]'(by decide +kernel)), 0, by decide +kernel⟩⟩

end Sys2Proof.Tests.TemperaturesAreJudged

namespace Sys2Proof.Tests.SitAndReadOut

def b1 := base0

def st (l : List (Fld × Nat × Nat)) (x : SitState := {}) (s : State := b1) : State := put l { s with sit := x }

def lup2 (s : State) : State :=
  put [(F.lnkStat_state, 5, 5), (F.lnkStat_state, 2, 5), (F.lnkCfg_panelId, 0, 77), (F.monSitCfg_spanOut, 0, 1),
      (F.monSitCfg_spanInEn, 0, 1), (F.lnkPort_en, 5, 1)] s

def sitp (a : Bool) : Packet := { body := .sit a, cls := 0, noack := true, dst := .broadcast, src := .mgmt 0 }

def allBut (l : List Nat) : List Nat := (List.range 1226 ++ [1229]).filter (fun i => !l.contains i)

def fz : State := st [(F.monSitStat_state,0,2)] {latch := true, stopped := allBut []}

def s386 : State :=
  (st [(F.monSitStat_state, 0, 1), (F.monSitStat_pin, 0, 1)] { pinLow := true, told := [3] }
        { b1 with net := [sitp false] })

/-- States that meet the hypotheses of each clause of `Obligations.SitAndReadOut`. -/
theorem witness_SitAndReadOut :
    (∃ s : State, s.rd F.monSitStat_state 0 = 0 ∧ s.sit.pinLow = false) ∧
    (∃ s : State, ∃ port : Fin 2,
        s.rd F.monSitStat_state 0 = 0 ∧ s.Open port .mon ∧ s.panelId ≠ 4095 ∧ s.rd F.monSitCfg_spanOut 0 = 1) ∧
    (∃ s : State, s.rd F.monSitStat_state 0 = 0 ∧ s.tapUp = true) ∧
    (∃ s : State, ∃ n : Fin 8, ∃ w : SitWord,
        s.rd F.monSitStat_state 0 = 0 ∧ s.lup n = true ∧ w.op = 0 ∧ (mget s.links.sitKeys n []).contains
          (w.origin, w.sitId, 0) = false ∧ s.rd F.monSitCfg_spanInEn 0 = 1 ∧ s.sit.latch = false) ∧
    (∃ bits : BitVec 2, bits.getLsbD 0 = false) ∧
    (∃ s : State, s.rd F.monSitStat_state 0 ≠ 0 ∧ s.sit.pinLow = true) ∧
    (∃ s : State, ∃ c : Instr,
        s.rd F.monSitStat_state 0 ≠ 0 ∧
          ((∃ port : Fin 2, s.Open port .mon ∧ c = .monSitResume port false) ∨ (s.tapUp = true ∧ c = .tapResume 1))) ∧
    (∃ s : State, ∃ n : Fin 8, ∃ w : SitWord,
        s.rd F.monSitStat_state 0 ≠ 0 ∧ s.lup n = true ∧ w.op = 1 ∧ (mget s.links.sitKeys n []).contains
          (w.origin, w.sitId, 1) = false ∧ s.rd F.monSitCfg_spanInEn 0 = 1 ∧ s.sit.latch = true ∧ s.sit.bySpan =
          true ∧ s.sit.spanOrigin = w.origin ∧ s.sit.spanId = w.sitId ∧ s.sit.pinLow = false) ∧
    (∃ s : State, ∃ i : Fin 1230, ∃ p : Packet, ∃ all : Bool,
        p.body = .sit all ∧ s.islandHears p i = true ∧ s.halted i = false ∧ s.sit.told.contains i.val = false) ∧
    (∃ s : State, ∃ i : Fin 1230,
        s.halted i = false ∧ s.rd F.monSitStat_state 0 = 1 ∧ stopsLast i = false ∧ s.sit.told.contains i.val = true) ∧
    (∃ s : State, ∃ i : Fin 1230,
        s.halted i = false ∧ s.rd F.monSitStat_state 0 = 2 ∧ s.sit.all = true ∧ stopsLast i = true) ∧
    (∃ s : State, ∃ i : Fin 1230,
        s.halted i = false ∧ s.rd F.monSitStat_state 0 = 0 ∧ s.rd F.prtHalf_state 0 = 1 ∧ southIslands.contains
          i.val = true) ∧
    (∃ s : State,
        s.rd F.monSitStat_state 0 = 3 ∧ s.boot.deferred = [] ∧ (∀ i ∈ s.sit.stopped, i < 1230) ∧
          (∀ f ∈ s.host.descrs, f.port < 2 ∧ f.sq < 256)) ∧
    (∃ s : State, ∃ port : Fin 2, s.Open port .mon ∧ s.mon.ro.running = false ∧ s.freezeFabric = false) ∧
    (∃ s : State, ∃ port : Fin 2, s.Open port .mon ∧ s.mon.ro.running = false ∧ s.freezeFabric = true) ∧
    (∃ s : State, ∃ port : Fin 2, s.Open port .mon ∧ s.mon.ro.running = true) ∧
    (∃ s : State,
        s.mon.ro.running = true ∧ s.freezeFabric = true ∧ s.portUp s.mon.ro.port = true ∧ s.rd F.monRoCmd_abort 0 =
          0 ∧ s.roRecords = [] ∧ 1 ≤ s.rd F.monRoLen_pages 0) :=
  ⟨⟨b1, by decide +kernel⟩,
   ⟨b1, 0, by decide +kernel⟩,
   ⟨b1, by decide +kernel⟩,
   ⟨(lup2 b1), 5, { op:=0, all:=true, origin:=9, sitId:=4 }, by decide +kernel⟩,
   ⟨0, by decide +kernel⟩,
   ⟨(st [(F.monSitStat_state, 0, 1), (F.monSitStat_pin, 0, 1)] { pinLow := true, told := [3] }
             { b1 with net := [sitp false] }), by decide +kernel⟩,
   ⟨st [(F.monSitStat_state, 0, 2)], .monSitResume 0 false, by decide +kernel, .inl ⟨0, by decide +kernel, rfl⟩⟩,
   ⟨(lup2 (st [(F.monSitStat_state, 0, 2), (F.monSitStat_latch, 0, 1)]
                 { latch := true, bySpan := true, spanOrigin := 9, spanId := 4, all := true, stopped := allBut [] }
                 { b1 with net := [sitp true, sitp false] })), 5, { op:=1, origin:=9, sitId:=4 }, by decide +kernel⟩,
   ⟨s386, 1226, (([sitp true, sitp false] ++ s386.net.drop 2)[1]'(by decide +kernel)), false, by decide +kernel⟩,
   ⟨(st [(F.monSitStat_state, 0, 1), (F.monSitStat_pin, 0, 1)] { pinLow := true, told := [3] }
             { b1 with net := [sitp false] }), 3, by decide +kernel⟩,
   ⟨(lup2 (st [(F.monSitStat_state, 0, 2), (F.monSitStat_latch, 0, 1)]
                 { latch := true, bySpan := true, spanOrigin := 9, spanId := 4, all := true, stopped := allBut [] }
                 { b1 with net := [sitp true, sitp false] })), 1226, by decide +kernel⟩,
   ⟨(st [(F.prtHalf_state, 0, 1)]), 300, by decide +kernel⟩,
   ⟨(st [(F.monSitStat_state, 0, 3)] {
               stopped := [3, 1228], told := [3], all := true, pendingRecs := [{ code := 0x40 }] } { b1 with
               net := [sitp true, sitp false, netp (pk (.setpoint 9) (.tile 3) (.link 5)) b1 |>.net.head!] }),
       by decide +kernel⟩,
   ⟨b1, 0, by decide +kernel⟩,
   ⟨fz, 0, by decide +kernel⟩,
   ⟨{ fz with mon := { fz.mon with ro := { running := true } } }, 0, by decide +kernel⟩,
   ⟨(put [(F.monRoSel_allUnits, 0, 0), (F.monRoSel_spaces, 0, 0), (F.monRoLen_pages, 0, 1),
               (F.monRoBase_addr, 0, 0x1000)] { fz with
               mon := { fz.mon with ro := { running := true, port := 1 } } }), by decide +kernel⟩⟩

end Sys2Proof.Tests.SitAndReadOut

namespace Sys2Proof.Tests.MonitorAnswers

def b1 := put [(F.idnStage_stage,0,5)] { base0 with boot := { base0.boot with record := some defaultRecord } }

def m (x : MonState) (l : List (Fld × Nat × Nat) := []) : State := put l { b1 with mon := x }

def fz (x : MonState) : State := put [(F.monSitStat_state,0,2)] { m x with sit := { latch := true, stopped := [3] } }

def rk : ConfigRecord := { defaultRecord with vendorKey := some [9], operatorHash := some (Config.sha512 [3]) }

def wk (s : State) : State := { s with boot := { s.boot with record := some rk } }

def wk7 : State := wk (m { chal := some 7 })

theorem auth_of (sig : List Byte) : wk7.authOk sig none = Config.ecdsaVerify [9] sig
    (authMessage (wk7.rd F.idnSerial_serial 0) 7) := by
  have h : wk7.swkFw = true := by decide +kernel
  have k : wk7.mon.chal = some 7 := rfl
  have l : wk7.boot.record = some rk := rfl
  have n : wk7.time.marker ≤ wk7.mon.chalAt + 60000000 := by decide +kernel
  simp [State.authOk, State.authKeys, h, k, l, n, rk]

/-- States that meet the hypotheses of each clause of `Obligations.MonitorAnswers`. -/
theorem witness_MonitorAnswers :
    (∃ s : State, s.tapUp = true ∧ s.CanResetAtOnce) ∧
    (∃ s : State, ∃ key : BitVec 8, s.tapUp = true ∧ key ≠ 0xA5) ∧
    (∃ s : State, s.tapUp = true ∧ s.inSit = false) ∧
    (∃ s : State, ∃ r, s.swkUp = true ∧ s.mon.newBaud = some r) ∧
    (∃ s : State, s.swkUp = true ∧ s.mon.baudTrial = true) ∧
    (∃ s : State, s.swkUp = true ∧ s.mon.baudTrial = false) ∧
    (∃ s : State, ∃ r, s.swkUp = true ∧ s.boot.record = some r) ∧
    (∃ s : State, ∃ rate, s.swkUp = true ∧ rate ∈ baudRates) ∧
    (∃ s : State, ∃ rate, s.swkUp = true ∧ rate ∉ baudRates) ∧
    (∃ s : State, s.swkUp = true ∧ s.mon.authBlocked = true) ∧
    (∀ r g : List Byte,
        r.length = 66 → g.length = 66 → Config.ecdsaVerify [9] (r ++ g)
          (authMessage (wk7.rd F.idnSerial_serial 0) 7) = true → ∃ s : State, ∃ q : Option (List Byte),
        s.swkUp = true ∧ s.mon.authBlocked = false ∧ r.length = 66 ∧ g.length = 66 ∧ (s.swkFw = true ∨ q ≠ none) ∧
          s.authOk (r ++ g) q = true) ∧
    (∃ s : State, ∃ r : List Byte, ∃ g : List Byte, ∃ q : Option (List Byte),
        s.swkUp = true ∧ s.mon.authBlocked = false ∧ r.length = 66 ∧ g.length = 66 ∧ (s.swkFw = true ∨ q ≠ none) ∧
          s.authOk (r ++ g) q = false) ∧
    (∃ s : State, ∃ c,
        s.swkUp = true ∧ s.swkFw = false ∧ c ∈
          [Instr.swkTime, .swkSit false false, .swkResume false, .swkClrfail 0]) ∧
    (∃ s : State, ∃ width : Nat, s.swkUp = true ∧ s.swkFw = true ∧ width ≠ 4 ∧ width ≠ 8) ∧
    (∃ s : State, ∃ off : BitVec 26, ∃ r : Reg, ∃ i : Nat,
        s.swkUp = true ∧ s.swkFw = true ∧ s.monShut off.toNat = false ∧ regAt 0 off.toNat = some (r, i, 0) ∧ r ≠
          .clkTime ∧ s.windowShut off.toNat = false ∧ inMsix off.toNat = false ∧ inPba off.toNat = false ∧
          s.accessOk 0 off.toNat (regPlace r).bytes = true) ∧
    (∃ s : State, s.swkUp = true ∧ s.swkFw = true ∧ s.rd F.monSitStat_state 0 = 0) ∧
    (∃ s : State, s.swkUp = true ∧ s.swkFw = true ∧ s.rd F.monSitStat_state 0 ≠ 0 ∧ s.sit.pinLow = false) :=
  ⟨⟨(m {}), by decide +kernel⟩,
   ⟨(m {}), 0, by decide +kernel⟩,
   ⟨(m {}), by decide +kernel⟩,
   ⟨(m { newBaud := some 921600 }), 921600, by decide +kernel⟩,
   ⟨(m { baudTrial := true, baud := 921600, tapAddr := 0x12345678 }), by decide +kernel⟩,
   ⟨(m {}), by decide +kernel⟩,
   ⟨(m {}), defaultRecord, by decide +kernel⟩,
   ⟨(m {}), 115200, by decide +kernel⟩,
   ⟨(m {}), 9600, by decide +kernel⟩,
   ⟨(m { authBlocked := true }), by decide +kernel⟩,
   fun r g hr hg hv =>
     ⟨wk7, none, by decide +kernel, by decide +kernel, hr, hg, .inl (by decide +kernel), by rw [auth_of, hv]⟩,
   ⟨(m {}), (List.replicate 66 1), (List.replicate 66 1), none, by decide +kernel⟩,
   ⟨put [(F.idnStage_stage, 0, 3)] b1, .swkTime, by decide +kernel, by decide +kernel, by simp⟩,
   ⟨(m {}), 2, by decide +kernel⟩,
   ⟨(m {}), 8, .idnSerial, 0, by decide +kernel⟩,
   ⟨(m {}), by decide +kernel⟩,
   ⟨(fz {}), by decide +kernel⟩⟩

end Sys2Proof.Tests.MonitorAnswers

namespace Sys2Proof.Tests.MonitorPrivilege

def b1 := put [(F.idnStage_stage,0,5)] { base0 with boot := { base0.boot with record := some defaultRecord } }

def m (x : MonState) (l : List (Fld × Nat × Nat) := []) : State := put l { b1 with mon := x }

def fz (x : MonState) : State := put [(F.monSitStat_state,0,2)] { m x with sit := { latch := true, stopped := [3] } }

def pv (s : State) : State := { s with mon := { s.mon with privileged := true, baudTrial := true } }

theorem pv_floor : (pv b1).recFloor = 0 := by decide +kernel

/-- States that meet the hypotheses of each clause of `Obligations.MonitorPrivilege`. -/
theorem witness_MonitorPrivilege :
    (∃ s : State, ∃ off : BitVec 26, ∃ v : BitVec 64, ∃ w : Nat, ∃ k : Nat, ∃ n : Nat, ∃ sp : Nat, ∃ o : Nat,
        ∃ len : Nat, ∃ a : Nat, ∃ r : ConfigRecord, ∃ c,
        s.swkUp = true ∧ s.swkFw = true ∧ s.mon.privileged = false ∧ c ∈ [Instr.swkWr off v w, .swkRo k n sp o len,
            .swkResetArray a, .swkResetPack a, .swkResetPanel, .swkClrfail a, .swkRecload len r]) ∧
    (∃ s : State, ∃ off : BitVec 26, ∃ v : BitVec 64, ∃ r : Reg, ∃ i : Nat,
        s.swkUp = true ∧ s.swkFw = true ∧ s.mon.privileged = true ∧ s.monShut off.toNat = false ∧ regAt 0 off.toNat
          = some (r, i, 0) ∧ Plain r ∧ isBase r = false ∧ Legal r v.toNat ∧ s.windowShut off.toNat = false ∧ inMsix
          off.toNat = false ∧ s.accessOk 0 off.toNat (regPlace r).bytes = true) ∧
    (∃ s : State, ∃ kind, ∃ n, ∃ space, ∃ off, ∃ len, ∃ b,
        s.swkUp = true ∧ s.swkFw = true ∧ s.mon.privileged = true ∧ s.freezeFabric = true ∧ kind ≤ 8 ∧ n < 4096 ∧
          len ≤ 4096 ∧ (s.roSlice { numUnit (kind * 4096) with num := n } space off len).map (·.1) = some b) ∧
    (∃ s : State, s.swkUp = true ∧ s.swkFw = true ∧ s.mon.privileged = true ∧ s.freezeFabric = false) ∧
    (∃ s : State, ∃ a, ∃ st,
        s.swkUp = true ∧ s.swkFw = true ∧ s.mon.privileged = true ∧ a < 512 ∧ s.resetScope 0 a = .inl st) ∧
    (∃ s : State, ∃ a,
        s.swkUp = true ∧ s.swkFw = true ∧ s.mon.privileged = true ∧ a < 512 ∧ s.resetScope 0 a = .inr ([a], []) ∧
          (s.inSit = true ∨ s.resetHeld [a] [] = true)) ∧
    (∃ s : State, ∃ a,
        s.swkUp = true ∧ s.swkFw = true ∧ s.mon.privileged = true ∧ a < 512 ∧ s.resetScope 0 a = .inr ([a], []) ∧
          s.inSit = false ∧ s.resetHeld [a] [] = false ∧ s.boot.resets = []) ∧
    (∃ s : State, ∃ p, ∃ st,
        s.swkUp = true ∧ s.swkFw = true ∧ s.mon.privileged = true ∧ p < 64 ∧ s.resetScope 1 p = .inl st) ∧
    (∃ s : State, ∃ p, ∃ as,
        s.swkUp = true ∧ s.swkFw = true ∧ s.mon.privileged = true ∧ p < 64 ∧ s.resetScope 1 p = .inr (as, [p]) ∧
          s.inSit = false ∧ s.resetHeld as [p] = false ∧ s.boot.resets = []) ∧
    (∃ s : State, s.swkUp = true ∧ s.swkFw = true ∧ s.mon.privileged = true ∧ s.CanResetAtOnce) ∧
    (∀ r : ConfigRecord,
        recordSound (parseRecord false (recordBytes r)) = true → (recordBytes r).length ≤ 1048576 → ∃ s : State,
        ∃ len,
        s.swkUp = true ∧ s.swkFw = true ∧ s.mon.privileged = true ∧ (recordBytes r).length = len ∧ len ≤ 1048576 ∧
          s.recordValid (parseRecord false (recordBytes r)) = true) ∧
    (∃ s : State, ∃ r : ConfigRecord, ∃ len,
        s.swkUp = true ∧ s.swkFw = true ∧ s.mon.privileged = true ∧ (recordBytes r).length = len ∧ len ≤ 1048576 ∧
          s.recordValid (parseRecord false (recordBytes r)) = false) :=
  ⟨⟨b1, 0, 0, 8, 0, 0, 0, 0, 0, 0, defaultRecord, .swkResetPanel, by decide +kernel, by decide +kernel,
       by decide +kernel, by simp⟩,
   ⟨(pv b1), 0x1200028, 5, .chCfg, 0, by decide +kernel, by decide +kernel, by decide +kernel, by decide +kernel,
       by decide +kernel, fun _ _ _ _ _ => rfl, by decide +kernel, by decide +kernel, by decide +kernel,
       by decide +kernel, by decide +kernel⟩,
   ⟨(pv (fz {})), 0, 0, 0, 0x1010000, 20, (List.replicate 20 0), by decide +kernel⟩,
   ⟨(pv b1), by decide +kernel⟩,
   ⟨(pv (put [(F.fabSite_state, 3, 1), (F.fltReserve_failedSites, 7, 5)]
                 { b1 with faults := { b1.faults with failedFlash := [(7, 3)] } })), 3, 1, by decide +kernel⟩,
   ⟨(pv (fz {})), 3, by decide +kernel⟩,
   ⟨(pv b1), 3, by decide +kernel⟩,
   ⟨(pv (put [(F.fltPackDark_dark, 0, 2^7)] b1)), 7, 2, by decide +kernel⟩,
   ⟨(pv b1), 0, (packArrays 0), by decide +kernel⟩,
   ⟨(pv b1), by decide +kernel⟩,
   fun r h hl => ⟨pv b1, _, by decide +kernel, by decide +kernel, by decide +kernel, rfl, hl,
       by rw [State.recordValid, h, pv_floor]; simp⟩,
   ⟨(pv b1), defaultRecord, 0, by decide +kernel⟩⟩

end Sys2Proof.Tests.MonitorPrivilege
end

section
/-! SUPPORT. Sends and step reports: what offering a TC0 message leaves unchanged (R320), and what a step that fails with nothing in flight
reports to its leader (R151, R158). -/

namespace Sys2Proof.Machine

/-- `t` differs from `s` at most in the registers, packets on their way, and admission's buckets and waiting messages. -/
def State.Sends (s t : State) : Prop :=
  { t with regs := s.regs, net := s.net, buckets := s.buckets, tc0Wait := s.tc0Wait } = s

namespace State.Sends

variable {s t : State}

theorem refl (s : State) : s.Sends s := rfl

theorem arr (h : s.Sends t) (a : Nat) : t.arr a = s.arr a := by
  have k := congrArg (State.arr · a) h; exact k

theorem reqs (h : s.Sends t) : t.reqs = s.reqs := by
  have k := congrArg State.reqs h; exact k

theorem memSame (h : s.Sends t) : s.MemSame t := by
  unfold State.Sends at h
  refine ⟨?_, ?_, ?_, ?_, ?_⟩ <;> rw [← h]

theorem refuse (h : s.Sends t) (p : Packet) (status : Nat) : s.Sends (t.refuse p status) := by
  unfold State.refuse
  split <;> exact h

end State.Sends

namespace State

variable (s : State)

theorem offerTc0_sends (src : Nat) (p : Packet) : s.Sends (s.offerTc0 src p) := by
  unfold State.offerTc0
  dsimp only
  split_ifs
  · exact (show s.Sends (s.cnt F.admShape_denied src) from rfl).refuse p 2
  · exact (Sends.refl s).refuse p _
  · rfl
  · rfl

theorem sendTc0_sends (p : Packet) : s.Sends (s.sendTc0 p) := by
  unfold State.sendTc0
  split
  · rfl
  · split
    · exact s.offerTc0_sends _ p
    · exact (Sends.refl s).refuse p 2

theorem requestTc0_arr (r : Req) (p : Packet) (a : Nat) : (s.requestTc0 r p).arr a = s.arr a :=
  (sendTc0_sends _ _).arr a

theorem requestTc0_memSame (r : Req) (p : Packet) : s.MemSame (s.requestTc0 r p) :=
  (sendTc0_sends { s with reqs := _, nextTag := s.nextTag + 1 } _).memSame

/-- The request stays outstanding under the tag that it took (R260). -/
theorem mfind_requestTc0 (r : Req) (p : Packet) :
    mfind (s.requestTc0 r p).reqs s.nextTag = some { r with pkt := { p with rtag := s.nextTag } } := by
  rw [show (s.requestTc0 r p).reqs = _ from (sendTc0_sends _ _).reqs]
  exact mfind_mset_self ..

@[simp] theorem arr_setArr_self (a : Nat) (x : ArrayState) : (s.setArr a x).arr a = x :=
  mget_mput_self s.arrays a {} x

@[simp] theorem arr_updArr_self (a : Nat) (f : ArrayState → ArrayState) : (s.updArr a f).arr a = f (s.arr a) :=
  arr_setArr_self ..

theorem MemSame.updArr (a : Nat) (f : ArrayState → ArrayState) : s.MemSame (s.updArr a f) := ⟨rfl, rfl, rfl, rfl, rfl⟩

theorem MemSame.trans {s t u : State} (h : s.MemSame t) (k : t.MemSame u) : s.MemSame u := by
  obtain ⟨hm, hf, hs, he, hp⟩ := h
  obtain ⟨km, kf, ks, ke, kp⟩ := k
  exact ⟨km.trans hm, kf.trans hf, ks.trans hs, ke.trans he, kp.trans hp⟩

/-- A failed step with nothing in flight ends and reports its failure. -/
theorem settle_of_failed {a st tag addr : Nat} {run : StepRun} (hrun : (s.arr a).run = some run) (hfl : (s.arr a).flights = [])
    (hstop : run.issuing = false) (hfail : run.failed = some (st, tag, addr)) :
    s.settle a = (s.updArr a (fun x => { x with run := none })).report a run st tag addr := by
  simp [State.settle, hrun, hfl, hstop, hfail]

theorem report_reported {a : Nat} (run : StepRun) (st tag addr : Nat) (hrun : (s.arr a).run = none) (hfl : (s.arr a).flights = []) :
    s.Reported (s.report a run st tag addr) a run st tag addr := by
  unfold State.report
  refine ⟨?_, ?_, _, s.nextTag, mfind_requestTc0 .., rfl, le_rfl, rfl, rfl, rfl⟩
  · rw [requestTc0_arr, hrun]
  · rw [requestTc0_arr, hfl]

theorem Reported.of_nextTag_le {s u t : State} {a : Nat} {run : StepRun} {st tag addr : Nat} (h : u.Reported t a run st tag addr)
    (htag : s.nextTag ≤ u.nextTag) : s.Reported t a run st tag addr := by
  obtain ⟨hrun, hfl, q, n, hq, hsrc, hn, hpkt⟩ := h
  exact ⟨hrun, hfl, q, n, hq, hsrc, htag.trans hn, hpkt⟩

/-- A report names the region's run and attempt, which a failure leaves as they are. -/
theorem report_fail (a : Nat) (run : StepRun) (st tag addr : Nat) :
    s.report a (run.fail st tag addr) st tag addr = s.report a run st tag addr := rfl

/-- A step that has neither failed nor been cancelled, with nothing in flight, fails: it ends at once and reports the status, the record's
TAG and its address; memories keep their bytes (R151, R158). -/
theorem failStep_reported {a : Nat} {run : StepRun} (st tag addr : Nat) (hrun : (s.arr a).run = some run) (hfl : (s.arr a).flights = [])
    (hok : run.failed = none) (hgo : run.cancelled = false) :
    s.Reported (s.failStep a st tag addr) a run st tag addr ∧ s.MemSame (s.failStep a st tag addr) := by
  have hnote : ((s.noteFail a st tag addr).arr a).run = some (run.fail st tag addr) := by simp [State.noteFail, hrun]
  have hempty : ((s.noteFail a st tag addr).arr a).flights = [] := by simp [State.noteFail, hfl]
  have hfail : (run.fail st tag addr).failed = some (st, tag, addr) := by simp [StepRun.fail, hok, hgo]
  have hstop : (run.fail st tag addr).issuing = false := rfl
  rw [State.failStep, settle_of_failed _ hnote hempty hstop hfail, report_fail]
  constructor
  · exact (report_reported _ run st tag addr (by simp) (by simpa using hempty)).of_nextTag_le le_rfl
  · exact (MemSame.updArr s a _).trans ((MemSame.updArr _ a _).trans (requestTc0_memSame ..))

end State

end Sys2Proof.Machine
end

section
/-! SUPPORT. Fetch and refusal of records: reads of own bytes that carry no flipped bit, the status with which a record is refused before it
executes (R115, R129), and the command that takes it. -/

namespace Sys2Proof.Machine

namespace State

variable {s : State}

theorem readTile_of_no_flips (hf : s.flips = []) (a n port addr len : Nat) :
    s.readTile a n port addr len = (some (Memory.tileRead s.mem (s.siteOf a) addr len), s) := by
  simp [State.readTile, State.rangeErrs, hf]

/-- A tile's read of own bytes that it may use, none of them with a flipped bit, gives the bytes as stored and changes nothing. -/
theorem readOwn_of_ownOk (hf : s.flips = []) {a lo len : Nat} (ho : s.ownOk a lo (lo + len) = true) (port : Nat) :
    readOwn s a port lo len = .ok (Memory.tileRead s.mem (s.siteOf a) lo len, s) := by
  rw [State.ownOk, Nat.add_sub_cancel_left] at ho
  cases hr : s.region a lo len with
  | none => simp [hr] at ho
  | some n =>
    have hread : s.mayRead a n .own lo len = true := by simpa [State.mayRead, hr] using ho
    simp [readOwn, State.tryRead, hr, hread, readTile_of_no_flips hf]

end State

/-- The status with which a record is refused for its opcode, its fields, its function or its formats. -/
def refusalStatus (r : Record) : Option Nat :=
  match recKind r with
  | none => some 0x01
  | some k => staticStatus r k

variable {r : Record}

theorem refusalStatus_of_undefined (h : recKind r = none) : refusalStatus r = some 0x01 := by
  simp [refusalStatus, h]

theorem refusalStatus_of_fields {k : RecKind} (hk : recKind r = some k) (h : fieldsOk r k = false) : refusalStatus r = some 0x02 := by
  simp [refusalStatus, staticStatus, hk, h]

theorem fieldsOk_vecop_of_funcDefined_false (h : funcDefined (Rf r 8 0 8) = false) : fieldsOk r .vecop = false := by
  simp [fieldsOk, h]

theorem refusalStatus_of_function (hk : recKind r = some .vecop)
    (h : funcDefined (Rf r 8 0 8) = false ∨ funcOffered (Rf r 8 0 8) (compOf (Rf r 9 0 4)) = false) : refusalStatus r = some 0x02 := by
  rcases h with h | h
  · exact refusalStatus_of_fields hk (fieldsOk_vecop_of_funcDefined_false h)
  · simp [refusalStatus, staticStatus, hk, h]

/-- A fetched record that is refused fails the step at its own address; the step has advanced past it. -/
theorem State.issueRec_of_refused {s : State} {a st : Nat} {run : StepRun} {want : Option RecKind → Record → Bool}
    (hat : s.AtRecord a run r) (hw : want (recKind r) r = true) (hst : refusalStatus r = some st) :
    s.issueRec a want =
      (s.updRun a (fun q => { q with fetched := q.fetched + 1, next := q.next + 64 })).failStep a st (recTag r) run.next := by
  obtain ⟨hrun, hissue, hlimit, hfl, hhalt, hinit, hflips, hown, hbytes⟩ := hat
  have hread := State.readOwn_of_ownOk hflips hown 0
  have hgo : ¬ 65536 ≤ run.fetched := by omega
  cases hk : recKind r with
  | none =>
    rw [refusalStatus_of_undefined hk, Option.some.injEq] at hst
    rw [hk] at hw
    simp [State.issueRec, hrun, hissue, hgo, hfl, hhalt, hinit, hread, hbytes, hk, hw, ← hst]
  | some k =>
    have hstatic : staticStatus r k = some st := by simpa [refusalStatus, hk] using hst
    rw [hk] at hw
    simp [State.issueRec, hrun, hissue, hgo, hfl, hhalt, hinit, hread, hbytes, hk, hw, hstatic]

/-- The command fetches array `a`'s next record and takes it where it is `r`. -/
def TakesRecord (i : Instr) (a : Fin 512) (r : Record) : Prop :=
  ∃ want : Option RecKind → Record → Bool, want (recKind r) r = true ∧ ∀ s, exec i s = .next (s.issueRec a want)

/-- A refused record does not execute: the command that takes it ends the step with a report of the status. -/
theorem TakesRecord.reported {i : Instr} {s : State} {a : Fin 512} {st : Nat} {run : StepRun} (hi : TakesRecord i a r)
    (hat : s.AtRecord a run r) (hok : run.failed = none) (hgo : run.cancelled = false) (hst : refusalStatus r = some st) :
    ∃ t, exec i s = .next t ∧ s.Reported t a run st (recTag r) run.next ∧ s.MemSame t := by
  obtain ⟨want, hw, hexec⟩ := hi
  refine ⟨_, hexec s, ?_⟩
  rw [State.issueRec_of_refused hat hw hst]
  obtain ⟨hrun, -, -, hfl, -⟩ := hat
  obtain ⟨hrep, hmem⟩ := State.failStep_reported
    (s.updRun a (fun q => { q with fetched := q.fetched + 1, next := q.next + 64 }))
    (a := a) (run := { run with fetched := run.fetched + 1, next := run.next + 64 }) st (recTag r) run.next
    (by simp [State.updRun, hrun]) (by simp [State.updRun, hfl]) hok hgo
  exact ⟨hrep.of_nextTag_le le_rfl, (State.MemSame.updArr s a _).trans hmem⟩

variable (a : Fin 512)

theorem undefinedOpcode_takesRecord (h : recKind r = none) : TakesRecord (.undefinedOpcode a) a r :=
  ⟨_, by simp [h], fun _ => rfl⟩

theorem vecopReservedFunc_takesRecord (hk : recKind r = some .vecop)
    (h : funcDefined (Rf r 8 0 8) = false ∨ funcOffered (Rf r 8 0 8) (compOf (Rf r 9 0 4)) = false) :
    TakesRecord (.vecopReservedFunc a) a r :=
  ⟨_, by simpa [hk] using h, fun _ => rfl⟩

/-- A VECOP whose function has the code of a named command goes to that command; any other code is not defined (R129). -/
theorem recordCommand_takesRecord_of_vecop (hk : recKind r = some .vecop) : TakesRecord (recordCommand a r) a r := by
  unfold recordCommand
  rw [hk]
  dsimp only
  split
  case h_38 =>
    refine ⟨_, ?_, fun _ => rfl⟩
    have hf : funcDefined (Rf r 8 0 8) = false := by
      simp only [funcDefined, Bool.or_eq_false_iff, Bool.and_eq_false_iff, decide_eq_false_iff_not, beq_eq_false_iff_ne]
      simp only [imp_false] at *
      omega
    simp [hk, hf]
  all_goals
    rename_i hf
    exact ⟨_, by simp [isFunc, hk, hf], fun _ => rfl⟩

/-- The command that names a record takes it. -/
theorem recordCommand_takesRecord : TakesRecord (recordCommand a r) a r := by
  cases hk : recKind r with
  | none => simpa [recordCommand, hk] using undefinedOpcode_takesRecord a hk
  | some k =>
    cases k with
    | vecop => exact recordCommand_takesRecord_of_vecop a hk
    | scatter | reduce =>
      simp only [recordCommand, hk]
      split_ifs with h1 h2
      · exact ⟨_, by simp [hk, h1], fun _ => rfl⟩
      · exact ⟨_, by simp [hk, h2], fun _ => rfl⟩
      · exact ⟨_, by simp [hk, h1, h2], fun _ => rfl⟩
    | _ =>
      simp only [recordCommand, hk]
      exact ⟨_, by simp [isKind, hk], fun _ => rfl⟩

end Sys2Proof.Machine
end

section
/-! The statement about records that a step refuses (R115, R129). -/

open Sys2Proof Sys2Proof.Machine

/-- Settles O17: each clause names the command that takes the record and the status with which the record is refused. -/
theorem illegalRecordsFailTheStep : Obligations.IllegalRecordsFailTheStep := by
  unfold Obligations.IllegalRecordsFailTheStep
  intro s a run r hat hok hgo
  refine ⟨fun hk => ?_, fun k hk hf => ?_, fun hk hf => ?_⟩
  · exact (undefinedOpcode_takesRecord a hk).reported hat hok hgo (refusalStatus_of_undefined hk)
  · exact (recordCommand_takesRecord a).reported hat hok hgo (refusalStatus_of_fields hk hf)
  · exact (vecopReservedFunc_takesRecord a hk hf).reported hat hok hgo (refusalStatus_of_function hk hf)

end

section
/-! SUPPORT. Rewrites of an admission budget: what an open port's write runs, and what a waiting message above the payload limit of R243 gets
when its source's budget is checked again (R321, R324). -/

namespace Sys2Proof.Machine

namespace State

variable (s : State)

/-- A BAR0 write that reaches its register runs the register's own write. -/
theorem bar_of_open {port : Nat} {u : BarUse} (h : s.Open port u) (k : State → State) : s.bar port u k = .next (k s) := by
  obtain ⟨hup, hshut⟩ := h
  simp [State.bar, hup, hshut]

theorem refuse_regs (p : Packet) (status : Nat) : (s.refuse p status).regs = s.regs := by
  unfold State.refuse
  split <;> rfl

@[simp] theorem rd_setBucket (src v : Nat) (f : Fld) (i : Nat) : (s.setBucket src v).rd f i = s.rd f i := rfl

/-- A payload above 1024 bytes is tested before the rate: the status is 6 even where the rate is 0 (R243). -/
theorem tc0Nack_of_long {p : Packet} (src : Nat) (h : 1024 < p.payload.length) : s.tc0Nack src p = 6 := by
  simp [State.tc0Nack, h]

/-- The only waiting message of a source, with a payload above 1024 bytes, leaves with status 6 when its source's budget changes. -/
theorem recheck_of_long {n x : Nat} {p : Packet} (hw : mget s.tc0Wait n [] = [(x, p)]) (hp : 1024 < p.payload.length) :
    s.recheck n = { s with tc0Wait := mdel s.tc0Wait n }.refuse p 6 := by
  simp [State.recheck, hw, tc0Nack_of_long _ n hp, State.each, mput]

theorem rd_recheck_of_long {n x : Nat} {p : Packet} (hw : mget s.tc0Wait n [] = [(x, p)]) (hp : 1024 < p.payload.length) (f : Fld) (i : Nat) :
    (s.recheck n).rd f i = s.rd f i := by
  rw [recheck_of_long s hw hp]
  exact rd_congr (refuse_regs _ p 6) f i

/-- A write to `ADM_SRC_n` does not count such a message in `DENIED`, whatever the budget and whether it is accepted. -/
theorem rd_denied_wrAdmSrc_of_long {n x : Nat} {p : Packet} (hw : mget s.tc0Wait n [] = [(x, p)]) (hp : 1024 < p.payload.length) (v : Nat) :
    (s.wrAdmSrc n v).rd F.admShape_denied n = s.rd F.admShape_denied n := by
  unfold State.wrAdmSrc
  dsimp only
  split
  · simp (disch := decide) only [rd_bark, State.cnt, rd_wr_id]
  · rw [rd_recheck_of_long _ (x := x) (p := p) ?_ hp]
    · simp (disch := decide) only [rd_wr_id, rd_setBucket]
    · exact hw

end State

theorem exec_admSrcWrite_of_open {s : State} {port : Fin 2} (h : s.Open port .unit) (n : Fin 524) (v : BitVec 32) :
    exec (.admSrcWrite port n v) s = .next (s.wrAdmSrc n v.toNat) :=
  (show exec (.admSrcWrite port n v) s = execAdmSrcWrite port n v s by rfl).trans (s.bar_of_open h _)

/-- A message of array 3 with a payload of 1025 bytes. -/
def longMessage : Packet := { cls := 0, dst := .tile 4, src := .tile 3, payload := List.replicate 1025 0 }

theorem longMessage_long : 1024 < longMessage.payload.length :=
  (List.length_replicate (n := 1025) (a := (0 : Byte))).ge

/-- A ready panel with host port 0 up, in which array 3 has a rate and `longMessage` waits at its bucket. -/
def longWaiting : State :=
  ((({ State.reset with
        host := { ports := [(0, { linkUp := true, busMaster := true })] }
        tc0Wait := [(3, [(0, longMessage)])] }.wr F.idnState_panelState 0 1).wr F.idnStage_stage 2 4).wr F.admSrc_rate 3 16).wr
    F.admTotal_rateSum 0 16

end Sys2Proof.Machine
end

section
/-! The statement about admission budgets and buckets (R322 to R324). -/

open Sys2Proof Sys2Proof.Machine

/-- Refutes O10: the count in `DENIED` is asked of every message that waits when its source's rate becomes 0, but one with a payload above
1024 bytes is refused with the payload's status 6 and not counted; only the clause about the NACK excludes it. The rate of source 3 becomes 0
in `longWaiting`, and its `DENIED` stays 0. By `tc0Nack_of_long` no offer lets such a message wait: the statement lacks a hypothesis on the
waiting message, and the counterexample is a state that it does not exclude. -/
theorem not_admissionBudgetsAndBuckets : ¬ Obligations.AdmissionBudgetsAndBuckets := by
  unfold Obligations.AdmissionBudgetsAndBuckets
  rintro ⟨hwrite, -⟩
  have hopen : longWaiting.Open (0 : Fin 2) .unit := by decide
  have hwait : mget longWaiting.tc0Wait 3 [] = [(0, longMessage)] := by rfl
  obtain ⟨t, hexec, -, -, -, -, -, -, -, -, -, hdenied⟩ :=
    (hwrite longWaiting 0 3 0 hopen).1 ⟨by decide, by decide, fun _ => by decide⟩
  rw [exec_admSrcWrite_of_open hopen, Host.Outcome.next.injEq] at hexec
  have hcount := (hdenied 0 longMessage hwait (by decide)).1
  have hkept := longWaiting.rd_denied_wrAdmSrc_of_long hwait longMessage_long (0 : BitVec 32).toNat
  have hzero : longWaiting.rd F.admShape_denied 3 = 0 := by decide
  rw [← hexec] at hcount
  exact absurd (hkept.symm.trans hcount) (by rw [hzero]; decide)

end

section
/-! SUPPORT. Whole writes of registers: what a write that reaches every bit of a register stores when it gives each field a defined encoding
(R18, R20), and frames that name fields without an index. -/

namespace Sys2Proof

theorem Fld.of_lt (f : Fld) (v : Nat) : f.of v < 2 ^ f.w := Nat.mod_lt _ (Nat.two_pow_pos _)

end Sys2Proof

namespace Sys2Proof.Machine

/-- A write under the bit mask `m` gives every bit of the field. -/
abbrev Whole (m : Nat) (f : Fld) : Prop := isBase f.reg = false ∧ 0 < f.w ∧ bitsAt m f.lo f.w = 2 ^ f.w - 1

/-- A write under the bit mask `m` gives every bit of a register, whose fields are distinct. -/
abbrev WholeReg (m : Nat) (r : Reg) : Prop :=
  ((regFields r).map Fld.id).Nodup ∧ ∀ f ∈ regFields r, Whole m f

/-- No field of the register is one of these. -/
abbrev Apart (r : Reg) (l : List Fld) : Prop := ∀ f ∈ regFields r, f.id < 1024 ∧ ∀ g ∈ l, f.id ≠ g.id ∧ g.id < 1024

namespace State

/-- `t` differs from `s`, among the register fields, at most in these fields, whatever their index. -/
def FieldsBut (s t : State) (l : List Fld) : Prop := ∀ f i, (∀ g ∈ l, ∀ j, fldKey f i ≠ fldKey g j) → t.rd f i = s.rd f i

variable {s t u : State}

namespace FieldsBut

variable {l k : List Fld}

theorem of_regs (h : t.regs = s.regs) : s.FieldsBut t l := fun f i _ => rd_congr h f i

theorem refl (s : State) (l : List Fld) : s.FieldsBut s l := of_regs rfl

theorem trans (h : s.FieldsBut t l) (h' : t.FieldsBut u l) : s.FieldsBut u l := fun f i hf => (h' f i hf).trans (h f i hf)

theorem mono (h : s.FieldsBut t l) (hk : ∀ g ∈ l, g ∈ k) : s.FieldsBut t k := fun f i hf => h f i (fun g hg => hf g (hk g hg))

theorem wr (h : s.FieldsBut t l) {g : Fld} (j v : Nat) (hg : g ∈ l) : s.FieldsBut (t.wr g j v) l :=
  fun f i hf => (rd_wr_ne t v (hf g hg j)).trans (h f i hf)

theorem cnt (h : s.FieldsBut t l) {g : Fld} (j n : Nat) (hg : g ∈ l) : s.FieldsBut (t.cnt g j n) l := h.wr _ _ hg

theorem of_regsBut {m : List (Fld × Nat)} (h : s.RegsBut t m) (hm : ∀ p ∈ m, p.1 ∈ l) : s.FieldsBut t l :=
  fun f i hf => h f i (fun p hp => hf p.1 (hm p hp) p.2)

theorem bark (h : s.FieldsBut t l) (code : Nat) (x : UnitId) (d : List (Nat × Nat)) (n : Nat)
    (hl : ∀ p ∈ lostRecords, p.1 ∈ l) : s.FieldsBut (t.bark code x d n) l :=
  h.trans (of_regsBut (bark_regsBut t code x d n) hl)

/-- A loop whose steps keep the other fields keeps them. -/
theorem foldl {α : Type} (g : State → α → State) (hg : ∀ (t : State) (a : α), t.FieldsBut (g t a) l) : ∀ (as : List α) {t : State},
    s.FieldsBut t l → s.FieldsBut (as.foldl g t) l
  | [], _, h => h
  | a :: as, t, h => foldl g hg as (h.trans (hg t a))

theorem rd_eq (h : s.FieldsBut t l) {f : Fld} (i : Nat) (hf : f.id < 1024 ∧ ∀ g ∈ l, f.id ≠ g.id ∧ g.id < 1024) : t.rd f i = s.rd f i :=
  h f i (fun g hg _ => fldKey_ne_of_id (hf.2 g hg).1 hf.1 (hf.2 g hg).2)

/-- A register keeps the value that it holds while only other registers' fields change. -/
theorem holds (h : t.FieldsBut u l) {r : Reg} {i v : Nat} (ht : t.Holds r i v) (hr : Apart r l) : u.Holds r i v :=
  fun f hf hacc => (h.rd_eq i (hr f hf)).trans (ht f hf hacc)

end FieldsBut

/-! ### Frames of registers alone -/

theorem OnlyRegs.refl (s : State) (l : List (Fld × Nat)) : s.OnlyRegs s l := ⟨rfl, RegsBut.refl l⟩

theorem OnlyRegs.wr {l : List (Fld × Nat)} (h : s.OnlyRegs t l) {g : Fld} {j : Nat} (v : Nat) (hg : (g, j) ∈ l) : s.OnlyRegs (t.wr g j v) l :=
  ⟨h.1, h.2.wr v hg⟩

theorem OnlyRegs.cnt {l : List (Fld × Nat)} (h : s.OnlyRegs t l) {g : Fld} {j : Nat} (n : Nat) (hg : (g, j) ∈ l) : s.OnlyRegs (t.cnt g j n) l :=
  h.wr _ hg

theorem OnlyRegs.mono {l k : List (Fld × Nat)} (h : s.OnlyRegs t l) (hk : ∀ p ∈ l, p ∈ k) : s.OnlyRegs t k := ⟨h.1, h.2.mono hk⟩

theorem regs_frame_trans (h : { t with regs := s.regs } = s) (k : { u with regs := t.regs } = t) : { u with regs := s.regs } = s := by
  rw [← k] at h
  exact h

theorem OnlyRegs.trans {l : List (Fld × Nat)} (h : s.OnlyRegs t l) (k : t.OnlyRegs u l) : s.OnlyRegs u l :=
  ⟨regs_frame_trans h.1 k.1, h.2.trans k.2⟩

/-! ### One field -/

theorem rd_lt (s : State) (f : Fld) (i : Nat) : s.rd f i < 2 ^ f.w := Nat.mod_lt _ (Nat.two_pow_pos _)

theorem rd_cnt_self (s : State) (f : Fld) (i n : Nat) : (s.cnt f i n).rd f i = min (s.rd f i + n) (2 ^ f.w - 1) := by
  have := Nat.two_pow_pos f.w
  rw [State.cnt, rd_wr_self, Nat.mod_eq_of_lt (by omega)]

/-- Bits taken under a mask of ones as wide as both values are the new value. -/
theorem mixBits_ones {w old v : Nat} (ho : old < 2 ^ w) (hv : v < 2 ^ w) : mixBits old v (2 ^ w - 1) = v := by
  simp [mixBits, Nat.and_two_pow_sub_one_eq_mod, Nat.mod_eq_of_lt ho, Nat.mod_eq_of_lt hv]

theorem mixBits_rd {f : Fld} {m : Nat} (hm : Whole m f) (s : State) (i v : Nat) :
    mixBits (s.rd f i) (bitsAt v f.lo f.w) (bitsAt m f.lo f.w) = f.of v := by
  obtain ⟨-, -, hones⟩ := hm
  rw [hones]
  exact mixBits_ones (rd_lt s f i) (Fld.of_lt f v)

theorem fldMask_of_whole {f : Fld} {m : Nat} (hm : Whole m f) : fldMask f m = bitsAt m f.lo f.w := by
  simp [fldMask, hm.1]

theorem mixBits_rd_fldMask {f : Fld} {m : Nat} (hm : Whole m f) (s : State) (i v : Nat) :
    mixBits (s.rd f i) (bitsAt v f.lo f.w) (fldMask f m) = f.of v := by
  rw [fldMask_of_whole hm, mixBits_rd hm]

theorem newFld_of_whole {f : Fld} {m v : Nat} (hm : Whole m f) (hv : f.min ≤ f.of v ∧ f.of v ≤ f.max) (s : State) (i : Nat) :
    s.newFld f i v m = f.of v := by
  simp only [State.newFld, mixBits_rd hm]
  simp [Nat.not_lt.mpr hv.1, Nat.not_lt.mpr hv.2]

theorem fldMask_ne_zero {f : Fld} {m : Nat} (hm : Whole m f) : fldMask f m ≠ 0 := by
  rw [fldMask_of_whole hm]
  obtain ⟨-, hw, hones⟩ := hm
  have := Nat.one_lt_two_pow hw.ne'
  omega

theorem newFld_of_legal {r : Reg} {m v : Nat} (hm : WholeReg m r) (hv : Legal r v) {f : Fld} (hf : f ∈ regFields r) (hacc : f.acc = .rw)
    (s : State) (i : Nat) : s.newFld f i v m = f.of v := newFld_of_whole (hm.2 f hf) (hv f hf hacc) s i

/-- A defined encoding of an RW field is stored. -/
theorem storeFld_of_rw {f : Fld} {m v : Nat} (hm : Whole m f) (hacc : f.acc = .rw) (hv : f.min ≤ f.of v ∧ f.of v ≤ f.max) (s : State)
    (i : Nat) : s.storeFld f i v m = s.wr f i (f.of v) := by
  simp [State.storeFld, fldMask_ne_zero hm, hacc, mixBits_rd_fldMask hm, Nat.not_lt.mpr hv.1, Nat.not_lt.mpr hv.2]

/-- A store of one field leaves the state or writes that field. -/
theorem storeFld_cases (s : State) (f : Fld) (i v m : Nat) : s.storeFld f i v m = s ∨ ∃ x, s.storeFld f i v m = s.wr f i x := by
  unfold State.storeFld
  dsimp only
  split
  · exact .inl rfl
  · split
    · split
      · exact .inl rfl
      · exact .inr ⟨_, rfl⟩
    · exact .inr ⟨_, rfl⟩
    · exact .inl rfl

theorem storeFld_onlyRegs (s : State) (f : Fld) (i v m : Nat) : s.OnlyRegs (s.storeFld f i v m) [(f, i)] := by
  rcases storeFld_cases s f i v m with h | ⟨x, h⟩ <;> rw [h]
  · exact OnlyRegs.refl s _
  · exact (OnlyRegs.refl s _).wr x (by simp)

/-! ### A whole register -/

theorem storeFlds_onlyRegs (i v m : Nat) (l : List (Fld × Nat)) : ∀ (fs : List Fld) (s : State), (∀ f ∈ fs, (f, i) ∈ l) →
    s.OnlyRegs (fs.foldl (fun s f => s.storeFld f i v m) s) l
  | [], s, _ => OnlyRegs.refl s l
  | f :: fs, s, h =>
    ((storeFld_onlyRegs s f i v m).mono (by simpa using h f (by simp))).trans
      (storeFlds_onlyRegs i v m l fs _ (fun g hg => h g (by simp [hg])))

/-- Each field of a list reads as its own store left it: the others have other keys. -/
theorem rd_storeFlds (i v m : Nat) {f : Fld} : ∀ (fs : List Fld) (s : State), (fs.map Fld.id).Nodup → f ∈ fs →
    (∀ t : State, (t.storeFld f i v m).rd f i = f.of v) → (fs.foldl (fun s f => s.storeFld f i v m) s).rd f i = f.of v := by
  intro fs
  induction fs with
  | nil => simp
  | cons g fs ih =>
    intro s hnd hf hst
    rw [List.map_cons, List.nodup_cons] at hnd
    rcases List.mem_cons.mp hf with rfl | hf
    · refine ((storeFlds_onlyRegs i v m (fs.map (·, i)) fs (s.storeFld f i v m) (by simp)).2 f i ?_).trans (hst s)
      simp only [List.mem_map, forall_exists_index, and_imp, forall_apply_eq_imp_iff₂]
      intro g hg hkey
      have hid : f.id = g.id := Nat.add_left_cancel hkey
      exact hnd.1 (hid ▸ List.mem_map_of_mem hg)
    · exact ih _ hnd.2 hf hst

/-- A whole write of defined encodings raises no reserved-write record. -/
theorem fldReserved_of_legal {r : Reg} {m v : Nat} (hm : WholeReg m r) (hv : Legal r v) (s : State) (i : Nat) :
    (regFields r).any (fun f => s.fldReserved f i v m) = false := by
  simp only [List.any_eq_false, Bool.not_eq_true]
  intro f hf
  by_cases hacc : f.acc = .rw
  · obtain ⟨hmin, hmax⟩ := hv f hf hacc
    simp [State.fldReserved, mixBits_rd_fldMask (hm.2 f hf), hmin, hmax]
  · simp [State.fldReserved, hacc]

theorem storeReg_of_legal {r : Reg} {m v : Nat} (hm : WholeReg m r) (hv : Legal r v) (s : State) (i : Nat) :
    s.storeReg r i v m = (regFields r).foldl (fun s f => s.storeFld f i v m) s := by
  simp [State.storeReg, State.when, fldReserved_of_legal hm hv]

theorem storeReg_onlyRegs {r : Reg} {m v : Nat} (hm : WholeReg m r) (hv : Legal r v) (s : State) (i : Nat) :
    s.OnlyRegs (s.storeReg r i v m) (fieldsOf r i) := by
  rw [storeReg_of_legal hm hv]
  exact storeFlds_onlyRegs i v m _ _ s (fun f hf => List.mem_map_of_mem hf)

theorem storeReg_holds {r : Reg} {m v : Nat} (hm : WholeReg m r) (hv : Legal r v) (s : State) (i : Nat) :
    (s.storeReg r i v m).Holds r i v := by
  intro f hf hacc
  have hw := hm.2 f hf
  have hrange := hv f hf hacc
  rw [storeReg_of_legal hm hv]
  refine rd_storeFlds i v m _ s hm.1 hf (fun t => ?_)
  rw [storeFld_of_rw hw hacc hrange, rd_wr_self, Nat.mod_eq_of_lt (Fld.of_lt f v)]

theorem pwrPack_whole : WholeReg fullMask .pwrPack := by decide
theorem lnkPort_whole : WholeReg fullMask .lnkPort := by decide
theorem lnkBind_whole : WholeReg fullMask .lnkBind := by decide
theorem fldFifo_whole : WholeReg fullMask .fldFifo := by decide
theorem clkMarginCfg_whole : WholeReg 0xFFFFFFFF .clkMarginCfg := by decide

/-- Every encoding of every field is defined. -/
abbrev AllDefined (r : Reg) : Prop := ∀ f ∈ regFields r, f.min = 0 ∧ 2 ^ f.w ≤ f.max

theorem legal_of_allDefined {r : Reg} (h : AllDefined r) (v : Nat) : Legal r v := by
  intro f hf _
  obtain ⟨hmin, hmax⟩ := h f hf
  exact ⟨hmin ▸ Nat.zero_le _, (Fld.of_lt f v).le.trans hmax⟩

end State

end Sys2Proof.Machine
end

section
/-! SUPPORT. Writes to policy, margin and binding registers, and the set command of panel time: what each stores and does (R380, R416, R420,
R522). -/

namespace Sys2Proof.Machine

namespace State

variable {s t u : State}

theorem syncFreq_onlyRegs (s : State) (p : Nat) : s.OnlyRegs (s.syncFreq p) [(F.pwrPackStat_afSet, p), (F.pwrPackStat_rfSet, p)] :=
  ((OnlyRegs.refl s _).wr _ (by simp)).wr _ (by simp)

/-- What a bark record leaves: itself in the flash log, and everything but the records and their lost counts as before (R441, R442). -/
theorem bark_reported (s : State) (code : Nat) (u : UnitId) (d : List (Nat × Nat)) :
    s.Barked (s.bark code u d) code u d ∧ { s.bark code u d with regs := s.regs, host := s.host, faults := s.faults } = s ∧
      s.RegsBut (s.bark code u d) lostRecords := ⟨bark_log .., bark_frame .., bark_regsBut s code u d 1⟩

/-- A floor and a ceiling of a loop stand in order within the range `a` to `b` of R522. -/
abbrev Ordered (lo hi : Fld) (a b v : Nat) : Prop := a ≤ lo.of v ∧ lo.of v ≤ hi.of v ∧ hi.of v ≤ b

/-- An accepted policy is stored; the set voltage is brought between its limits, and the set frequencies follow (R522). -/
theorem wrPwrPack_of_ordered {v : Nat} (haf : Ordered F.pwrPack_afFloor F.pwrPack_afCeil 12 48 v)
    (hrf : Ordered F.pwrPack_rfFloor F.pwrPack_rfCeil 15 60 v) (hav : Ordered F.pwrPack_avFloor F.pwrPack_avCeil 20 80 v) (s : State) (p : Nat) :
    s.wrPwrPack p v fullMask = ((s.storeReg .pwrPack p v fullMask).wr F.pwrPackStat_avSet p
      (max (F.pwrPack_avFloor.of v) (min (F.pwrPack_avCeil.of v) (s.rd F.pwrPackStat_avSet p)))).syncFreq p := by
  have hmix {f : Fld} (hf : f ∈ regFields .pwrPack) := mixBits_rd (pwrPack_whole.2 f hf) s p v
  obtain ⟨haf1, haf2, haf3⟩ := haf
  obtain ⟨hrf1, hrf2, hrf3⟩ := hrf
  obtain ⟨hav1, hav2, hav3⟩ := hav
  simp only [State.wrPwrPack, hmix (f := F.pwrPack_afFloor) (by decide), hmix (f := F.pwrPack_afCeil) (by decide),
    hmix (f := F.pwrPack_rfFloor) (by decide), hmix (f := F.pwrPack_rfCeil) (by decide),
    hmix (f := F.pwrPack_avFloor) (by decide), hmix (f := F.pwrPack_avCeil) (by decide)]
  simp [*]

/-- After an accepted policy the register holds it, and the set voltage lies within its limits. -/
theorem wrPwrPack_accepts {v : Nat} (hv : Legal .pwrPack v) (haf : Ordered F.pwrPack_afFloor F.pwrPack_afCeil 12 48 v)
    (hrf : Ordered F.pwrPack_rfFloor F.pwrPack_rfCeil 15 60 v) (hav : Ordered F.pwrPack_avFloor F.pwrPack_avCeil 20 80 v) {p : Nat}
    (ht : s.wrPwrPack p v fullMask = t) :
    t.Holds .pwrPack p v ∧ { t with regs := s.regs } = s ∧ F.pwrPack_avFloor.of v ≤ t.rd F.pwrPackStat_avSet p ∧
      t.rd F.pwrPackStat_avSet p ≤ F.pwrPack_avCeil.of v := by
  subst ht
  rw [wrPwrPack_of_ordered haf hrf hav]
  obtain ⟨-, hle, hmax⟩ := hav
  have hstored := (storeReg_onlyRegs pwrPack_whole hv s p).1
  have hheld := storeReg_holds pwrPack_whole hv s p
  generalize s.storeReg .pwrPack p v fullMask = t at hstored hheld ⊢
  generalize hx : max (F.pwrPack_avFloor.of v) (min (F.pwrPack_avCeil.of v) (s.rd F.pwrPackStat_avSet p)) = x
  have hlo : F.pwrPack_avFloor.of v ≤ x := hx ▸ le_max_left _ _
  have hhi : x ≤ F.pwrPack_avCeil.of v := hx ▸ max_le hle (min_le_left _ _)
  have hset : t.FieldsBut (t.wr F.pwrPackStat_avSet p x) [F.pwrPackStat_avSet] := (FieldsBut.refl t _).wr p x (by simp)
  have hx' : (t.wr F.pwrPackStat_avSet p x).rd F.pwrPackStat_avSet p = x := by
    rw [rd_wr_self, Nat.mod_eq_of_lt]
    exact lt_of_le_of_lt (hhi.trans hmax) (by decide)
  have hframe : { t.wr F.pwrPackStat_avSet p x with regs := s.regs } = s := hstored
  generalize t.wr F.pwrPackStat_avSet p x = u at hset hx' hframe ⊢
  obtain ⟨hsynced, hregs⟩ := syncFreq_onlyRegs u p
  have hsync : u.FieldsBut (u.syncFreq p) [F.pwrPackStat_afSet, F.pwrPackStat_rfSet] := .of_regsBut hregs (by simp)
  have hread : (u.syncFreq p).rd F.pwrPackStat_avSet p = x := (hsync.rd_eq p (by decide)).trans hx'
  rw [hread]
  exact ⟨hsync.holds (hset.holds hheld (by decide)) (by decide), regs_frame_trans hframe hsynced, hlo, hhi⟩

theorem wrMarginCfg_of_whole (s : State) (v : Nat) :
    s.wrMarginCfg v 0xFFFFFFFF =
      if bitsAt v 16 10 < bitsAt v 0 10 then s.storeReg .clkMarginCfg 0 v 0xFFFFFFFF else s.refuseReg .clkMarginCfg 0 := by
  have hnew {f : Fld} := newFld_of_legal (f := f) clkMarginCfg_whole (legal_of_allDefined (by decide) v)
  rw [State.wrMarginCfg, hnew (f := F.clkMarginCfg_critPs) (by decide) rfl, hnew (f := F.clkMarginCfg_warnPs) (by decide) rfl]
  rfl

theorem wrMarginCfg_stores {v : Nat} (h : bitsAt v 16 10 < bitsAt v 0 10) (ht : s.wrMarginCfg v 0xFFFFFFFF = t) :
    t.Holds .clkMarginCfg 0 v ∧ s.OnlyRegs t (fieldsOf .clkMarginCfg 0) := by
  subst ht
  have hv : Legal .clkMarginCfg v := legal_of_allDefined (by decide) v
  rw [wrMarginCfg_of_whole, if_pos h]
  exact ⟨storeReg_holds clkMarginCfg_whole hv s 0, storeReg_onlyRegs clkMarginCfg_whole hv s 0⟩

theorem wrMarginCfg_refuses {v : Nat} (h : bitsAt v 0 10 ≤ bitsAt v 16 10) (ht : s.wrMarginCfg v 0xFFFFFFFF = t) :
    s.Barked t 0x0001 {} [(24, regOff .clkMarginCfg 0)] ∧ { t with regs := s.regs, host := s.host, faults := s.faults } = s ∧
      s.RegsBut t lostRecords := by
  subst ht
  rw [wrMarginCfg_of_whole, if_neg (Nat.not_lt.mpr h)]
  exact s.bark_reported _ _ _

/-- A binding of a pair that no setpoint binds, or one that is not valid, is stored (R380). -/
theorem wrLnkBind_of_free {s : State} {v : Nat}
    (h : F.lnkBind_valid.of v = 0 ∨ s.fieldBind (F.lnkBind_array.of v) (F.lnkBind_ep.of v) = none) (j : Nat) :
    s.wrLnkBind j v fullMask = s.storeReg .lnkBind j v fullMask := by
  have hnew {f : Fld} := newFld_of_legal (f := f) lnkBind_whole (legal_of_allDefined (by decide) v)
  rw [State.wrLnkBind, hnew (f := F.lnkBind_array) (by decide) rfl, hnew (f := F.lnkBind_ep) (by decide) rfl,
    hnew (f := F.lnkBind_valid) (by decide) rfl]
  rcases h with h | h <;> simp [h]

theorem wrLnkBind_stores {v : Nat}
    (h : F.lnkBind_valid.of v = 0 ∨ s.fieldBind (F.lnkBind_array.of v) (F.lnkBind_ep.of v) = none) {j : Nat}
    (ht : s.wrLnkBind j v fullMask = t) :
    t.Holds .lnkBind j v ∧ s.OnlyRegs t (fieldsOf .lnkBind j) := by
  subst ht
  have hv : Legal .lnkBind v := legal_of_allDefined (by decide) v
  rw [wrLnkBind_of_free h]
  exact ⟨storeReg_holds lnkBind_whole hv s j, storeReg_onlyRegs lnkBind_whole hv s j⟩

/-- A set command where neither PPS nor PTP sets the time stands for the marker after next (R416, R420). -/
theorem setTime_of_source (h : s.rd F.clkCfg_timeSrc 0 ∉ [1, 2]) (ht : s.setTime = t) :
    t.time.stepAt = some (s.time.marker + 2, s.rd F.clkSet_ns 0) ∧ t.rd F.clkCmd_set 0 = 1 ∧
      { t with regs := s.regs, time := s.time } = s ∧ s.RegsBut t [(F.clkCmd_set, 0)] := by
  subst ht
  simp only [List.mem_cons, List.not_mem_nil, or_false, not_or] at h
  have hset : s.setTime =
      ({ s with time := { s.time with stepAt := some (s.time.marker + 2, s.rd F.clkSet_ns 0) } }).wr F.clkCmd_set 0 1 := by
    simp [State.setTime, h]
  rw [hset]
  exact ⟨rfl, rd_wr_self .., rfl, RegsBut.wr (.of_regs rfl) 1 (by simp)⟩

end State

end Sys2Proof.Machine
end

section
/-! SUPPORT. Link ports that change their state: routing spans again changes no register fields but counts (R377, R385), and what the way to DARK, OFF
and RETRAINING leaves (R372 to R375). -/

namespace Sys2Proof.Machine

namespace State

variable {s t u : State}

/-- Fields that the routing of spans changes: counts of admission and of the link dies. -/
def routeFields : List Fld := [F.admShape_denied, F.admShape_waits, F.lnkCnt2_unreach, F.lnkCnt2_tc0Held]

theorem sendTc0_fieldsBut (s : State) (p : Packet) : s.FieldsBut (s.sendTc0 p) routeFields := by
  have hrefuse {t : State} (h : s.FieldsBut t routeFields) (st : Nat) : s.FieldsBut (t.refuse p st) routeFields :=
    h.trans (.of_regs (refuse_regs t p st))
  have hrefl := FieldsBut.refl s routeFields
  unfold State.sendTc0
  split
  · exact .of_regs rfl
  · split
    · unfold State.offerTc0
      dsimp only
      split_ifs
      · exact hrefuse (hrefl.cnt _ _ (by simp [routeFields])) 2
      · exact hrefuse hrefl _
      · exact .of_regs rfl
      · exact (hrefl.wr _ _ (by simp [routeFields])).trans (.of_regs rfl)
    · exact hrefuse hrefl 2

theorem requestTc0_fieldsBut (s : State) (r : Req) (p : Packet) : s.FieldsBut (s.requestTc0 r p) routeFields := by
  unfold State.requestTc0
  exact FieldsBut.trans (.of_regs rfl) (sendTc0_fieldsBut _ _)

theorem pumpPort_regs (n : Nat) : ∀ (fuel : Nat) (s : State), (s.pumpPort n fuel).regs = s.regs
  | 0, _ => rfl
  | fuel + 1, s => by
    rw [State.pumpPort]
    split
    · rfl
    · dsimp only
      split
      · rfl
      · rw [pumpPort_regs n fuel]
        rfl

theorem freeHeld_fieldsBut (s : State) (d : Nat) : s.FieldsBut (s.freeHeld d) routeFields := by
  unfold State.freeHeld
  dsimp only
  refine FieldsBut.foldl _ (fun t x => ?_) _ (.of_regs rfl)
  split
  · exact .refl t _
  · exact .of_regs rfl

theorem dieTc0_fieldsBut (s : State) (d : Nat) (p : Packet) (v w : Nat) : s.FieldsBut (s.dieTc0 d p v w) routeFields := by
  have hsent : s.FieldsBut ((s.freeHeld d).requestTc0 { src := .link d } p) routeFields :=
    (freeHeld_fieldsBut s d).trans (requestTc0_fieldsBut _ _ p)
  unfold State.dieTc0
  dsimp only
  generalize (s.freeHeld d).requestTc0 { src := .link d } p = t at hsent ⊢
  split_ifs
  · exact hsent.trans (.of_regs rfl)
  · exact (hsent.trans (.of_regs rfl)).cnt _ _ (by simp [routeFields])
  · exact hsent
  · exact hsent.trans (.of_regs rfl)

theorem toPort_fieldsBut (s : State) (d n : Nat) (linked : Bool) (p : SpanPkt) : s.FieldsBut (s.toPort d n linked p) routeFields := by
  have hfree (v w : Nat) : (if linked = true then s.freeWords d v w else s).regs = s.regs := by
    split <;> rfl
  unfold State.toPort
  dsimp only
  split
  · exact .of_regs ((pumpPort_regs n pumpFuel _).trans (hfree _ _))
  · split
    · exact dieTc0_fieldsBut s d _ _ _
    · split
      · exact .of_regs (hfree _ _)
      · exact .of_regs (hfree _ _)

theorem routeSpan_fieldsBut (d : Nat) : ∀ (fuel : Nat) (s : State) (linked : Bool) (p : SpanPkt),
    s.FieldsBut (s.routeSpan d linked p fuel) routeFields
  | 0, s, _, _ => .refl s _
  | fuel + 1, s, linked, p => by
    have hdrop : s.FieldsBut ((if linked then s.freeWords d p.lvc (spanWords p) else s).cnt F.lnkCnt2_unreach d) routeFields := by
      refine FieldsBut.cnt (.of_regs ?_) _ _ (by simp [routeFields])
      split <;> rfl
    rw [State.routeSpan]
    cases s.spanRoute d linked p with
    | here =>
      dsimp only
      split_ifs
      · exact .of_regs rfl
      · exact toPort_fieldsBut s d _ linked p
      · exact .of_regs rfl
    | port n => exact toPort_fieldsBut s d n linked p
    | hold => exact .of_regs rfl
    | drop =>
      dsimp only
      split
      · exact hdrop.trans (routeSpan_fieldsBut d fuel _ false _)
      · exact hdrop

theorem reroute_fieldsBut (s : State) (n : Nat) : s.FieldsBut (s.reroute n) routeFields := by
  have hport (l : List SpanPkt) {t : State} (h : s.FieldsBut t routeFields) :=
    FieldsBut.foldl (fun u p => u.routeSpan n false p 2) (fun u p => routeSpan_fieldsBut n 2 u false p) l h
  have hheld (d : Nat) (l : List (SpanPkt × Bool)) {t u : State} (h : t.FieldsBut u routeFields) :=
    FieldsBut.foldl (fun w (x : SpanPkt × Bool) => w.routeSpan d x.2 x.1 2) (fun w x => routeSpan_fieldsBut d 2 w x.2 x.1) l h
  unfold State.reroute
  refine FieldsBut.foldl _ (fun t d => ?_) _ ?_
  · exact hheld d _ (.of_regs (updLport_regs ..))
  · exact hport _ (.of_regs (updLport_regs ..))

/-! ### Changes of `STATE` -/

/-- A link port's `STATE` becomes `st`, with the record of the change (R372): what every change of it does first. -/
def noteLink (s : State) (n st : Nat) : State :=
  (s.wr F.lnkStat_state n st).bark 0x0014 { kind := .linkPort, num := n } [(24, s.lstate n), (25, st)]

theorem noteLink_reports (s : State) (n st : Nat) : s.Reports (s.noteLink n st) := Reports.bark ((Reports.refl s).wr ..) ..

theorem noteLink_fieldsBut (s : State) (n st : Nat) :
    s.FieldsBut (s.noteLink n st) [F.lnkStat_state, F.rngEvtStat_lostTel, F.rngEvtStat_lostBark] :=
  ((FieldsBut.refl s _).wr n st (by simp)).bark _ _ _ _ (by simp [lostRecords])

theorem lstate_noteLink (s : State) (n : Nat) {st : Nat} (hst : st < 16) : (s.noteLink n st).lstate n = st := by
  rw [State.lstate, noteLink, rd_bark _ _ _ _ _ (by decide) (by decide) (by decide), rd_wr_self]
  exact Nat.mod_eq_of_lt hst

theorem setLink_dark_of_off {n : Nat} (h : s.lstate n = 0) : s.setLink n 1 = s.noteLink n 1 := by
  simp [State.setLink, noteLink, h]

theorem setLink_off {n : Nat} (h : s.lstate n ≠ 0) :
    s.setLink n 0 = if 5 ≤ s.lstate n && s.lstate n ≤ 7 then (s.noteLink n 0).reroute n else s.noteLink n 0 := by
  simp [State.setLink, noteLink, h]

theorem setLink_retrain {n : Nat} (h : s.lstate n ≠ 6) :
    ∃ w : State, s.setLink n 6 = w.penalize (640 + n) 4096 ∧ w.regs = ((s.noteLink n 6).cnt F.lnkCnt_retrains n).regs ∧
      (s.noteLink n 6).MemSame w :=
  ⟨((s.noteLink n 6).cnt F.lnkCnt_retrains n).updLport n (fun x => { x with failover := false }), by simp [State.setLink, noteLink, h],
    rfl, rfl, rfl, rfl, rfl, rfl⟩

/-- Fields that a port's way to OFF changes. -/
def offFields : List Fld := [F.lnkStat_state, F.rngEvtStat_lostTel, F.rngEvtStat_lostBark] ++ routeFields

/-- A port that goes OFF is OFF after its packets have been routed again, which changes no field but counts (R377, R385). -/
theorem setLink_off_fields {n : Nat} (h : s.lstate n ≠ 0) : s.FieldsBut (s.setLink n 0) offFields ∧ (s.setLink n 0).lstate n = 0 := by
  have hnote : s.FieldsBut (s.noteLink n 0) offFields := (noteLink_fieldsBut s n 0).mono (by decide)
  have hoff : (s.noteLink n 0).lstate n = 0 := lstate_noteLink s n (by decide)
  rw [setLink_off h]
  split
  · have hroute := reroute_fieldsBut (s.noteLink n 0) n
    exact ⟨hnote.trans (hroute.mono (by decide)), (hroute.rd_eq n (by decide)).trans hoff⟩
  · exact ⟨hnote, hoff⟩

/-- Fields that a penalty changes: the unit's penalty and score, and counts of records that were lost. -/
def penaltyFields : List Fld := [F.fltHealth_penalty, F.fltHealth_score, F.rngEvtStat_lostTel, F.rngEvtStat_lostBark]

theorem setPenalty_fieldsBut (s : State) (u p : Nat) : s.FieldsBut (s.setPenalty u p) penaltyFields := by
  have hwr : s.FieldsBut ((s.wr F.fltHealth_penalty u p).wr F.fltHealth_score u (scoreOf p)) penaltyFields :=
    ((FieldsBut.refl s _).wr u p (by decide)).wr u _ (by decide)
  unfold State.setPenalty
  dsimp only
  split
  · exact hwr.trans (.of_regs rfl)
  · split
    · refine FieldsBut.bark ?_ _ _ _ _ (by decide)
      exact hwr.trans (.of_regs rfl)
    · exact hwr

theorem penalize_fieldsBut (s : State) (u n : Nat) : s.FieldsBut (s.penalize u n) penaltyFields := by
  unfold State.penalize
  split
  · exact .refl s _
  · exact setPenalty_fieldsBut s u _

theorem Reports.memSame (h : s.Reports t) : s.MemSame t := by
  unfold State.Reports at h
  refine ⟨?_, ?_, ?_, ?_, ?_⟩ <;> rw [← h]

theorem Reports.outs (h : s.Reports t) : t.outs = s.outs := by
  have k := congrArg State.outs h; exact k

theorem OnlyRegs.reports {l : List (Fld × Nat)} (h : s.OnlyRegs t l) : s.Reports t := by
  have k := congrArg (fun x : State => { x with host := s.host, faults := s.faults }) h.1; exact k

/-- A port that goes to RETRAINING counts it (R375), and its die's health pays for it (R504). -/
theorem setLink_retrain_counts {n : Nat} (h : s.lstate n ≠ 6) (ht : s.setLink n 6 = t) :
    t.lstate n = 6 ∧ t.rd F.lnkPort_retrain n = s.rd F.lnkPort_retrain n ∧
      t.rd F.lnkCnt_retrains n = min (s.rd F.lnkCnt_retrains n + 1) (2 ^ F.lnkCnt_retrains.w - 1) ∧ s.MemSame t := by
  obtain ⟨w, hset, hregs, hmem⟩ := setLink_retrain h
  rw [← ht, hset]
  have hnote := noteLink_fieldsBut s n 6
  have hcnt : (s.noteLink n 6).FieldsBut w [F.lnkCnt_retrains] := ((FieldsBut.refl _ _).cnt n 1 (by simp)).trans (.of_regs hregs)
  have hpay := penalize_fieldsBut w (640 + n) 4096
  refine ⟨?_, ?_, ?_, ?_⟩
  · rw [State.lstate, hpay.rd_eq n (by decide), hcnt.rd_eq n (by decide)]
    exact lstate_noteLink s n (by decide)
  · rw [hpay.rd_eq n (by decide), hcnt.rd_eq n (by decide), hnote.rd_eq n (by decide)]
  · rw [hpay.rd_eq n (by decide), rd_congr hregs, rd_cnt_self, hnote.rd_eq n (by decide)]
  · exact ((noteLink_reports s n 6).memSame.trans hmem).trans ((Reports.refl w).penalize _ _).memSame

/-- A retrain command on a port that is UP takes it to RETRAINING, with `RETRAIN` set until it is done (R375). -/
theorem retrain_of_up {n : Nat} (h : s.lup n = true) (ht : (s.wr F.lnkPort_retrain n 1).setLink n 6 = t) :
    t.lstate n = 6 ∧ t.rd F.lnkPort_retrain n = 1 ∧
      t.rd F.lnkCnt_retrains n = min (s.rd F.lnkCnt_retrains n + 1) (2 ^ F.lnkCnt_retrains.w - 1) ∧ s.MemSame t := by
  subst ht
  have hwr : s.FieldsBut (s.wr F.lnkPort_retrain n 1) [F.lnkPort_retrain] := (FieldsBut.refl s _).wr n 1 (by simp)
  have hup : s.lstate n = 5 := by simpa [State.lup] using h
  have hstate : (s.wr F.lnkPort_retrain n 1).lstate n = 5 := (hwr.rd_eq n (by decide)).trans hup
  obtain ⟨hsix, hretrain, hcount, hmem⟩ := setLink_retrain_counts (n := n) (by rw [hstate]; decide) rfl
  rw [hwr.rd_eq n (by decide)] at hcount
  exact ⟨hsix, hretrain.trans (rd_wr_self ..), hcount, hmem⟩

/-! ### Writes to a link port -/

theorem wrLnkPort_enables {n v : Nat} (hv : Legal .lnkPort v) (hfit : s.portFitted n = true) (hwas : s.rd F.lnkPort_en n = 0)
    (hnew : F.lnkPort_en.of v = 1) : s.wrLnkPort n v fullMask = ((s.storeReg .lnkPort n v fullMask).setLink n 1).put (.lasers n true) := by
  have hheld := storeReg_holds lnkPort_whole hv s n F.lnkPort_en (by decide) rfl
  simp [State.wrLnkPort, hfit, State.on, hwas, hheld, hnew]

theorem wrLnkPort_disables {n v : Nat} (hv : Legal .lnkPort v) (hwas : s.rd F.lnkPort_en n = 1) (hnew : F.lnkPort_en.of v = 0) :
    s.wrLnkPort n v fullMask = ((s.storeReg .lnkPort n v fullMask).setLink n 0).put (.lasers n false) := by
  have hheld := storeReg_holds lnkPort_whole hv s n F.lnkPort_en (by decide) rfl
  have hfld := newFld_of_legal lnkPort_whole hv (f := F.lnkPort_en) (by decide) rfl s n
  simp [State.wrLnkPort, State.on, hwas, hheld, hfld, hnew]

theorem lstate_storeReg_lnkPort {v : Nat} (hv : Legal .lnkPort v) (s : State) (n : Nat) :
    (s.storeReg .lnkPort n v fullMask).lstate n = s.lstate n :=
  (FieldsBut.of_regsBut (l := regFields .lnkPort) (storeReg_onlyRegs lnkPort_whole hv s n).2 (by simp [fieldsOf])).rd_eq n (by decide)

/-- Setting `EN` stores the value and brings an OFF port to DARK with its lasers on (R373). -/
theorem wrLnkPort_enables_off {n v : Nat} (hv : Legal .lnkPort v) (hfit : s.portFitted n = true) (hwas : s.rd F.lnkPort_en n = 0)
    (hnew : F.lnkPort_en.of v = 1) (hoff : s.lstate n = 0) (ht : s.wrLnkPort n v fullMask = t) :
    t.Holds .lnkPort n v ∧ t.lstate n = 1 ∧ t.outs = .lasers n true :: s.outs ∧ s.MemSame t := by
  subst ht
  rw [wrLnkPort_enables hv hfit hwas hnew]
  have hheld := storeReg_holds lnkPort_whole hv s n
  have hstate := (lstate_storeReg_lnkPort hv s n).trans hoff
  have hrep := (storeReg_onlyRegs lnkPort_whole hv s n).reports
  generalize s.storeReg .lnkPort n v fullMask = t at hheld hstate hrep ⊢
  rw [setLink_dark_of_off hstate]
  have hnote := hrep.trans (noteLink_reports t n 1)
  have hholds := (noteLink_fieldsBut t n 1).holds hheld (by decide)
  have hdark := lstate_noteLink t n (st := 1) (by decide)
  generalize t.noteLink n 1 = u at hnote hholds hdark ⊢
  exact ⟨hholds, hdark, congrArg (OutEv.lasers n true :: ·) hnote.outs, hnote.memSame⟩

/-- Clearing `EN` stores the value and brings the port to OFF with its lasers off (R373). -/
theorem wrLnkPort_disables_on {n v : Nat} (hv : Legal .lnkPort v) (hwas : s.rd F.lnkPort_en n = 1) (hnew : F.lnkPort_en.of v = 0)
    (hon : s.lstate n ≠ 0) (ht : s.wrLnkPort n v fullMask = t) :
    t.Holds .lnkPort n v ∧ t.lstate n = 0 ∧ .lasers n false ∈ t.outs := by
  subst ht
  rw [wrLnkPort_disables hv hwas hnew]
  obtain ⟨hfields, hoff⟩ := setLink_off_fields (s := s.storeReg .lnkPort n v fullMask) (n := n) (by rwa [lstate_storeReg_lnkPort hv])
  have hheld := hfields.holds (storeReg_holds lnkPort_whole hv s n) (by decide)
  generalize (s.storeReg .lnkPort n v fullMask).setLink n 0 = u at hheld hoff ⊢
  exact ⟨hheld, hoff, List.mem_cons_self⟩

end State

end Sys2Proof.Machine
end

section
/-! SUPPORT. Field FIFOs: what a write to `FLD_FIFO_d_f` stores, discards and counts (R347), and the commands that write through an open port. -/

namespace Sys2Proof.Machine

namespace State

variable {s t u : State}

@[simp] theorem fifo_setFifo_self (s : State) (i : Nat) (x : Fifo) : (s.setFifo i x).fifo i = x := mget_mput_self s.field.fifos i {} x

theorem setFifo_regsBut (s : State) (i : Nat) (x : Fifo) : s.RegsBut (s.setFifo i x) [(F.fldFifoStat_used, i), (F.fldFifoStat_waiting, i)] :=
  (((RegsBut.refl _).congr rfl).wr _ (by simp)).wr _ (by simp)

theorem rd_used_setFifo_empty (s : State) (i : Nat) : (s.setFifo i {}).rd F.fldFifoStat_used i = 0 := by
  simp (disch := decide) [State.setFifo, Fifo.used, rd_wr_id]

theorem rd_waiting_setFifo_empty (s : State) (i : Nat) : (s.setFifo i {}).rd F.fldFifoStat_waiting i = 0 := by
  simp [State.setFifo]

/-- The fields that place a FIFO's ring, which stay while it is enabled (R347). -/
def ringFields : List Fld := [F.fldFifo_array, F.fldFifo_ctr, F.fldFifo_ringBase, F.fldFifo_nslots]

theorem fifo_moves_iff {i v : Nat} (hv : Legal .fldFifo v) (s : State) :
    ringFields.any (fun f => s.newFld f i v fullMask != s.rd f i) = true ↔ ∃ x ∈ ringFields, x.of v ≠ s.rd x i := by
  have hnew : ∀ f ∈ ringFields, s.newFld f i v fullMask = f.of v := fun f hf =>
    newFld_of_legal fldFifo_whole hv ((by decide : ∀ f ∈ ringFields, f ∈ regFields .fldFifo) f hf)
      ((by decide : ∀ f ∈ ringFields, f.acc = .rw) f hf) s i
  simp only [List.any_eq_true, bne_iff_ne]
  exact exists_congr (fun f => and_congr_right (fun hf => by rw [hnew f hf]))

theorem OnlyRegs.fifo {l : List (Fld × Nat)} (h : s.OnlyRegs t l) (i : Nat) : t.fifo i = s.fifo i := by
  have k := congrArg (State.fifo · i) h.1; exact k

theorem OnlyRegs.frame_field {l : List (Fld × Nat)} (h : s.OnlyRegs t l) : { t with regs := s.regs, field := s.field } = s := by
  have k := congrArg (fun x : State => { x with field := s.field }) h.1; exact k

/-- A FIFO that changes after writes to registers: `USED` and `WAITING` follow it. -/
theorem OnlyRegs.setFifo {l : List (Fld × Nat)} (h : s.OnlyRegs t l) (i : Nat) (x : Fifo) :
    { t.setFifo i x with regs := s.regs, field := s.field } = s ∧
      s.RegsBut (t.setFifo i x) ([(F.fldFifoStat_used, i), (F.fldFifoStat_waiting, i)] ++ l) :=
  ⟨h.frame_field, (h.2.mono (fun _ => List.mem_append_right _)).trans ((setFifo_regsBut t i x).mono (fun _ => List.mem_append_left _))⟩

/-- A write that would move the ring of an enabled FIFO is not stored, and reported. -/
theorem wrFifo_of_moves {i v : Nat} (hv : Legal .fldFifo v) (hen : s.rd F.fldFifo_en i = 1) (hmoves : ∃ x ∈ ringFields, x.of v ≠ s.rd x i) :
    s.wrFifo i v fullMask = s.bark 0x0011 { kind := .fieldDie, num := i / 32 } [(24, regOff .fldFifo i)] := by
  have hany := (fifo_moves_iff hv s).mpr hmoves
  rw [ringFields] at hany
  simp [State.wrFifo, State.on, hen, hany]

/-- `EN` at 1 starts a disabled FIFO afresh. -/
theorem wrFifo_of_disabled {i v : Nat} (hv : Legal .fldFifo v) (hen : s.rd F.fldFifo_en i = 0) :
    s.wrFifo i v fullMask =
      if F.fldFifo_en.of v = 1 then (s.storeReg .fldFifo i v fullMask).setFifo i {} else s.storeReg .fldFifo i v fullMask := by
  have hheld := storeReg_holds fldFifo_whole hv s i F.fldFifo_en (by decide) rfl
  have hbit : F.fldFifo_en.of v = 0 ∨ F.fldFifo_en.of v = 1 :=
    Nat.le_one_iff_eq_zero_or_eq_one.mp (Nat.le_of_lt_succ (Fld.of_lt F.fldFifo_en v))
  rcases hbit with h | h <;> simp [State.wrFifo, State.on, hen, hheld, h]

/-- Clearing `EN` discards the items and the pending gap record, and counts them. -/
theorem wrFifo_of_stopped {i v : Nat} (hv : Legal .fldFifo v) (hen : s.rd F.fldFifo_en i = 1) (hnew : F.fldFifo_en.of v = 0)
    (hstay : ∀ x ∈ ringFields, x.of v = s.rd x i) :
    s.wrFifo i v fullMask = ((s.storeReg .fldFifo i v fullMask).cnt F.fldFifoStat_gapCnt i
      ((s.fifo i).items.length + b2n (s.fifo i).gap.isSome)).setFifo i {} := by
  have hheld := storeReg_holds fldFifo_whole hv s i F.fldFifo_en (by decide) rfl
  have hany := mt (fifo_moves_iff hv s).mp (by simpa using hstay)
  rw [ringFields, Bool.not_eq_true] at hany
  simp [State.wrFifo, State.on, hen, hheld, hnew, hany, (storeReg_onlyRegs fldFifo_whole hv s i).fifo]

theorem setFifo_fieldsBut (s : State) (i : Nat) (x : Fifo) : s.FieldsBut (s.setFifo i x) [F.fldFifoStat_used, F.fldFifoStat_waiting] :=
  .of_regsBut (setFifo_regsBut s i x) (by simp)

theorem wrFifo_disabled_stores {i v : Nat} (hv : Legal .fldFifo v) (hen : s.rd F.fldFifo_en i = 0) (ht : s.wrFifo i v fullMask = t) :
    t.Holds .fldFifo i v ∧ t.fifo i = (if F.fldFifo_en.of v = 1 then {} else s.fifo i) ∧
      { t with regs := s.regs, field := s.field } = s ∧
      s.RegsBut t ([(F.fldFifoStat_used, i), (F.fldFifoStat_waiting, i)] ++ fieldsOf .fldFifo i) := by
  subst ht
  have hheld := storeReg_holds fldFifo_whole hv s i
  have honly := storeReg_onlyRegs fldFifo_whole hv s i
  rw [wrFifo_of_disabled hv hen]
  split
  · obtain ⟨hframe, hregs⟩ := honly.setFifo i {}
    exact ⟨(setFifo_fieldsBut _ i {}).holds hheld (by decide), fifo_setFifo_self .., hframe, hregs⟩
  · exact ⟨hheld, honly.fifo i, honly.frame_field, honly.2.mono (fun _ => List.mem_append_right _)⟩

theorem wrFifo_stops {i v : Nat} (hv : Legal .fldFifo v) (hen : s.rd F.fldFifo_en i = 1) (hnew : F.fldFifo_en.of v = 0)
    (hstay : ∀ x ∈ ringFields, x.of v = s.rd x i) (ht : s.wrFifo i v fullMask = t) :
    t.Holds .fldFifo i v ∧ t.fifo i = {} ∧
      t.rd F.fldFifoStat_gapCnt i =
        min (s.rd F.fldFifoStat_gapCnt i + ((s.fifo i).items.length + b2n (s.fifo i).gap.isSome)) (2 ^ F.fldFifoStat_gapCnt.w - 1) ∧
      { t with regs := s.regs, field := s.field } = s ∧
      t.rd F.fldFifoStat_used i = 0 ∧ t.rd F.fldFifoStat_waiting i = 0 ∧
      s.RegsBut t ([(F.fldFifoStat_used, i), (F.fldFifoStat_waiting, i), (F.fldFifoStat_gapCnt, i)] ++ fieldsOf .fldFifo i) := by
  subst ht
  rw [wrFifo_of_stopped hv hen hnew hstay]
  generalize (s.fifo i).items.length + b2n (s.fifo i).gap.isSome = n
  have hheld := storeReg_holds fldFifo_whole hv s i
  have honly := storeReg_onlyRegs fldFifo_whole hv s i
  have hgap : (s.storeReg .fldFifo i v fullMask).rd F.fldFifoStat_gapCnt i = s.rd F.fldFifoStat_gapCnt i :=
    (FieldsBut.of_regsBut (l := regFields .fldFifo) honly.2 (by simp [fieldsOf])).rd_eq i (by decide)
  generalize s.storeReg .fldFifo i v fullMask = t at hheld honly hgap ⊢
  have hcnt : t.FieldsBut (t.cnt F.fldFifoStat_gapCnt i n) [F.fldFifoStat_gapCnt] := (FieldsBut.refl t _).cnt i n (by simp)
  have hset := setFifo_fieldsBut (t.cnt F.fldFifoStat_gapCnt i n) i {}
  obtain ⟨hframe, hregs⟩ :=
    ((honly.mono (fun _ => List.mem_cons_of_mem (F.fldFifoStat_gapCnt, i))).cnt n List.mem_cons_self).setFifo i {}
  refine ⟨hset.holds (hcnt.holds hheld (by decide)) (by decide), fifo_setFifo_self .., ?_, hframe, rd_used_setFifo_empty _ i,
    rd_waiting_setFifo_empty _ i, hregs⟩
  rw [hset.rd_eq i (by decide), rd_cnt_self, hgap]

end State

/-! ### Writes through an open port -/

section

variable {s : State} {port : Fin 2} (h : s.Open port .unit)
include h

theorem exec_pwrPackWrite_of_open (p : Fin 64) (v : BitVec 64) :
    exec (.pwrPackWrite port p v) s = .next (s.wrPwrPack p v.toNat fullMask) :=
  (show exec (.pwrPackWrite port p v) s = execPwrPackWrite port p v s by rfl).trans (s.bar_of_open h _)

theorem exec_clkMarginCfgWrite_of_open (v : BitVec 32) : exec (.clkMarginCfgWrite port v) s = .next (s.wrMarginCfg v.toNat 0xFFFFFFFF) :=
  (show exec (.clkMarginCfgWrite port v) s = execClkMarginCfgWrite port v s by rfl).trans (s.bar_of_open h _)

theorem exec_lnkPortWrite_of_open (n : Fin 8) (v : BitVec 64) :
    exec (.lnkPortWrite port n v) s = .next (s.wrLnkPort n v.toNat fullMask) :=
  (show exec (.lnkPortWrite port n v) s = execLnkPortWrite port n v s by rfl).trans (s.bar_of_open h _)

theorem exec_lnkRetrainRequest_of_up {n : Fin 8} (hup : s.lup n = true) :
    exec (.lnkRetrainRequest port n) s = .next ((s.wr F.lnkPort_retrain n 1).setLink n 6) :=
  (show exec (.lnkRetrainRequest port n) s = execLnkRetrainRequest port n s by rfl).trans
    ((s.bar_of_open h _).trans (congrArg Host.Outcome.next (if_pos hup)))

theorem exec_lnkBindWrite_of_open (j : Fin 256) (v : BitVec 64) :
    exec (.lnkBindWrite port j v) s = .next (s.wrLnkBind j v.toNat fullMask) :=
  (show exec (.lnkBindWrite port j v) s = execLnkBindWrite port j v s by rfl).trans (s.bar_of_open h _)

theorem exec_fldFifoWrite_of_open (d : Fin 2) (f : Fin 32) (v : BitVec 64) :
    exec (.fldFifoWrite port d f v) s = .next (s.wrFifo (d.val * 32 + f.val) v.toNat fullMask) :=
  (show exec (.fldFifoWrite port d f v) s = execFldFifoWrite port d f v s by rfl).trans (s.bar_of_open h _)

theorem exec_clkSetCmd_of_idle (hidle : s.rd F.clkCmd_set 0 = 0) : exec (.clkSetCmd port) s = .next s.setTime :=
  (show exec (.clkSetCmd port) s = execClkSetCmd port s by rfl).trans
    ((s.bar_of_open h _).trans (congrArg Host.Outcome.next (if_neg (by simp [State.on, hidle]))))

end

end Sys2Proof.Machine
end

section
/-! The statement about power, clock, link and FIFO registers (R347, R373 to R375, R380, R393, R416, R420, R522). -/

open Sys2Proof Sys2Proof.Machine

/-- Settles O31: an open port's write runs the register's own write, and each clause is what that write stores and does. -/
theorem clockPowerLinkRegisters : Obligations.ClockPowerLinkRegisters := by
  unfold Obligations.ClockPowerLinkRegisters
  intro s port hopen
  refine ⟨?pwrPack, ?marginStored, ?marginRefused, ?lnkPort, ?retrain, ?lnkBind, ?fldFifo, ?clkSet⟩
  case pwrPack =>
    intro p v hv haf haf' haf'' hrf hrf' hrf'' hav hav' hav''
    exact ⟨_, exec_pwrPackWrite_of_open hopen p v,
      State.wrPwrPack_accepts hv ⟨haf, haf', haf''⟩ ⟨hrf, hrf', hrf''⟩ ⟨hav, hav', hav''⟩ rfl⟩
  case marginStored =>
    intro v hlt
    exact ⟨_, exec_clkMarginCfgWrite_of_open hopen v, State.wrMarginCfg_stores hlt rfl⟩
  case marginRefused =>
    intro v hle
    exact ⟨_, exec_clkMarginCfgWrite_of_open hopen v, State.wrMarginCfg_refuses hle rfl⟩
  case lnkPort =>
    intro n v hv hfit
    constructor
    · intro hwas hnew hoff
      exact ⟨_, exec_lnkPortWrite_of_open hopen n v, State.wrLnkPort_enables_off hv hfit hwas hnew hoff rfl⟩
    · intro hwas hnew hon
      exact ⟨_, exec_lnkPortWrite_of_open hopen n v, State.wrLnkPort_disables_on hv hwas hnew hon rfl⟩
  case retrain =>
    intro n hup
    exact ⟨_, exec_lnkRetrainRequest_of_up hopen hup, State.retrain_of_up hup rfl⟩
  case lnkBind =>
    intro j v hfree
    exact ⟨_, exec_lnkBindWrite_of_open hopen j v, State.wrLnkBind_stores hfree rfl⟩
  case fldFifo =>
    rintro d f v i hv rfl
    refine ⟨?_, ?_, ?_⟩
    · intro hen
      exact ⟨_, exec_fldFifoWrite_of_open hopen d f v, State.wrFifo_disabled_stores hv hen rfl⟩
    · intro hen hnew hstay
      exact ⟨_, exec_fldFifoWrite_of_open hopen d f v, State.wrFifo_stops hv hen hnew hstay rfl⟩
    · intro hen hmoves
      refine ⟨_, exec_fldFifoWrite_of_open hopen d f v, ?_⟩
      rw [State.wrFifo_of_moves hv hen hmoves, show (d.val * 32 + f.val) / 32 = d.val by omega]
      exact s.bark_reported _ _ _
  case clkSet =>
    intro hidle hsrc
    exact ⟨_, exec_clkSetCmd_of_idle hopen hidle, State.setTime_of_source hsrc rfl⟩

end
